-- ==== Sys2Proof/Word.lean ====
section
/-! DEFINITION. The word types of the AV-440 (chapter 12 preamble, 00_scope section 5): show memory is bytes, every
register and every field of a record lies in one 32-bit word. -/

namespace Sys2Proof

/-- One byte of show memory. -/
abbrev Byte := BitVec 8

/-- One 32-bit word: a register, an offset into show memory, a field of a record. -/
abbrev Word := BitVec 32

/-- A frame number: 32 bits, wrapping (00_scope section 5, R19). -/
abbrev Frame := BitVec 32

/-- A 24-bit RGB colour (00_scope section 5). -/
abbrev Colour := BitVec 24

/-- A 16-bit tag, compared for equality alone (00_scope section 5). -/
abbrev Tag := BitVec 16

/-- A set of zone ids: bit z stands for zone z (R70). -/
abbrev ZoneMask := BitVec 16

end Sys2Proof
end

