-- ==== Sys2Proof/Syntax.lean ====
section
/-! DEFINITION. The commands of the AV-440: one constructor of `Instr` for each row of spec/opcode_table.json, with the
operands the rule of that row names. A field that the part reads at its full width (R176) keeps that width here, so
that a value outside its allowed values can be given and is then refused by its owner as the rule says. -/

namespace Sys2Proof

/-- Where the result of a clip or message goes (R91, R108): the cue record of an index, or a trigger entry. -/
inductive Origin where
  | cue (index : Nat)
  | trigger (entry : Fin 8)
deriving DecidableEq, Repr

/-- What the CIU hands an owner with a payload beside the take frame, which is the frame in progress (R41): the
record's index, and whether the record is LATE (R40). -/
structure CueTake where
  index : Nat
  late : Bool
deriving DecidableEq, Repr

/-- What a PLAY_CLIP or POST_MESSAGE is handed over with: by the CIU for a record, by the ETU for a trigger entry
(R92, R106, R112). -/
structure Handover where
  origin : Origin
  late : Bool
deriving DecidableEq, Repr

/-- The PLAY_CLIP payload (12.5). -/
structure ClipPayload where
  zones : ZoneMask
  level : BitVec 8
  rep : BitVec 8
  base : Word
  pitch : Word
  width : BitVec 16
  height : BitVec 16
  count : BitVec 16
  loops : BitVec 8
  endBehaviour : BitVec 8
  tag : Tag
deriving DecidableEq, Repr

/-- The POST_MESSAGE payload (12.5). -/
structure MessagePayload where
  zones : ZoneMask
  cls : BitVec 8
  level : BitVec 8
  textOffset : Word
  textLength : BitVec 8
  foreground : Colour
  background : Colour
  mode : BitVec 8
  duration : BitVec 16
  tag : Tag
  blinkOn : BitVec 8
  blinkOff : BitVec 8
  crawlSpeed : BitVec 8
deriving DecidableEq, Repr

/-- The CLOCK_SET payload (12.5). -/
structure ClockSetPayload where
  channel : BitVec 8
  mode : BitVec 8
  reload : BitVec 8
  horn : BitVec 8
  preset : Word
  limit : Word
  hornLength : BitVec 16
  source : BitVec 8
deriving DecidableEq, Repr

/-- The CONSOLE_SET payload (12.5). -/
structure ConsolePayload where
  line : BitVec 8
  polarity : BitVec 8
  qualify : BitVec 8
  action : BitVec 8
  channel : Word
deriving DecidableEq, Repr

/-- A whole 28-byte payload as its seven words (12.5). A TRIGGER_ARM carries one: words 0 to 5 are the stored action's
own payload, word 6 the trigger fields. -/
structure Payload where
  w0 : Word
  w1 : Word
  w2 : Word
  w3 : Word
  w4 : Word
  w5 : Word
  w6 : Word
deriving DecidableEq, Repr

/-- The commands, in the order of spec/opcode_table.json. -/
inductive Instr where
  -- control window and resets (chapter 1)
  | anchorWrite (value : Word)
  | setRun (value : Word)
  | halt (value : Word)
  | softReset (value : Word)
  | eventClear (value : Word)
  | eventEnableWrite (value : Word)
  | controlWindowWrite (offset : BitVec 8) (value : Word)
  | linkReset
  | powerOnReset
  -- frame timing (chapter 2)
  | frameStart
  | referenceEdge (tick : Nat)
  | enterLocked (tick : Nat)
  | holdoverExpiry
  -- start-up, heartbeat, scan
  | anchorCheck (settingsNow : Bool)
  | heartbeatWatch
  | enterFallback
  | ciuScan (levels : BitVec 8)
  -- cue kinds as their owners take them
  | playClip (from_ : Handover) (p : ClipPayload)
  | postMessage (from_ : Handover) (p : MessagePayload)
  | withdraw (take : CueTake) (target : BitVec 8) (entry : BitVec 8) (tag : Tag)
  | loadLayout (take : CueTake) (bank : BitVec 8) (offset : Word)
  | selectLayout (take : CueTake) (bank : BitVec 8)
  | sponsorWrite (take : CueTake) (entry : BitVec 8) (offset : Word)
  | sponsorActivate (take : CueTake) (entry : BitVec 8)
  | sponsorRetire (take : CueTake) (entry : BitVec 8)
  | groupEnable (take : CueTake) (group : BitVec 8)
  | groupDisable (take : CueTake) (group : BitVec 8)
  | groupClear (take : CueTake) (group : BitVec 8)
  | clockSet (take : CueTake) (p : ClockSetPayload)
  | clockRunStart (take : CueTake) (channel : BitVec 8)
  | clockRunStop (take : CueTake) (channel : BitVec 8)
  | clockRunReset (take : CueTake) (channel : BitVec 8)
  | clockRunAdjust (take : CueTake) (channel : BitVec 8) (delta : Word)
  | consoleSet (take : CueTake) (levels : BitVec 8) (p : ConsolePayload)
  | triggerArm (take : CueTake) (p : Payload)
  | triggerDisarm (take : CueTake) (entry : BitVec 8)
  -- composition and links (chapter 5)
  | cloFrameStart
  | linkDown (link : Fin 4)
  | linkAnswer (link : Fin 4)
  -- clips, messages, rotation, log
  | clipExhausted (slot : Fin 8)
  | msuFrameStart
  | durationRunOut (slot : Fin 8)
  | blinkPhaseChange (slot : Fin 8)
  | dwellEnd (group : Fin 8)
  | holdQueueRetry
  -- clocks, console, horn, triggers
  | millisecondBoundary (levels : BitVec 8)
  | channelExpiry (channel : Fin 4)
  | consoleQualified (line : Fin 8)
  | hornPulseEnd
  | clockSnapshot
  | etuFrameStart
deriving DecidableEq, Repr

end Sys2Proof
end

