-- ==== Sys2Proof/Decode.lean ====
section
/-! DEFINITION. The AV-440 is a block: it takes commands, not instruction words. No row of spec/opcode_table.json gives
bits (no row has a "fixed" or a "fields" entry), so no word spells a command. The record and payload layouts of chapter
12, by which the CIU reads a cue record, are in Machine/Operands.lean. -/

namespace Sys2Proof

/-- The command that a word spells by the table's bits: none, since the table gives no row any bits. -/
def decodeTableWord (_nbits _w : Nat) : Option Instr := none

end Sys2Proof
end

