-- ==== Sys2Proof/Config.lean ====
section
/-! DEFINITION. The constants the spec fixes, and the free values: what the spec leaves open without a choice among its
words. A free value has no body, so that nothing can be proved of it; it is applied to a counter the machine reads and
advances (`State.free`). -/

namespace Sys2Proof.Config

/-- The size of show memory: 4 GiB, so every byte offset is below this (R1). -/
def memorySize : Nat := 2 ^ 32

/-- The most a COUNT_DOWN channel can hold (R154), in milliseconds. -/
def ceilingDown : Nat := 35999999

/-- The free-run period after a power-on reset, in ticks (R31). -/
def powerOnFreeRun : Nat := 1666667

/-- The least and the greatest period that ACQUIRING accepts, in ticks (R23). -/
def minPeriod : Nat := 400000

/-- The greatest period that ACQUIRING accepts (R23). -/
def maxPeriod : Nat := 4200000

/-- The range of the free-run period (R20). -/
def minFreeRun : Nat := 416667

/-- The upper end of the free-run period's range (R20). -/
def maxFreeRun : Nat := 4166667

/-- The limits of a balance (R130, R136). -/
def balanceMin : Int := -(2 ^ 47)

/-- The upper limit of a balance (R130, R136). -/
def balanceMax : Int := 2 ^ 47 - 1

/-- The greatest value of a saturating 32-bit count (R91, R108, R147). -/
def countMax : Nat := 4294967295

/-- FREE VALUE (log 5). Where the spec gives no order among the claimants, groups or slots that one step reaches, the
next one to be handled: the k-th choice among those left, for the counter's value n. -/
opaque freePick : Nat → Nat → Nat

/-- FREE VALUE (log 6, R138). Whether the snapshot written at an accounting close already shows the L that the play log
writer adds for the record just handed over. -/
opaque snapshotShowsLog : Nat → Bool

/-- FREE VALUE (log 3). How many ticks of the measure clock have passed, at a command that carries no tick, since the tick
that the FTU's count last came to. -/
opaque ticksSince : Nat → Nat

/-- FREE VALUE (log 7). Whether a RUNNING COUNT_DOWN channel that already stands at 0 (a RESET loaded it with 0, R161)
expires at the next millisecond: the spec states no result for counting down from 0. -/
opaque runningAtZeroExpires : Nat → Bool

end Sys2Proof.Config
end

