-- ==== Sys2Proof/Machine/State.lean ====
section
/-! DEFINITION. The state of the AV-440: every piece of state the spec gives each of its blocks, as plain data, with the
queue of waiting commands; the reasons a step can stop; and the state after power-on reset. -/

namespace Sys2Proof.Machine

/-! ## Stops -/

/-- Why a step can fault. NO RAISER: every rule of the spec gives its command an effect in every state, every access the
part makes lies in a region it has checked (R9, R57, R92, R109, R124), and offsets are bytes of the 4 GiB (R1). -/
inductive Fault : Type where
deriving DecidableEq, Repr

/-- Why a step can refuse. -/
inductive Refusal where
  /-- Raised by an arm of `exec` whose command has no meaning yet. Safe. No arm raises it now. -/
  | notModelled (mnemonic : String)
deriving DecidableEq, Repr

/-! ## Show memory -/

/-- Show memory (R1): the bytes that differ from what an unlisted address reads as, by rising address. -/
abbrev Memory := List Host.Cell

/-! ## Show memory port (chapter 1) -/

/-- The device state (R4). -/
inductive DevState where
  | halted | starting | running | fallback | faulted
deriving DecidableEq, Repr

/-- The fault code (R4). -/
inductive FaultCode where
  | none | format | cueLength | logLength | logIndex | region | commonLayout
deriving DecidableEq, Repr

/-- The reset cause (R4). -/
inductive ResetCause where
  | powerOn | soft | link
deriving DecidableEq, Repr

/-- The ten events (R15). -/
inductive Event where
  | cueDone | logOverflow | logIndexBad | fallback | resumed | refState | clockExpiry | linkState | groupSaturated
  | anchorFault
deriving DecidableEq, Repr

/-- What the SMP holds. `frameDue`: a frame start has been delivered to the block and it has not handled it yet (R19). -/
structure Smp where
  anchor : Word
  run : Bool
  dev : DevState
  fault : FaultCode
  cause : ResetCause
  events : BitVec 10
  enables : BitVec 10
  missCount : Nat
  lastSeen : Word
  inForce : Bool
  anchorEpoch : Nat
  frameDue : Bool
deriving DecidableEq, Repr

/-! ## Frame timing unit (chapter 2) -/

/-- The lock state (R22 to R28). -/
inductive LockState where
  | free | acquiring | locked | holdover
deriving DecidableEq, Repr

/-- A scheduled frame start: its tick, and whether placement by period put it there (R21, R24). -/
structure Sched where
  tick : Nat
  byPeriod : Bool
deriving DecidableEq, Repr

/-- What the FTU holds. `runOpen`: an accepted period has started a run since entry or since the last discard (R23).
`keptEntry` is the model's own (log 11): the last frame start took the FTU from FREE into ACQUIRING by the kept reference
enable, and whether REF_STATE was pending before it. -/
structure Ftu where
  tick : Nat
  lock : LockState
  frame : Frame
  schedule : List Sched
  lastStart : Nat
  lastEdge : Option Nat
  measured : Nat
  runCount : Nat
  runOpen : Bool
  lockedPeriod : Option Nat
  slipCount : Nat
  freeRun : Nat
  refEnable : Bool
  phase : Word
  keptEntry : Option Bool
deriving DecidableEq, Repr

/-! ## Cue intake unit (chapter 3) -/

/-- What the CIU holds between scans (3.3). -/
structure Ciu where
  scan : Nat
  refusing : Bool
  listOffset : Word
  listLength : Nat
  frameDue : Bool
deriving DecidableEq, Repr

/-- The values of a cue record's status field (R51). -/
inductive Status where
  | pending | ok | armed | completed | withdrawn | replaced | evicted | noZone | abandoned | halted | expiredUnshown
  | badKind | badValue | badRegion | noSlot | zoneFull | tagInUse | notFound | entryBusy | entryUnsettled | bankInUse
  | zoneConflict | zoneOverlap | channelRunning | channelEmpty | triggerBusy | groupRefused | groupTooLong
deriving DecidableEq, Repr

/-! ## Zone arbiter (chapter 4) -/

/-- The four clock formats of a CLOCK box (4.2). -/
inductive ClockFormat where
  | mmssTenths | seconds | mmss | tally
deriving DecidableEq, Repr

/-- What a field box shows, with the fields that its kind of source reads (4.2). -/
inductive BoxSource where
  | score (field : Fin 32) (digits : Nat) (zeroPad : Bool)
  | clock (channel : Fin 4) (format : ClockFormat)
deriving DecidableEq, Repr

/-- A field box definition (4.2). -/
structure FieldBox where
  source : BoxSource
  x : Nat
  y : Nat
  scale : Nat
  colour : Colour
  cover : Nat
deriving DecidableEq, Repr

/-- A zone definition (4.2). -/
structure ZoneDef where
  id : Fin 16
  link : Fin 4
  x : Nat
  y : Nat
  width : Nat
  height : Nat
  fill : Colour
  group : Option (Fin 8)
  boxes : List FieldBox
deriving DecidableEq, Repr

/-- Who holds a claim: a clip slot, a message slot or a rotation group (4.7). -/
inductive Claimant where
  | clip (slot : Fin 8)
  | message (slot : Fin 8)
  | group (group : Fin 8)
deriving DecidableEq, Repr

/-- A claim: a claimant and a level (4.7). -/
structure Claim where
  who : Claimant
  level : Nat
deriving DecidableEq, Repr

/-- A present zone of the zone table: its bank, its definition, and its claims, head first. -/
structure ZoneEntry where
  bank : Fin 4
  defn : ZoneDef
  claims : List Claim
deriving DecidableEq, Repr

/-- What the ZAR holds (chapter 4). -/
structure Zar where
  banks : Vector (List ZoneDef) 4
  selector : Fin 4
  table : Vector (Option ZoneEntry) 16
deriving DecidableEq, Repr

/-! ## Compositor and link output (chapter 5) -/

/-- The blink phase of a message (R115). -/
inductive Phase where
  | on | off
deriving DecidableEq, Repr

/-- A panel link: UP or DOWN, its miss count and its answer-seen flag. -/
structure PanelLink where
  up : Bool
  miss : Nat
  seen : Bool
deriving DecidableEq, Repr

/-- One entry of the view (R74). -/
structure ViewEntry where
  defn : ZoneDef
  head : Option Claimant
  level : Nat
deriving DecidableEq, Repr

/-- A message's answer with content (R117); `crawl` is the whole-pixel offset q, or none for STATIC. -/
structure MessageAnswer where
  textOffset : Nat
  textLength : Nat
  foreground : Colour
  background : Colour
  phase : Phase
  crawl : Option Nat
  textWidth : Nat
  textHeight : Nat
deriving DecidableEq, Repr

/-- A claimant's answer to a content request (R82). -/
inductive Answer where
  | clip (offset width height index : Nat)
  | message (m : MessageAnswer)
  | creative (entry : Fin 64) (slot : Word) (offset width height : Nat)
  | nothing
deriving DecidableEq, Repr

/-- How a channel's count moves (R154). -/
inductive ClockMode where
  | countDown | countUp | tally
deriving DecidableEq, Repr

/-- Whether a channel counts (R154). -/
inductive ClockState where
  | stopped | running | expired
deriving DecidableEq, Repr

/-- A sampled clock channel (R81). -/
structure ClockSample where
  channel : Fin 4
  count : Nat
  mode : ClockMode
  state : ClockState
deriving DecidableEq, Repr

/-- The frame in progress (chapter 5): its number, whether it shows content or is black (R87), the view, the answers and
the sampled field values. -/
structure FrameWork where
  number : Frame
  content : Bool
  view : List ViewEntry
  answers : List (Claimant × Answer)
  scores : List (Fin 32 × Word)
  clocks : List ClockSample
deriving DecidableEq, Repr

/-- What the CLO holds. -/
structure Clo where
  work : Option FrameWork
  asked : List Claimant
  links : Vector PanelLink 4
  scoreOffset : Word
  fontOffset : Word
  frameDue : Bool
deriving DecidableEq, Repr

/-! ## Clip engine (chapter 6) -/

/-- The state of a clip slot (R91). -/
inductive ClipState where
  | idle | playing | held | ending
deriving DecidableEq, Repr

/-- The record of a clip slot (R91). `epoch` names the anchor in force at the take (R101). -/
structure ClipSlot where
  state : ClipState
  origin : Origin
  tag : Tag
  level : Nat
  base : Nat
  pitch : Nat
  width : Nat
  height : Nat
  count : Nat
  rep : Nat
  loops : Nat
  holdLast : Bool
  source : Nat
  repPhase : Nat
  passes : Nat
  holdings : ZoneMask
  outstanding : Option Frame
  framesShown : Nat
  litFrames : Nat
  firstShown : Option Frame
  preempted : Bool
  takeFrame : Frame
  late : Bool
  refused : ZoneMask
  status : Option Status
  endFrame : Frame
  epoch : Nat
deriving DecidableEq, Repr

/-- What a PLAY_CLIP or POST_MESSAGE that reaches the CLE or the MSU meets (R93, R110): taken as usual, or answered at
once after a halt or in FALLBACK. -/
inductive Gate where
  | open_ | halted | fallback
deriving DecidableEq, Repr

/-- What the CLE holds. -/
structure Cle where
  slots : Vector ClipSlot 8
  gate : Gate
deriving DecidableEq, Repr

/-! ## Message unit (chapter 7) -/

/-- The state of a message slot (R108). -/
inductive MessageState where
  | idle | showing | ending
deriving DecidableEq, Repr

/-- The record of a message slot (R108); `duration` none is *unbounded*. -/
structure MessageSlot where
  state : MessageState
  origin : Origin
  tag : Tag
  safety : Bool
  level : Nat
  textOffset : Nat
  textLength : Nat
  textWidth : Nat
  textHeight : Nat
  foreground : Colour
  background : Colour
  duration : Option Nat
  blinkOn : Nat
  blinkOff : Nat
  phase : Phase
  phaseLeft : Nat
  crawl : Bool
  crawlSpeed : Nat
  crawlPos : Nat
  crawlSpan : Nat
  startFrame : Frame
  counted : Frame
  holdings : ZoneMask
  outstanding : Option Frame
  framesShown : Nat
  litFrames : Nat
  firstShown : Option Frame
  preempted : Bool
  takeFrame : Frame
  late : Bool
  refused : ZoneMask
  status : Option Status
  endFrame : Frame
  epoch : Nat
deriving DecidableEq, Repr

/-- What the MSU holds; `afterHalt`: a halt has been carried out and no start has succeeded since (R110). -/
structure Msu where
  slots : Vector MessageSlot 8
  afterHalt : Bool
  frameDue : Bool
deriving DecidableEq, Repr

/-! ## Sponsor rotation unit (chapter 8) -/

/-- A creative of a sponsor entry (R123). -/
structure Creative where
  base : Nat
  pitch : Nat
  width : Nat
  height : Nat
  count : Nat
  rep : Nat
  dwell : Nat
deriving DecidableEq, Repr

/-- A sponsor entry (R123). -/
structure Entry where
  active : Bool
  sponsorId : Word
  weight : Nat
  mask : BitVec 8
  creatives : List Creative
deriving DecidableEq, Repr

/-- A sponsor slot (R131). A group holds one open slot at a time; `closing` tells the closing slot from the current.
`haltedUnder` names the anchor in force at the halt that cut the slot, and is none in a slot that no halt has cut (R142). -/
structure Slot where
  number : Word
  entry : Fin 64
  sponsorId : Word
  creative : Nat
  start : Frame
  planned : Nat
  remaining : Nat
  answered : Nat
  outstanding : Option Frame
  running : Nat
  preemptedFrames : Nat
  cut : Bool
  preClear : Bool
  fallback : Bool
  closing : Bool
  haltedUnder : Option Nat
deriving DecidableEq, Repr

/-- A rotation group (R127) with its snapshot count (R138). -/
structure RotationGroup where
  enabled : Bool
  zones : ZoneMask
  saturated : Bool
  slotNumber : Word
  openSlot : Option Slot
  snapshots : Word
deriving DecidableEq, Repr

/-- The account of a pair of group and entry (R130): B, D, P, L, U, C. -/
structure Account where
  balance : Int
  delivered : BitVec 64
  plays : Word
  logged : BitVec 64
  unlogged : BitVec 64
  cursor : Nat
deriving DecidableEq, Repr

/-- What the SRU holds; `afterHalt` as for the MSU (R127). -/
structure Sru where
  entries : Vector Entry 64
  groups : Vector RotationGroup 8
  accounts : Vector (Vector Account 64) 8
  snapshotOffset : Word
  afterHalt : Bool
deriving DecidableEq, Repr

/-! ## Play log writer (chapter 9) -/

/-- A play record (R144). -/
structure PlayRecord where
  sponsorId : Word
  entry : Fin 64
  group : Fin 8
  creative : Nat
  start : Frame
  planned : Nat
  answered : Nat
  zoneFrames : Nat
  preemptedFrames : Nat
  cut : Bool
  preClear : Bool
  fallback : Bool
deriving DecidableEq, Repr

/-- What the PLW holds (chapter 9). -/
structure Plw where
  logOffset : Word
  logLength : Nat
  writeIndex : Nat
  hold : List PlayRecord
  overflow : Nat
  badIndex : Option Nat
  frameDue : Bool
deriving DecidableEq, Repr

/-! ## Clock channel unit (chapter 10) -/

/-- A clock channel (R154) with its request set (R160). -/
structure Channel where
  mode : ClockMode
  auto : Bool
  count : Nat
  preset : Nat
  pendingPreset : Option Nat
  limit : Nat
  source : Fin 4
  hornEnable : Bool
  hornLength : Nat
  state : ClockState
  expiries : Word
  reqStart : Bool
  reqStop : Bool
  reqReset : Bool
deriving DecidableEq, Repr

/-- What a qualified press does (R164). -/
inductive LineAction where
  | none | start | stop | toggle | reset | horn | triggerOnly
deriving DecidableEq, Repr

/-- A console line (R164); levels are true for active; `qualifying` holds the candidate level and its held count. -/
structure ConsoleLine where
  activeLow : Bool
  qualify : Nat
  action : LineAction
  channel : Fin 4
  qualified : Bool
  qualifying : Option (Bool × Nat)
  hornHold : Bool
deriving DecidableEq, Repr

/-- What the CCU holds; `levels` are the raw levels on the eight console line pins. -/
structure Ccu where
  channels : Vector Channel 4
  lines : Vector ConsoleLine 8
  horn : Nat
  levels : BitVec 8
  frameDue : Bool
deriving DecidableEq, Repr

/-! ## Event trigger unit (chapter 11) -/

/-- The source of a trigger entry (R170). -/
inductive TriggerSource where
  | channelExpiry (channel : Fin 4)
  | consoleLine (line : Fin 8)
  | clipEnd (tag : Tag)
  | messageEnd (tag : Tag)
deriving DecidableEq, Repr

/-- The stored action of a trigger entry (R170). -/
inductive TriggerAction where
  | clip (p : ClipPayload)
  | message (p : MessagePayload)
deriving DecidableEq, Repr

/-- The report of a trigger entry (R175). -/
structure TriggerReport where
  fires : Word
  suppressed : Word
  lastFire : Frame
  lastStatus : BitVec 8
  lastRefused : ZoneMask
  lastShown : Nat
  lastLit : Nat
deriving DecidableEq, Repr

/-- A trigger entry (R170); source and action are absent after a reset. -/
structure TriggerEntry where
  armed : Bool
  source : Option TriggerSource
  rearm : Bool
  action : Option TriggerAction
  pending : Bool
  report : TriggerReport
deriving DecidableEq, Repr

/-- What the ETU holds. `handling` and `inbox` are the model's own: while the ETU handles a frame start, the source events
that its own firings cause wait in the inbox and are taken after the handling (R172). -/
structure Etu where
  entries : Vector TriggerEntry 8
  handling : Bool
  inbox : List TriggerSource
  frameDue : Bool
deriving DecidableEq, Repr

/-! ## The whole machine -/

/-- The state: the queue of waiting commands (first in, first out), show memory, the blocks, and the counter that the free
values are applied to. -/
structure State where
  pending : List Instr
  mem : Memory
  smp : Smp
  ftu : Ftu
  ciu : Ciu
  zar : Zar
  clo : Clo
  cle : Cle
  msu : Msu
  sru : Sru
  plw : Plw
  ccu : Ccu
  etu : Etu
  free : Nat
deriving DecidableEq, Repr

/-! ## The state after power-on reset -/

/-- The SMP after a power-on reset (R18, R31). -/
def Smp.reset : Smp :=
  { anchor := 0, run := false, dev := .halted, fault := .none, cause := .powerOn, events := 0, enables := 0,
    missCount := 0, lastSeen := 0, inForce := false, anchorEpoch := 0, frameDue := false }

/-- The FTU after a power-on reset that ends at tick 0 (R31): frame 0 begins, frame 1 is scheduled. -/
def Ftu.reset : Ftu :=
  { tick := 0, lock := .free, frame := 0, schedule := [⟨Config.powerOnFreeRun, true⟩], lastStart := 0,
    lastEdge := none, measured := 0, runCount := 0, runOpen := false, lockedPeriod := none, slipCount := 0,
    freeRun := Config.powerOnFreeRun, refEnable := false, phase := 0, keptEntry := none }

/-- The CIU after a power-on reset (R53). -/
def Ciu.reset : Ciu := { scan := 0, refusing := false, listOffset := 0, listLength := 0, frameDue := false }

/-- The ZAR after a power-on reset (R54, R75). -/
def Zar.reset : Zar :=
  { banks := Vector.replicate 4 [], selector := 0, table := Vector.replicate 16 none }

/-- A link after a reset: DOWN, miss count 3, no answer seen (R87). -/
def PanelLink.reset : PanelLink := { up := false, miss := 3, seen := false }

/-- The CLO after a power-on reset (R87). -/
def Clo.reset : Clo :=
  { work := none, asked := [], links := Vector.replicate 4 PanelLink.reset, scoreOffset := 0, fontOffset := 0,
    frameDue := false }

/-- An IDLE clip slot with all its fields cleared (R107). -/
def ClipSlot.cleared : ClipSlot :=
  { state := .idle, origin := .cue 0, tag := 0, level := 0, base := 0, pitch := 0, width := 0, height := 0, count := 0,
    rep := 0, loops := 0, holdLast := false, source := 0, repPhase := 0, passes := 0, holdings := 0,
    outstanding := none, framesShown := 0, litFrames := 0, firstShown := none, preempted := false, takeFrame := 0,
    late := false, refused := 0, status := none, endFrame := 0, epoch := 0 }

/-- The CLE after a power-on reset (R107). -/
def Cle.reset : Cle := { slots := Vector.replicate 8 ClipSlot.cleared, gate := .open_ }

/-- An IDLE message slot with all its fields cleared (R122). -/
def MessageSlot.cleared : MessageSlot :=
  { state := .idle, origin := .cue 0, tag := 0, safety := false, level := 0, textOffset := 0, textLength := 0,
    textWidth := 0, textHeight := 0, foreground := 0, background := 0, duration := none, blinkOn := 0, blinkOff := 0,
    phase := .on, phaseLeft := 0, crawl := false, crawlSpeed := 0, crawlPos := 0, crawlSpan := 0, startFrame := 0,
    counted := 0, holdings := 0, outstanding := none, framesShown := 0, litFrames := 0, firstShown := none,
    preempted := false, takeFrame := 0, late := false, refused := 0, status := none, endFrame := 0, epoch := 0 }

/-- The MSU after a power-on reset (R122). -/
def Msu.reset : Msu :=
  { slots := Vector.replicate 8 MessageSlot.cleared, afterHalt := false, frameDue := false }

/-- A sponsor entry after a power-on reset (R123). -/
def Entry.reset : Entry := { active := false, sponsorId := 0, weight := 0, mask := 0, creatives := [] }

/-- An account after a power-on reset (R130). -/
def Account.zero : Account :=
  { balance := 0, delivered := 0, plays := 0, logged := 0, unlogged := 0, cursor := 0 }

/-- A rotation group after a power-on reset (R143). -/
def RotationGroup.reset : RotationGroup :=
  { enabled := false, zones := 0, saturated := false, slotNumber := 0, openSlot := none, snapshots := 0 }

/-- The SRU after a power-on reset (R123, R130, R143). -/
def Sru.reset : Sru :=
  { entries := Vector.replicate 64 Entry.reset, groups := Vector.replicate 8 RotationGroup.reset,
    accounts := Vector.replicate 8 (Vector.replicate 64 Account.zero), snapshotOffset := 0, afterHalt := false }

/-- The PLW after a power-on reset (R152). -/
def Plw.reset : Plw :=
  { logOffset := 0, logLength := 0, writeIndex := 0, hold := [], overflow := 0, badIndex := none, frameDue := false }

/-- A clock channel after a power-on reset (R154). -/
def Channel.reset : Channel :=
  { mode := .countDown, auto := false, count := 0, preset := 0, pendingPreset := none, limit := 1, source := 0,
    hornEnable := false, hornLength := 100, state := .stopped, expiries := 0, reqStart := false, reqStop := false,
    reqReset := false }

/-- A console line after a power-on reset (R164). -/
def ConsoleLine.reset : ConsoleLine :=
  { activeLow := false, qualify := 1, action := .none, channel := 0, qualified := false, qualifying := none,
    hornHold := false }

/-- The CCU after a power-on reset (R154, R164, R167, R169). -/
def Ccu.reset : Ccu :=
  { channels := Vector.replicate 4 Channel.reset, lines := Vector.replicate 8 ConsoleLine.reset, horn := 0,
    levels := 0, frameDue := false }

/-- A trigger report with every field 0 (R175). -/
def TriggerReport.zero : TriggerReport :=
  { fires := 0, suppressed := 0, lastFire := 0, lastStatus := 0, lastRefused := 0, lastShown := 0, lastLit := 0 }

/-- An IDLE trigger entry as a reset leaves it (R170). -/
def TriggerEntry.reset : TriggerEntry :=
  { armed := false, source := none, rearm := false, action := none, pending := false, report := TriggerReport.zero }

/-- The ETU after a power-on reset (R170). -/
def Etu.reset : Etu :=
  { entries := Vector.replicate 8 TriggerEntry.reset, handling := false, inbox := [], frameDue := false }

/-- The machine right after power-on reset, with no command waiting and nothing listed in show memory. -/
def State.reset : State :=
  { pending := [], mem := [], smp := Smp.reset, ftu := Ftu.reset, ciu := Ciu.reset, zar := Zar.reset, clo := Clo.reset,
    cle := Cle.reset, msu := Msu.reset, sru := Sru.reset, plw := Plw.reset, ccu := Ccu.reset, etu := Etu.reset,
    free := 0 }

/-! ## Updates of one block -/

/-- Replace the waiting commands. -/
def State.withPending (s : State) (q : List Instr) : State := { s with pending := q }
/-- Replace show memory. -/
def State.withMem (s : State) (m : Memory) : State := { s with mem := m }
/-- Change the SMP. -/
def State.onSmp (s : State) (f : Smp → Smp) : State := { s with smp := f s.smp }
/-- Change the FTU. -/
def State.onFtu (s : State) (f : Ftu → Ftu) : State := { s with ftu := f s.ftu }
/-- Change the CIU. -/
def State.onCiu (s : State) (f : Ciu → Ciu) : State := { s with ciu := f s.ciu }
/-- Change the ZAR. -/
def State.onZar (s : State) (f : Zar → Zar) : State := { s with zar := f s.zar }
/-- Change the CLO. -/
def State.onClo (s : State) (f : Clo → Clo) : State := { s with clo := f s.clo }
/-- Change the CLE. -/
def State.onCle (s : State) (f : Cle → Cle) : State := { s with cle := f s.cle }
/-- Change the MSU. -/
def State.onMsu (s : State) (f : Msu → Msu) : State := { s with msu := f s.msu }
/-- Change the SRU. -/
def State.onSru (s : State) (f : Sru → Sru) : State := { s with sru := f s.sru }
/-- Change the PLW. -/
def State.onPlw (s : State) (f : Plw → Plw) : State := { s with plw := f s.plw }
/-- Change the CCU. -/
def State.onCcu (s : State) (f : Ccu → Ccu) : State := { s with ccu := f s.ccu }
/-- Change the ETU. -/
def State.onEtu (s : State) (f : Etu → Etu) : State := { s with etu := f s.etu }
/-- Move the counter of free values on. -/
def State.nextFree (s : State) : State := { s with free := s.free + 1 }

end Sys2Proof.Machine
end

