-- ==== Sys2Proof/Machine/Ops.lean ====
section
/-! DEFINITION. The named operations over show memory, the vectors of the blocks, the anchor block, the events and the
free order: everything the blocks share. -/

namespace Sys2Proof.Machine

/-! ## Vectors -/

/-- Change one member of a bank of like things. -/
def upd {α : Type} {n : Nat} (v : Vector α n) (i : Fin n) (f : α → α) : Vector α n := v.set i (f v[i])

/-- The index a full-width field names, or none above the highest index (R176). -/
def index (n : Nat) (v : Nat) : Option (Fin n) := if h : v < n then some ⟨v, h⟩ else none

/-! ## Show memory (R1) -/

/-- What a byte that nothing has written reads as (log 1). -/
def Memory.unlisted : Byte := 0

/-- One byte of show memory. -/
def Memory.get (m : Memory) (a : Nat) : Byte := (m.lookup a).getD Memory.unlisted

/-- The cells that storing these bytes from an offset lists: those inside show memory that differ from an unlisted one. -/
def cellsFrom : Nat → List Byte → Memory
  | _, [] => []
  | a, b :: bs =>
    if b = Memory.unlisted ∨ Config.memorySize ≤ a then cellsFrom (a + 1) bs else (a, b) :: cellsFrom (a + 1) bs

/-- Store bytes at consecutive offsets. -/
def Memory.store (m : Memory) (a : Nat) (bs : List Byte) : Memory :=
  m.filter (fun c => c.1 < a) ++ cellsFrom a bs ++ m.filter (fun c => a + bs.length ≤ c.1)

/-- The canonical form: offsets strictly rising, inside show memory, and no cell equal to an unlisted one. -/
abbrev Memory.wf (m : Memory) : Prop :=
  m.Pairwise (fun c d => c.1 < d.1) ∧ ∀ c ∈ m, c.2 ≠ Memory.unlisted ∧ c.1 < Config.memorySize

/-- The four bytes of a word, the least significant first: records are little-endian (00_scope section 5). -/
def bytesOf (w : Word) : List Byte :=
  [w.extractLsb' 0 8, w.extractLsb' 8 8, w.extractLsb' 16 8, w.extractLsb' 24 8]

/-- The word at an offset. -/
def Memory.word (m : Memory) (a : Nat) : Word :=
  m.get (a + 3) ++ m.get (a + 2) ++ m.get (a + 1) ++ m.get a

/-- Store consecutive words. -/
def Memory.storeWords (m : Memory) (a : Nat) (ws : List Word) : Memory := m.store a (ws.flatMap bytesOf)

/-- A region of this many bytes lies inside show memory: the sum is taken without wrapping (00_scope section 5, R92). -/
def insideMemory (offset bytes : Nat) : Bool := decide (offset + bytes ≤ Config.memorySize)

/-! ## The host's window onto show memory (R1): no row of the table, an input from outside between two commands -/

/-- The host reads a byte. -/
def State.hostRead (s : State) (a : Nat) : Byte := s.mem.get a

/-- The host writes bytes at consecutive offsets. -/
def State.hostWrite (s : State) (a : Nat) (bs : List Byte) : State := s.withMem (s.mem.store a bs)

/-! ## Frame numbers -/

/-- "Frame f is reached" at frame n: f minus n, read as a signed 32-bit value, is zero or negative (00_scope section 5). -/
def reached (f n : Frame) : Bool := f == n || (f - n).msb

/-- Frame f has passed at frame n: the difference is negative (R40). -/
def passed (f n : Frame) : Bool := (f - n).msb

/-! ## The free order (log 5) -/

/-- The members of a list in an order the spec leaves open: each next member is picked by the free value. -/
def freeOrderFuel {α : Type} (seed : Nat) : Nat → List α → List α
  | 0, l => l
  | k + 1, l =>
    match l with
    | [] => []
    | [x] => [x]
    | x :: xs =>
      let i := Config.freePick seed k % (x :: xs).length
      ((x :: xs)[i]?).toList ++ freeOrderFuel seed k ((x :: xs).eraseIdx i)

/-- A list in the free order that the counter's present value gives. -/
def freeOrder {α : Type} (seed : Nat) (l : List α) : List α := freeOrderFuel seed l.length l

/-- Handle the members of a list one after another, in the free order. -/
def inFreeOrder {α : Type} (l : List α) (f : α → State → State) (s : State) : State :=
  (freeOrder s.free l).foldl (fun t x => f x t) s.nextFree

/-- Handle the members of a list one after another, in the order of the list. -/
def inOrder {α : Type} (l : List α) (f : α → State → State) (s : State) : State := l.foldl (fun t x => f x t) s

/-! ## Events (R15) -/

/-- The bit of an event (12.2). -/
def Event.bit : Event → Nat
  | .cueDone => 0
  | .logOverflow => 1
  | .logIndexBad => 2
  | .fallback => 3
  | .resumed => 4
  | .refState => 5
  | .clockExpiry => 6
  | .linkState => 7
  | .groupSaturated => 8
  | .anchorFault => 9

/-- Raise an event: set its pending flag (R15). -/
def raise (e : Event) (s : State) : State :=
  s.onSmp fun m => { m with events := m.events ||| (1#10 <<< e.bit) }

/-! ## The anchor block (R6 to R8, 12.3) -/

/-- A host-written word of the anchor block. -/
def anchorWord (s : State) (offset : Nat) : Word := s.mem.word (s.smp.anchor.toNat + offset)

/-- Write words of the part-written area: only while an anchor is in force (R6, R8). -/
def anchorWrite (offset : Nat) (ws : List Word) (s : State) : State :=
  if s.smp.inForce then s.withMem (s.mem.storeWords (s.smp.anchor.toNat + offset) ws) else s

/-- The code of a device state (12.2). -/
def DevState.code : DevState → Word
  | .halted => 0
  | .starting => 1
  | .running => 2
  | .fallback => 3
  | .faulted => 4

/-- Enter a device state and write the anchor's device state field (R4, R8). -/
def setDev (d : DevState) (s : State) : State :=
  anchorWrite 0x100 [d.code] (s.onSmp fun m => { m with dev := d })

/-- The device state lets claims and composition act (1.3). -/
def DevState.live : DevState → Bool
  | .running => true
  | .fallback => true
  | _ => false

/-- The code of a lock state (12.3). -/
def LockState.code : LockState → Word
  | .free => 0
  | .acquiring => 1
  | .locked => 2
  | .holdover => 3

/-- The reference words of the anchor (R29): lock state, measured period, locked period or 0. -/
def Ftu.refWords (f : Ftu) : List Word :=
  [f.lock.code, BitVec.ofNat 32 f.measured, BitVec.ofNat 32 (f.lockedPeriod.getD 0)]

/-- The link states word: bit n is 1 when link n is UP (12.3). -/
def linkWord (links : Vector PanelLink 4) : Word :=
  (if links[0].up then 1 else 0) ||| (if links[1].up then 2 else 0) ||| (if links[2].up then 4 else 0) |||
    (if links[3].up then 8 else 0)

/-- The status byte of a group: bit 0 ENABLED, bit 1 SATURATED (R139, 12.3). -/
def RotationGroup.statusByte (g : RotationGroup) : Byte :=
  (if g.enabled then 1 else 0) ||| (if g.saturated then 2 else 0)

/-- The two words of the group status field (12.3). -/
def groupWords (gs : Vector RotationGroup 8) : List Word :=
  [gs[3].statusByte ++ gs[2].statusByte ++ gs[1].statusByte ++ gs[0].statusByte,
   gs[7].statusByte ++ gs[6].statusByte ++ gs[5].statusByte ++ gs[4].statusByte]

/-- Write the group status of all eight groups (R139). -/
def writeGroupStatus (s : State) : State := anchorWrite 0x128 (groupWords s.sru.groups) s

/-- The code of a channel's state in the clock snapshot (12.3). -/
def ClockState.code : ClockState → Word
  | .stopped => 0
  | .running => 1
  | .expired => 2

/-- The three words of a channel's clock snapshot (R163, 12.3). -/
def Channel.snapshotWords (c : Channel) : List Word := [BitVec.ofNat 32 c.count, c.state.code, c.expiries]

/-- The clock snapshot (R163). -/
def clockWords (cs : Vector Channel 4) : List Word := cs.toList.flatMap Channel.snapshotWords

/-- The eight words of a trigger report (12.3). -/
def TriggerReport.words (r : TriggerReport) : List Word :=
  [r.fires, r.suppressed, r.lastFire, r.lastStatus.setWidth 32, r.lastRefused.setWidth 32,
   BitVec.ofNat 32 r.lastShown, BitVec.ofNat 32 r.lastLit, 0]

/-- The trigger reports (R175). -/
def reportWords (es : Vector TriggerEntry 8) : List Word := es.toList.flatMap fun e => e.report.words

/-- The whole part-written area, from 0x100 to 0x27F, reserved words 0 (R8, R177, 12.3). -/
def partWords (s : State) : List Word :=
  [s.smp.dev.code, BitVec.ofNat 32 s.smp.missCount, BitVec.ofNat 32 s.ciu.scan, BitVec.ofNat 32 s.plw.writeIndex,
   BitVec.ofNat 32 s.plw.overflow, s.ftu.frame] ++ s.ftu.refWords ++ [linkWord s.clo.links] ++
  groupWords s.sru.groups ++ [0, 0, 0, 0] ++ clockWords s.ccu.channels ++ [0, 0, 0, 0] ++ reportWords s.etu.entries

/-- Write the part-written area in full (R8, R10). -/
def writePartArea (s : State) : State := anchorWrite 0x100 (partWords s) s

/-! ## Cue records (R32 to R35, 12.4) -/

/-- The code of a status (12.4). -/
def Status.code : Status → BitVec 8
  | .pending => 0x00
  | .ok => 0x01
  | .armed => 0x02
  | .completed => 0x03
  | .withdrawn => 0x04
  | .replaced => 0x05
  | .evicted => 0x06
  | .noZone => 0x07
  | .abandoned => 0x08
  | .halted => 0x09
  | .expiredUnshown => 0x0A
  | .badKind => 0x20
  | .badValue => 0x21
  | .badRegion => 0x22
  | .noSlot => 0x23
  | .zoneFull => 0x24
  | .tagInUse => 0x25
  | .notFound => 0x26
  | .entryBusy => 0x27
  | .entryUnsettled => 0x28
  | .bankInUse => 0x29
  | .zoneConflict => 0x2A
  | .zoneOverlap => 0x2B
  | .channelRunning => 0x2C
  | .channelEmpty => 0x2D
  | .triggerBusy => 0x2E
  | .groupRefused => 0x2F
  | .groupTooLong => 0x30

/-- The result fields of a cue record (R35). -/
structure CueResult where
  status : Status
  late : Bool
  preempted : Bool
  refused : ZoneMask
  takeFrame : Frame
  firstShown : Frame
  endFrame : Frame
  framesShown : Nat
  litFrames : Nat
deriving DecidableEq, Repr

/-- The six result words of a cue record, from offset 0x28 (12.4). -/
def CueResult.words (r : CueResult) : List Word :=
  [r.refused ++ ((if r.late then 1#8 else 0#8) ||| (if r.preempted then 2#8 else 0#8)) ++ r.status.code,
   r.takeFrame, r.firstShown, r.endFrame, BitVec.ofNat 32 r.framesShown, BitVec.ofNat 32 r.litFrames]

/-- The state code EMPTY of a cue record (12.4). -/
def emptyCode : Word := 0

/-- The state code TAKEN (12.4). -/
def takenCode : Word := 2

/-- The state code DONE (12.4). -/
def doneCode : Word := 3

/-- The offset of cue record i (chapter 3). -/
def cueOffset (s : State) (i : Nat) : Nat := s.ciu.listOffset.toNat + 64 * i

/-- The host writes the state EMPTY into record i of the cue list, retracting it (R33). -/
def State.hostRetract (s : State) (i : Nat) : State := s.hostWrite (cueOffset s i) (bytesOf emptyCode)

/-- Write a record's result fields and then its state word (R34): only while an anchor is in force, and only at an index
of the list. -/
def writeCue (i : Nat) (r : CueResult) (code : Word) (s : State) : State :=
  if s.smp.inForce ∧ i < s.ciu.listLength then
    s.withMem ((s.mem.storeWords (cueOffset s i + 0x28) r.words).storeWords (cueOffset s i) [code])
  else s

/-- Write a record DONE and raise CUE_DONE with that write (R34). -/
def writeDone (i : Nat) (r : CueResult) (s : State) : State :=
  if s.smp.inForce ∧ i < s.ciu.listLength then raise .cueDone (writeCue i r doneCode s) else s

/-- Write a record DONE at the completion of a clip or message: omitted as well when the anchor in force at the take has
ended since (R50, R101, R119). -/
def completeCue (epoch : Nat) (i : Nat) (r : CueResult) (s : State) : State :=
  if s.smp.anchorEpoch = epoch then writeDone i r s else s

/-- A 32-bit count held at its greatest value (R91, R108, R147). -/
def saturate (n : Nat) : Nat := min n Config.countMax

end Sys2Proof.Machine
end

