-- ==== Sys2Proof/Machine/Operands.lean ====
section
/-! DEFINITION. The records the part reads (chapter 12): cue records and their payloads, layout records, sponsor
definition records, glyph cells. Each field is read at its position at its full width (R176). -/

namespace Sys2Proof.Machine

/-- Bits lo to lo + n - 1 of a word. -/
def bits (w : Word) (lo n : Nat) : BitVec n := w.extractLsb' lo n

/-! ## Cue records (12.4) -/

/-- A cue record's state word (R32). -/
inductive CueState where
  | empty | posted | taken | done | unrecognised
deriving DecidableEq, Repr

/-- Read a state word: a value that is not one of the four codes is unrecognised (R32). -/
def cueStateOf (w : Word) : CueState :=
  if w = 0 then .empty else if w = 1 then .posted else if w = 2 then .taken else if w = 3 then .done else .unrecognised

/-- What the CIU reads of a record (R38, R39): the result fields are not read. -/
structure CueRecord where
  state : CueState
  kind : BitVec 8
  linked : Bool
  timed : Bool
  notBefore : Frame
  payload : Payload
deriving DecidableEq, Repr

/-- Read the cue record at an offset. -/
def readCue (m : Memory) (a : Nat) : CueRecord :=
  { state := cueStateOf (m.word a), kind := bits (m.word (a + 4)) 0 8, linked := (m.word (a + 4)).getLsbD 8,
    timed := (m.word (a + 4)).getLsbD 9, notBefore := m.word (a + 8),
    payload := ⟨m.word (a + 12), m.word (a + 16), m.word (a + 20), m.word (a + 24), m.word (a + 28), m.word (a + 32),
      m.word (a + 36)⟩ }

/-! ## Payloads (12.5) -/

/-- The PLAY_CLIP payload. -/
def clipPayload (p : Payload) : ClipPayload :=
  { zones := bits p.w0 0 16, level := bits p.w0 16 8, rep := bits p.w0 24 8, base := p.w1, pitch := p.w2,
    width := bits p.w3 0 16, height := bits p.w3 16 16, count := bits p.w4 0 16, loops := bits p.w4 16 8,
    endBehaviour := bits p.w4 24 8, tag := bits p.w5 0 16 }

/-- The POST_MESSAGE payload. -/
def messagePayload (p : Payload) : MessagePayload :=
  { zones := bits p.w0 0 16, cls := bits p.w0 16 8, level := bits p.w0 24 8, textOffset := p.w1,
    foreground := bits p.w2 0 24, textLength := bits p.w2 24 8, background := bits p.w3 0 24, mode := bits p.w3 24 8,
    duration := bits p.w4 0 16, tag := bits p.w4 16 16, blinkOn := bits p.w5 0 8, blinkOff := bits p.w5 8 8,
    crawlSpeed := bits p.w5 16 8 }

/-- The CLOCK_SET payload. -/
def clockSetPayload (p : Payload) : ClockSetPayload :=
  { channel := bits p.w0 0 8, mode := bits p.w0 8 8, reload := bits p.w0 16 8, horn := bits p.w0 24 8, preset := p.w1,
    limit := p.w2, hornLength := bits p.w3 0 16, source := bits p.w3 16 8 }

/-- The CONSOLE_SET payload. -/
def consolePayload (p : Payload) : ConsolePayload :=
  { line := bits p.w0 0 8, polarity := bits p.w0 8 8, qualify := bits p.w0 16 8, action := bits p.w0 24 8,
    channel := p.w1 }

/-- The trigger fields of a TRIGGER_ARM payload: word 6 (12.5). -/
structure TriggerFields where
  entry : Nat
  sourceKind : Nat
  sourceValue : BitVec 16
  rearm : Bool
  actionKind : Nat
deriving DecidableEq, Repr

/-- Read word 6 of a TRIGGER_ARM payload. -/
def triggerFields (p : Payload) : TriggerFields :=
  { entry := (bits p.w6 16 4).toNat, sourceKind := (bits p.w6 20 4).toNat, sourceValue := bits p.w6 0 16,
    rearm := p.w6.getLsbD 24, actionKind := (bits p.w6 28 4).toNat }

/-- The source a TRIGGER_ARM names, when its kind is one of the four and its channel or line exists (R171 check 1). -/
def triggerSource (t : TriggerFields) : Option TriggerSource :=
  match t.sourceKind with
  | 0 => (index 4 t.sourceValue.toNat).map .channelExpiry
  | 1 => (index 8 t.sourceValue.toNat).map .consoleLine
  | 2 => some (.clipEnd t.sourceValue)
  | 3 => some (.messageEnd t.sourceValue)
  | _ => none

/-- The stored action, when its kind is one of the two (R171 check 1); its payload is not checked at arming. -/
def triggerAction (t : TriggerFields) (p : Payload) : Option TriggerAction :=
  match t.actionKind with
  | 1 => some (.clip (clipPayload p))
  | 2 => some (.message (messagePayload p))
  | _ => none

/-- The work of a record, by its kind (R42, 12.4). -/
inductive Work where
  | playClip (p : ClipPayload)
  | postMessage (p : MessagePayload)
  | withdraw (target entry : BitVec 8) (tag : Tag)
  | loadLayout (bank : BitVec 8) (offset : Word)
  | selectLayout (bank : BitVec 8)
  | sponsorWrite (entry : BitVec 8) (offset : Word)
  | sponsorState (entry action : BitVec 8)
  | groupSet (group action : BitVec 8)
  | groupClear (group : BitVec 8)
  | clockSet (p : ClockSetPayload)
  | clockRun (channel action : BitVec 8) (delta : Word)
  | consoleSet (p : ConsolePayload)
  | triggerArm (p : Payload)
  | triggerDisarm (entry : BitVec 8)
deriving DecidableEq, Repr

/-- The work a record carries, or none when its kind is not one of the fourteen (R41, R42). -/
def workOf (kind : BitVec 8) (p : Payload) : Option Work :=
  match kind.toNat with
  | 0x01 => some (.playClip (clipPayload p))
  | 0x02 => some (.postMessage (messagePayload p))
  | 0x03 => some (.withdraw (bits p.w0 0 8) (bits p.w0 8 8) (bits p.w0 16 16))
  | 0x04 => some (.loadLayout (bits p.w0 0 8) p.w1)
  | 0x05 => some (.selectLayout (bits p.w0 0 8))
  | 0x06 => some (.sponsorWrite (bits p.w0 0 8) p.w1)
  | 0x07 => some (.sponsorState (bits p.w0 0 8) (bits p.w0 8 8))
  | 0x08 => some (.groupSet (bits p.w0 0 8) (bits p.w0 8 8))
  | 0x09 => some (.groupClear (bits p.w0 0 8))
  | 0x0A => some (.clockSet (clockSetPayload p))
  | 0x0B => some (.clockRun (bits p.w0 0 8) (bits p.w0 8 8) p.w1)
  | 0x0C => some (.consoleSet (consolePayload p))
  | 0x0D => some (.triggerArm p)
  | 0x0E => some (.triggerDisarm (bits p.w0 0 8))
  | _ => none

/-! ## Layout records (12.6, R57 check 5) -/

/-- The size of a layout record in bytes (12.6). -/
def layoutBytes : Nat := 1296

/-- The clock format of a code (12.6). -/
def clockFormatOf (code : Nat) : Option ClockFormat :=
  match code with
  | 0 => some .mmssTenths
  | 1 => some .seconds
  | 2 => some .mmss
  | 3 => some .tally
  | _ => none

/-- The source of a field box, when its values are allowed (R57 check 5). -/
def boxSourceOf (w0 w2 : Word) : Option BoxSource :=
  match (bits w0 0 8).toNat with
  | 0 =>
    if 1 ≤ (bits w2 0 8).toNat ∧ (bits w2 0 8).toNat ≤ 4 then
      (index 32 (bits w0 8 8).toNat).map fun f => .score f (bits w2 0 8).toNat (bits w2 8 8 != 0)
    else none
  | 1 =>
    match index 4 (bits w0 8 8).toNat, clockFormatOf (bits w2 16 8).toNat with
    | some c, some f => some (.clock c f)
    | _, _ => none
  | _ => none

/-- The field box at an offset, when its values are allowed for a zone of this size (R57 check 5). -/
def readBox (m : Memory) (a width height : Nat) : Option FieldBox :=
  let w0 := m.word a
  let w1 := m.word (a + 4)
  match boxSourceOf w0 (m.word (a + 8)) with
  | none => none
  | some src =>
    if 1 ≤ (bits w0 16 8).toNat ∧ (bits w0 16 8).toNat ≤ 4 ∧ (bits w0 24 8).toNat ≤ 7 ∧ (bits w1 0 16).toNat < width ∧
        (bits w1 16 16).toNat < height then
      some { source := src, x := (bits w1 0 16).toNat, y := (bits w1 16 16).toNat, scale := (bits w0 16 8).toNat,
             colour := bits (m.word (a + 12)) 0 24, cover := (bits w0 24 8).toNat }
    else none

/-- The rotation group field: 0 to 7, or 0xFF for NONE (R176); none when it is neither. -/
def groupFieldOf (v : Nat) : Option (Option (Fin 8)) :=
  if v = 0xFF then some none else (index 8 v).map some

/-- All members of a list, when each is there. -/
def allSome {α : Type} : List (Option α) → Option (List α)
  | [] => some []
  | none :: _ => none
  | some x :: xs => (allSome xs).map (x :: ·)

/-- The zone definition at an offset, when its values are allowed (R57 check 5). -/
def readZone (m : Memory) (a : Nat) : Option ZoneDef :=
  let w0 := m.word a
  let x := (bits (m.word (a + 4)) 0 16).toNat
  let y := (bits (m.word (a + 4)) 16 16).toNat
  let w := (bits (m.word (a + 8)) 0 16).toNat
  let h := (bits (m.word (a + 8)) 16 16).toNat
  let boxes := (bits w0 24 8).toNat
  match index 16 (bits w0 0 8).toNat, index 4 (bits w0 8 8).toNat, groupFieldOf (bits w0 16 8).toNat with
  | some id, some link, some group =>
    if 1 ≤ w ∧ 1 ≤ h ∧ x + w ≤ 3840 ∧ y + h ≤ 1152 ∧ boxes ≤ 4 then
      (allSome ((List.range boxes).map fun b => readBox m (a + 16 + 16 * b) w h)).map fun bs =>
        { id := id, link := link, x := x, y := y, width := w, height := h, fill := bits (m.word (a + 12)) 0 24,
          group := group, boxes := bs }
    else none
  | _, _, _ => none

/-- The zone definitions of a layout record, when every value of it is allowed (R56, R57 check 5): definitions beyond the
count are not read. -/
def readLayout (m : Memory) (a : Nat) : Option (List ZoneDef) :=
  let count := (bits (m.word a) 0 8).toNat
  if count ≤ 16 then allSome ((List.range count).map fun z => readZone m (a + 16 + 80 * z)) else none

/-! ## Sponsor definition records (12.7, R124) -/

/-- The size of a sponsor definition record in bytes (12.7). -/
def sponsorBytes : Nat := 168

/-- A value clamped into a range (00_scope section 5). -/
def clampNat (lo hi v : Nat) : Nat := max lo (min hi v)

/-- A repeat of 0 becomes 1, and one above 8 is clamped to 8 (R92, R124). -/
def clampRepeat (v : Nat) : Nat := clampNat 1 8 v

/-- The creative at an offset, clamped, when its values are allowed (R124 check 5). -/
def readCreative (m : Memory) (a : Nat) : Option Creative :=
  let base := (m.word a).toNat
  let pitch := (m.word (a + 4)).toNat
  let w := (bits (m.word (a + 8)) 0 16).toNat
  let h := (bits (m.word (a + 8)) 16 16).toNat
  let n := (bits (m.word (a + 12)) 0 16).toNat
  if 1 ≤ w ∧ w ≤ 3840 ∧ 1 ≤ h ∧ h ≤ 1152 ∧ 1 ≤ n ∧ n ≤ 4095 ∧ base % 4 = 0 ∧ pitch % 4 = 0 then
    some { base := base, pitch := pitch, width := w, height := h, count := n,
           rep := clampRepeat (bits (m.word (a + 12)) 16 8).toNat,
           dwell := clampNat 30 65535 (bits (m.word (a + 16)) 0 16).toNat }
  else none

/-- A sponsor definition as read, when its values are allowed after the clamps (R124 check 5). -/
def readSponsor (m : Memory) (a : Nat) : Option Entry :=
  let w1 := m.word (a + 4)
  let weight := min 1000 (bits w1 0 16).toNat
  let count := (bits w1 24 8).toNat
  if weight ≠ 0 ∧ 1 ≤ count ∧ count ≤ 8 then
    (allSome ((List.range count).map fun c => readCreative m (a + 8 + 20 * c))).map fun cs =>
      { active := false, sponsorId := m.word a, weight := weight, mask := bits w1 16 8, creatives := cs }
  else none

/-- The number of bytes from a frame base to the last byte of the last source frame (R92, R124). -/
def regionBytes (pitch width height count : Nat) : Nat := (count - 1) * pitch + width * height * 4

/-! ## Glyph cells (12.10, R85) -/

/-- The size of the font in bytes (12.10). -/
def fontBytes : Nat := 50176

/-- The offset of a character's cell. -/
def glyphOffset (font code : Nat) : Nat := font + 196 * code

/-- A cell's width, clamped into 4 to 32 (R85). -/
def glyphWidth (m : Memory) (font code : Nat) : Nat := clampNat 4 32 (bits (m.word (glyphOffset font code)) 0 8).toNat

/-- A cell's height, clamped into 6 to 48 (R85). -/
def glyphHeight (m : Memory) (font code : Nat) : Nat :=
  clampNat 6 48 (bits (m.word (glyphOffset font code)) 8 8).toNat

/-- The bit of a cell at a column and a row (12.10). -/
def glyphBit (m : Memory) (font code column row : Nat) : Bool :=
  (m.word (glyphOffset font code + 4 + 4 * row)).getLsbD column

/-- The characters of a text in show memory, one byte each. -/
def textCodes (m : Memory) (offset length : Nat) : List Nat :=
  (List.range length).map fun i => (m.get (offset + i)).toNat

end Sys2Proof.Machine
end

