-- ==== Sys2Proof/Machine/Triggers.lean ====
section
/-! DEFINITION. What the other blocks hand the event trigger unit: source events (R172) and the results of triggered
actions (R174), with the report each changes (R175). Arming and firing are in Machine/Etu.lean. -/

namespace Sys2Proof.Machine

/-- Change a trigger entry. -/
def onTrigger (e : Fin 8) (f : TriggerEntry → TriggerEntry) (s : State) : State :=
  s.onEtu fun u => { u with entries := upd u.entries e f }

/-- Write an entry's report into the anchor (R175). -/
def writeReport (e : Fin 8) (s : State) : State :=
  anchorWrite (0x180 + 32 * e.val) s.etu.entries[e].report.words s

/-- A source event matches an ARMED entry (R172). -/
def matchesEntry (ev : TriggerSource) (t : TriggerEntry) : Bool := t.armed && t.source == some ev

/-- What a matching event does to an entry: in RUNNING it sets pending and counts a fire, otherwise it is counted as
suppressed (R172). -/
def takeEvent (running : Bool) (t : TriggerEntry) : TriggerEntry :=
  if running then { t with pending := true, report := { t.report with fires := t.report.fires + 1 } }
  else { t with report := { t.report with suppressed := t.report.suppressed + 1 } }

/-- The ETU takes a source event: every entry it matches acts on it, and each changed report is written (R172, R175). -/
def takeSource (ev : TriggerSource) (s : State) : State :=
  inOrder ((List.finRange 8).filter fun e => matchesEntry ev s.etu.entries[e])
    (fun e t => writeReport e (onTrigger e (takeEvent (s.smp.dev == .running)) t)) s

/-- Hand a source event to the ETU: taken at once, or, when its own firing causes it, after the handling (R172, log 16).
At once holds also for an event that a member of a linked run causes, before the run's later members act: the model's
choice (DESIGN CHOICE, log 36), since R48 does not say whether the ETU takes it between two members or after the last. -/
def sourceEvent (ev : TriggerSource) (s : State) : State :=
  if s.etu.handling then s.onEtu fun u => { u with inbox := u.inbox ++ [ev] } else takeSource ev s

/-- The ETU sets an entry's last action status and credits, and writes its report (R174, R175). -/
def triggerResult (e : Fin 8) (status : Status) (shown lit : Nat) (s : State) : State :=
  writeReport e (onTrigger e (fun t =>
    { t with report := { t.report with lastStatus := status.code, lastShown := shown, lastLit := lit } }) s)

end Sys2Proof.Machine
end

