-- ==== Sys2Proof/Machine/Ccu.lean ====
section
/-! DEFINITION. The clock channel unit (chapter 10): channels, expiry and tallies, request sets, console lines, the horn,
the clock snapshot, and the CCU's cue kinds. -/

namespace Sys2Proof.Machine

/-- Change a clock channel. -/
def onChannel (c : Fin 4) (f : Channel → Channel) (s : State) : State :=
  s.onCcu fun u => { u with channels := upd u.channels c f }

/-- Change a console line. -/
def onLine (n : Fin 8) (f : ConsoleLine → ConsoleLine) (s : State) : State :=
  s.onCcu fun u => { u with lines := upd u.lines n f }

/-! ## Channels (R154) -/

/-- The ceiling of a channel (R154). -/
def Channel.ceiling (c : Channel) : Nat :=
  match c.mode with
  | .countDown => Config.ceilingDown
  | _ => c.limit

/-- Load a channel: its preset for COUNT_DOWN, 0 for COUNT_UP and TALLY (R154). -/
def Channel.load (c : Channel) : Channel :=
  match c.mode with
  | .countDown => { c with count := c.preset }
  | _ => { c with count := 0 }

/-- A pending preset, if present, becomes the preset (R156, R161). -/
def Channel.takePreset (c : Channel) : Channel :=
  { c with preset := c.pendingPreset.getD c.preset, pendingPreset := none }

/-- The count stands where counting makes the channel expire: 0 for COUNT_DOWN, the limit otherwise (R156). -/
def Channel.atEnd (c : Channel) : Bool :=
  match c.mode with
  | .countDown => c.count == 0
  | _ => decide (c.limit ≤ c.count)

/-- One count of a channel: down for COUNT_DOWN, up to the limit otherwise (R155, R157). -/
def Channel.step (c : Channel) : Channel :=
  match c.mode with
  | .countDown => { c with count := c.count - 1 }
  | _ => { c with count := min c.limit (c.count + 1) }

/-- What an expiry does to the channel itself (R156 steps 1, 4, 5): MANUAL becomes EXPIRED, AUTO reloads and stays
RUNNING. -/
def Channel.expire (c : Channel) : Channel :=
  let c := { c with expiries := c.expiries + 1 }
  if c.auto then c.takePreset.load else { c with state := .expired }

/-- The channels that a tally of them counts: TALLY channels whose source it is (R157). -/
def talliesOf (cs : Vector Channel 4) (c : Fin 4) : List (Fin 4) :=
  (List.finRange 4).filter fun t => cs[t].mode == .tally && cs[t].source == c

/-- The expiry of a channel (R156), up to handing it to the tallies: expiry count, CLOCK_EXPIRY, horn, the channel's own
state, and the channel expiry event to the ETU. While several channels expire at one boundary the longest horn length
stands (R167). -/
def expireChannel (c : Fin 4) (s : State) : State :=
  let ch := s.ccu.channels[c]
  let s := raise .clockExpiry (onChannel c Channel.expire s)
  let s := if ch.hornEnable then s.onCcu fun u => { u with horn := max u.horn ch.hornLength } else s
  sourceEvent (.channelExpiry c) s

/-- An expiry handed on to the tallies in the same boundary: a RUNNING tally counts it, and expires in turn at its limit
(R157). The fuel is the length of the longest chain of four channels. -/
def expireChain : Nat → Fin 4 → State → State
  | 0, c, s => expireChannel c s
  | k + 1, c, s =>
    inOrder (talliesOf s.ccu.channels c)
      (fun t u =>
        if u.ccu.channels[t].state = .running then
          let u := onChannel t Channel.step u
          if u.ccu.channels[t].atEnd then expireChain k t u else u
        else u) (expireChannel c s)

/-- Act with the horn pulse's remaining time set aside: an expiry starts or restarts the pulse at the longest horn length
of those that expire; when none does, the earlier remaining time goes on as `rest` gives (R167). -/
def withHorn (act : State → State) (rest : Nat → Nat) (s : State) : State :=
  let before := s.ccu.horn
  let s := act (s.onCcu fun u => { u with horn := 0 })
  if s.ccu.horn = 0 then s.onCcu fun u => { u with horn := rest before } else s

/-- A COUNT_DOWN or COUNT_UP channel acts for the millisecond that has ended (R155): a RUNNING channel counts and expires
at its end. A RUNNING COUNT_DOWN channel that already stands at 0 stays at 0, and whether it expires is free (log 7). -/
def countChannel (c : Fin 4) (s : State) : State :=
  let ch := s.ccu.channels[c]
  if ch.state = .running ∧ ch.mode ≠ .tally then
    if ch.mode = .countDown ∧ ch.count = 0 then
      let s' := s.nextFree
      if Config.runningAtZeroExpires s.free then expireChain 3 c s' else s'
    else
      let s := onChannel c Channel.step s
      if s.ccu.channels[c].atEnd then expireChain 3 c s else s
  else s

/-- Whether a channel would have nothing to count at this count (R160). -/
def Channel.emptyAt (c : Channel) (count : Nat) : Bool :=
  match c.mode with
  | .countDown => count == 0
  | _ => count == c.limit

/-- The emptiness test of R160 at a handover: on the loaded value when a RESET is gathered, on the present count
otherwise; an EXPIRED channel with no RESET gathered is always empty. It is made on a RUNNING channel too: that a START on
one whose count would be empty is refused with CHANNEL_EMPTY, although R160 also calls START on a RUNNING channel
accepted, is the model's choice (DESIGN CHOICE, log 38). -/
def Channel.startEmpty (c : Channel) : Bool :=
  if c.reqReset then c.emptyAt c.takePreset.load.count else c.state == .expired || c.emptyAt c.count

/-- Apply a gathered RESET (R161 step 1): it produces no expiry. -/
def Channel.applyReset (c : Channel) : Channel :=
  if c.reqReset then
    let d := c.takePreset.load
    { d with state := if c.state = .expired then .stopped else c.state }
  else c

/-- Apply a gathered STOP or START (R161 steps 2 and 3): STOP wins; START is dropped on an empty channel. -/
def Channel.applyRun (c : Channel) : Channel :=
  if c.reqStop then { c with state := if c.state = .running then .stopped else c.state }
  else if c.reqStart && !(c.state == .expired || c.emptyAt c.count) then { c with state := .running }
  else c

/-- Apply a channel's request set and empty it (R161). -/
def Channel.applyRequests (c : Channel) : Channel :=
  { c.applyReset.applyRun with reqStart := false, reqStop := false, reqReset := false }

/-! ## Console lines (R164 to R166) -/

/-- The level a raw level gives under a polarity: true for active (R164). -/
def activeLevel (activeLow raw : Bool) : Bool := raw != activeLow

/-- Gather a run request into a channel's request set (R160). -/
def Channel.gatherStart (c : Channel) : Channel := { c with reqStart := true }

/-- Gather STOP. -/
def Channel.gatherStop (c : Channel) : Channel := { c with reqStop := true }

/-- Gather RESET. -/
def Channel.gatherReset (c : Channel) : Channel := { c with reqReset := true }

/-- The effect of a qualified press on its channel or its horn hold (R166). -/
def pressLine (n : Fin 8) (s : State) : State :=
  let l := s.ccu.lines[n]
  match l.action with
  | .none => s
  | .start => onChannel l.channel Channel.gatherStart s
  | .stop => onChannel l.channel Channel.gatherStop s
  | .toggle =>
    if s.ccu.channels[l.channel].state = .running then onChannel l.channel Channel.gatherStop s
    else onChannel l.channel Channel.gatherStart s
  | .reset => onChannel l.channel Channel.gatherReset s
  | .horn => onLine n (fun l => { l with hornHold := true }) s
  | .triggerOnly => s

/-- A line whose held count has reached its qualify time is qualified (R165, R166): to active, it performs its action and
hands a console event unless the action is NONE; to inactive, it clears its horn hold. -/
def qualifyLine (n : Fin 8) (s : State) : State :=
  match s.ccu.lines[n].qualifying with
  | none => s
  | some (level, held) =>
    if s.ccu.lines[n].qualify ≤ held then
      let s := onLine n (fun l => { l with qualified := level, qualifying := none }) s
      if level then
        let s := pressLine n s
        if s.ccu.lines[n].action = .none then s else sourceEvent (.consoleLine n) s
      else onLine n (fun l => { l with hornHold := false }) s
    else s

/-- What a sample does to a line's qualifying (R165). -/
def ConsoleLine.sample (l : ConsoleLine) (level : Bool) : ConsoleLine :=
  if level = l.qualified then { l with qualifying := none }
  else
    match l.qualifying with
    | some (c, held) => { l with qualifying := some (level, if c = level then held + 1 else 1) }
    | none => { l with qualifying := some (level, 1) }

/-- Sample a line at a millisecond boundary (R165). -/
def sampleLine (n : Fin 8) (s : State) : State :=
  let raw := s.ccu.levels.getLsbD n.val
  qualifyLine n (onLine n (fun l => l.sample (activeLevel l.activeLow raw)) s)

/-! ## The millisecond boundary (R155, R161, R165, R167) -/

/-- A millisecond boundary: the channels act for the ended millisecond, with the horn pulse counting down or restarted;
each applies its request set; each console line is sampled. -/
def millisecond (s : State) : State :=
  let s := withHorn (inOrder (List.finRange 4) countChannel) (fun r => r - 1) s
  let s := s.onCcu fun u => { u with channels := u.channels.map Channel.applyRequests }
  inOrder (List.finRange 8) sampleLine s

/-- The CCU's handling of a frame start: the clock snapshot, while an anchor is in force (R163). -/
def writeClockSnapshot (s : State) : State := anchorWrite 0x140 (clockWords s.ccu.channels) s

/-! ## CLOCK_SET (R158, R159) -/

/-- The mode of a code (12.5). -/
def clockModeOf (code : Nat) : Option ClockMode :=
  match code with
  | 0 => some .countDown
  | 1 => some .countUp
  | 2 => some .tally
  | _ => none

/-- The reload option of a code, true for AUTO (12.5). -/
def reloadOf (code : Nat) : Option Bool :=
  match code with
  | 0 => some false
  | 1 => some true
  | _ => none

/-- The limit is allowed for the mode (R158 check 3). -/
def limitOk (mode : ClockMode) (limit : Nat) : Bool :=
  match mode with
  | .countDown => true
  | .countUp => decide (1 ≤ limit) && decide (limit ≤ Config.ceilingDown)
  | .tally => decide (1 ≤ limit) && decide (limit ≤ 9999)

/-- The channel that an accepted CLOCK_SET gives (R158): every given field, the pending preset absent, loaded, STOPPED;
the expiry count and the request set are kept. Unchecked fields are masked to their widths. -/
def Channel.configured (c : Channel) (mode : ClockMode) (auto : Bool) (p : ClockSetPayload) : Channel :=
  ({ c with
      mode := mode, auto := auto, preset := p.preset.toNat, pendingPreset := none,
      limit := (p.limit.setWidth 26).toNat, source := ⟨p.source.toNat % 4, Nat.mod_lt _ (by decide)⟩,
      hornEnable := p.horn != 0, hornLength := p.hornLength.toNat, state := .stopped } : Channel).load

/-- A CLOCK_SET changes nothing but the preset of a channel (R159). -/
def Channel.sameButPreset (c : Channel) (mode : ClockMode) (auto : Bool) (p : ClockSetPayload) : Bool :=
  c.mode == mode && c.auto == auto && c.hornEnable == (p.horn != 0) && c.hornLength == p.hornLength.toNat &&
    (mode == .countDown || c.limit == p.limit.toNat) && (mode != .tally || c.source.val == p.source.toNat)

/-- CLOCK_SET (R158, R159): the refusal, or the state after. -/
def setClock (p : ClockSetPayload) (s : State) : Status × State :=
  match index 4 p.channel.toNat, clockModeOf p.mode.toNat, reloadOf p.reload.toNat with
  | some c, some mode, some auto =>
    if Config.ceilingDown < p.preset.toNat then (.badValue, s)
    else if !limitOk mode p.limit.toNat then (.badValue, s)
    else if mode = .tally ∧ (4 ≤ p.source.toNat ∨ p.source.toNat = c.val) then (.badValue, s)
    else if p.hornLength.toNat < 100 ∨ 5000 < p.hornLength.toNat then (.badValue, s)
    else if mode = .countDown ∧ auto = true ∧ p.preset.toNat < 100 then (.badValue, s)
    else if s.ccu.channels[c].state = .running then
      if s.ccu.channels[c].sameButPreset mode auto p then
        (.ok, onChannel c (fun x => { x with pendingPreset := some p.preset.toNat }) s)
      else (.channelRunning, s)
    else (.ok, onChannel c (fun x => x.configured mode auto p) s)
  | _, _, _ => (.badValue, s)

/-! ## CLOCK_RUN (R160, R162) -/

/-- The count an ADJUST gives: the sum without overflow, clamped into 0 to the ceiling (R162). -/
def Channel.adjusted (c : Channel) (delta : Int) : Nat := min c.ceiling ((c.count : Int) + delta).toNat

/-- CLOCK_RUN START (R160): tested for emptiness, then gathered. -/
def runStart (c : Fin 4) (s : State) : Status × State :=
  if s.ccu.channels[c].startEmpty then (.channelEmpty, s) else (.ok, onChannel c Channel.gatherStart s)

/-- CLOCK_RUN ADJUST (R162). -/
def runAdjust (c : Fin 4) (delta : Int) (s : State) : Status × State :=
  if s.ccu.channels[c].state = .running then (.channelRunning, s)
  else (.ok, onChannel c (fun x => { x with count := x.adjusted delta, state := .stopped }) s)

/-- CLOCK_RUN of a channel and an action code: START 1, STOP 2, RESET 3, ADJUST 4 (R160, 12.5). -/
def runClock (channel action : BitVec 8) (delta : Word) (s : State) : Status × State :=
  match index 4 channel.toNat with
  | none => (.badValue, s)
  | some c =>
    match action.toNat with
    | 1 => runStart c s
    | 2 => (.ok, onChannel c Channel.gatherStop s)
    | 3 => (.ok, onChannel c Channel.gatherReset s)
    | 4 => runAdjust c delta.toInt s
    | _ => (.badValue, s)

/-! ## CONSOLE_SET (R164) -/

/-- The action of a code (12.5). -/
def lineActionOf (code : Nat) : Option LineAction :=
  match code with
  | 0 => some .none
  | 1 => some .start
  | 2 => some .stop
  | 3 => some .toggle
  | 4 => some .reset
  | 5 => some .horn
  | 6 => some .triggerOnly
  | _ => none

/-- The polarity of a code, true for ACTIVE_LOW (12.5). -/
def polarityOf (code : Nat) : Option Bool :=
  match code with
  | 0 => some false
  | 1 => some true
  | _ => none

/-- CONSOLE_SET (R164): the line's present raw level becomes its qualified level under the new polarity. -/
def setConsole (p : ConsolePayload) (s : State) : Status × State :=
  match index 8 p.line.toNat, polarityOf p.polarity.toNat, lineActionOf p.action.toNat, index 4 p.channel.toNat with
  | some n, some low, some act, some c =>
    (.ok, onLine n (fun _ =>
      { activeLow := low, qualify := clampNat 1 50 p.qualify.toNat, action := act, channel := c,
        qualified := activeLevel low (s.ccu.levels.getLsbD n.val), qualifying := none, hornHold := false }) s)
  | _, _, _, _ => (.badValue, s)

/-- Bring the raw levels on the console line pins up to the present (R164, R165). -/
def setLevels (levels : BitVec 8) (s : State) : State := s.onCcu fun u => { u with levels := levels }

/-! ## Rows -/

/-- Row MILLISECOND_BOUNDARY (R155): the raw levels of the eight lines are what the boundary samples. -/
def execMillisecondBoundary (levels : BitVec 8) (s : State) : Host.Outcome State Fault Refusal :=
  .next (millisecond (setLevels levels s))

/-- The channel whose next count begins the expiry of a channel, when that expiry is due (R156, R157): the channel is
RUNNING and its next count brings it to its end. A COUNT_DOWN or COUNT_UP channel begins its own expiry, but for a
COUNT_DOWN channel that already stands at 0, which has no such count; a tally's count is an expiry of its source, which
must be due in turn, and begins where that one begins. The fuel is the length of the longest chain of four channels. -/
def expiryBeginner : Nat → Vector Channel 4 → Fin 4 → Option (Fin 4)
  | 0, _, _ => none
  | k + 1, cs, c =>
    if cs[c].state = .running ∧ cs[c].step.atEnd = true then
      match cs[c].mode with
      | .countDown => if cs[c].count = 0 then none else some c
      | .countUp => some c
      | .tally => expiryBeginner k cs cs[c].source
    else none

/-- Row CHANNEL_EXPIRY (R156, R157): the expiry of a channel, with the count that begins it. The millisecond boundary
brings it about within its own handling; as a command it makes the last count of the COUNT_DOWN or COUNT_UP channel that
begins the expiry, which is handed on to its tallies, and acts on no other channel (log 9). -/
def execChannelExpiry (c : Fin 4) (s : State) : Host.Outcome State Fault Refusal :=
  .next (match expiryBeginner 4 s.ccu.channels c with
    | some b => withHorn (fun t => expireChain 3 b (onChannel b Channel.step t)) id s
    | none => s)

/-- Row CONSOLE_QUALIFIED (R166): the event of a line whose held count has reached its qualify time. A sample brings it
about within the millisecond boundary; as a command it acts where that condition stands. -/
def execConsoleQualified (n : Fin 8) (s : State) : Host.Outcome State Fault Refusal := .next (qualifyLine n s)

/-- Row HORN_PULSE_END (R167): a pulse in its last millisecond comes to 0 and ends. -/
def execHornPulseEnd (s : State) : Host.Outcome State Fault Refusal :=
  .next (if s.ccu.horn = 1 then s.onCcu fun u => { u with horn := 0 } else s)

/-- Row CLOCK_SNAPSHOT (R163): the CCU handles the frame start delivered to it. -/
def execClockSnapshot (s : State) : Host.Outcome State Fault Refusal :=
  .next (if s.ccu.frameDue then writeClockSnapshot (s.onCcu fun u => { u with frameDue := false }) else s)

end Sys2Proof.Machine
end

