-- ==== Sys2Proof/Machine/Zar.lean ====
section
/-! DEFINITION. The zone arbiter's own operations (chapter 4): claim lists, layouts, the zone table and the view. What it
reports to the claimants' owners is in Machine/Claims.lean. -/

namespace Sys2Proof.Machine

/-! ## Claim lists (4.7) -/

/-- A group's claimant (4.7). -/
def Claimant.isGroup : Claimant → Bool
  | .group _ => true
  | _ => false

/-- The level of a group claim (R65). -/
def groupLevel : Nat := 6

/-- The head level of a zone whose list is empty (R55). -/
def emptyLevel : Nat := 7

/-- The head of a claim list: its first claim. -/
def headOf (cs : List Claim) : Option Claimant := cs.head?.map Claim.who

/-- The head level of a claim list (R55, R74). -/
def headLevel (cs : List Claim) : Nat := (cs.head?.map Claim.level).getD emptyLevel

/-- The non-group claims of a list. -/
def nonGroup (cs : List Claim) : List Claim := cs.filter fun c => !c.who.isGroup

/-- Whether a claimant holds a claim in a list. -/
def holdsIn (who : Claimant) (cs : List Claim) : Bool := cs.any fun c => c.who == who

/-- Insert a claim after every claim of equal or lower level number and before every claim of higher level number (R66). -/
def insertClaim (c : Claim) (cs : List Claim) : List Claim :=
  cs.takeWhile (fun d => d.level ≤ c.level) ++ c :: cs.dropWhile (fun d => d.level ≤ c.level)

/-- Remove a claimant's claim: the claims behind it move up (R71). -/
def removeClaim (who : Claimant) (cs : List Claim) : List Claim := cs.filter fun c => c.who != who

/-- A zone is full when its list holds five non-group claims (R68). -/
def fullList (cs : List Claim) : Bool := decide (5 ≤ (nonGroup cs).length)

/-- The claim a safety claim evicts from a full list: the last non-group claim, unless it is itself at level 0 (R69). -/
def evictable (cs : List Claim) : Option Claim :=
  match (nonGroup cs).getLast? with
  | some c => if c.level = 0 then none else some c
  | none => none

/-- The form every claim list has (R64, R65): at most five non-group claims and one group claim, in non-decreasing order
of level, no claimant twice, a group claim at level 6 and a non-group claim at 0 to 5, level 0 for a message alone. -/
abbrev claimsWf (cs : List Claim) : Prop :=
  (nonGroup cs).length ≤ 5 ∧ (cs.filter fun c => c.who.isGroup).length ≤ 1 ∧
  cs.Pairwise (fun c d => c.level ≤ d.level) ∧ (cs.map Claim.who).Nodup ∧
  ∀ c ∈ cs, (c.who.isGroup = true → c.level = groupLevel) ∧ (c.who.isGroup = false → c.level ≤ 5) ∧
    ∀ k, c.who = .clip k → 1 ≤ c.level

/-! ## The zone table (R54, R60, R70, R71) -/

/-- The zone ids of a mask, in increasing order. -/
def zonesOf (m : ZoneMask) : List (Fin 16) := (List.finRange 16).filter fun z => m.getLsbD z.val

/-- The bit of a zone id in a mask. -/
def zoneBit (z : Fin 16) : ZoneMask := 1#16 <<< z.val

/-- The mask of the zone ids with a property. -/
def maskOf (p : Fin 16 → Bool) : ZoneMask :=
  (List.finRange 16).foldl (fun m z => if p z then m ||| zoneBit z else m) 0

/-- The claims of a zone: none when it is absent. -/
def claimsAt (z : Zar) (i : Fin 16) : List Claim := (z.table[i].map ZoneEntry.claims).getD []

/-- Change the claim list of a zone that is present. -/
def Zar.onClaims (z : Zar) (i : Fin 16) (f : List Claim → List Claim) : Zar :=
  { z with table := upd z.table i fun e => e.map fun x => { x with claims := f x.claims } }

/-- Change the claim list of every zone that is present. -/
def Zar.onAllClaims (z : Zar) (f : List Claim → List Claim) : Zar :=
  { z with table := z.table.map fun e => e.map fun x => { x with claims := f x.claims } }

/-- Whether a claimant holds a claim in any zone. -/
def holdsAny (z : Zar) (who : Claimant) : Bool := (List.finRange 16).any fun i => holdsIn who (claimsAt z i)

/-- Whether a zone of the table names a group. -/
def namesGroup (e : Option ZoneEntry) (g : Fin 8) : Bool :=
  match e with
  | some x => x.defn.group == some g
  | none => false

/-- The zone set of a group: the zones of the active layout that name it (R60). -/
def zoneSetOf (table : Vector (Option ZoneEntry) 16) (g : Fin 8) : ZoneMask := maskOf fun z => namesGroup table[z] g

/-- Release: a claimant gives up its claims in every zone (R71). -/
def releaseClaims (who : Claimant) (s : State) : State := s.onZar fun z => z.onAllClaims (removeClaim who)

/-- Remove every claim of every zone (R75). -/
def removeAllClaims (s : State) : State := s.onZar fun z => z.onAllClaims fun _ => []

/-- Insert a group's claim at level 6 in a list that does not hold it (R72): it stands last. -/
def insertGroup (g : Fin 8) (cs : List Claim) : List Claim :=
  if holdsIn (.group g) cs then cs else insertClaim ⟨.group g, groupLevel⟩ cs

/-- Insert a group's claims in every zone of a zone set (R72): nothing while the device does not run (R75). -/
def insertGroupClaims (g : Fin 8) (zones : ZoneMask) (s : State) : State :=
  if s.smp.dev.live then
    s.onZar fun z => (zonesOf zones).foldl (fun y i => y.onClaims i (insertGroup g)) z
  else s

/-! ## Layout checks (R57, R61) -/

/-- Two rectangles on one link have a pixel in common (R57). -/
def overlap (a b : ZoneDef) : Bool :=
  a.link == b.link && decide (a.x < b.x + b.width) && decide (b.x < a.x + a.width) &&
    decide (a.y < b.y + b.height) && decide (b.y < a.y + a.height)

/-- Some two members of a list, at different places, are related. -/
def anyPair (r : ZoneDef → ZoneDef → Bool) : List ZoneDef → Bool
  | [] => false
  | z :: zs => zs.any (r z) || anyPair r zs

/-- A zone of one list and a zone of another are related. -/
def anyAcross (r : ZoneDef → ZoneDef → Bool) (xs ys : List ZoneDef) : Bool := xs.any fun x => ys.any (r x)

/-- Two definitions carry the same zone id. -/
def sameId (a b : ZoneDef) : Bool := a.id == b.id

/-- Checks 6 and 7 of R57 against a bank 0: no zone id used twice, no overlap on one link. -/
def layoutConflict (bank0 zones : List ZoneDef) : Option Status :=
  if anyPair sameId zones || anyAcross sameId zones bank0 then some .zoneConflict
  else if anyPair overlap zones || anyAcross overlap zones bank0 then some .zoneOverlap
  else none

/-- The checks of a LOAD_LAYOUT in the order of R57: the bank and the zones to be loaded, or the refusal. -/
def loadLayoutCheck (s : State) (bank : BitVec 8) (offset : Word) : Except Status (Fin 4 × List ZoneDef) :=
  match index 4 bank.toNat with
  | none => .error .badValue
  | some b =>
    if b = 0 then .error .badValue
    else if b = s.zar.selector then .error .bankInUse
    else if offset.toNat % 4 ≠ 0 then .error .badValue
    else if !insideMemory offset.toNat layoutBytes then .error .badRegion
    else
      match readLayout s.mem offset.toNat with
      | none => .error .badValue
      | some zones =>
        match layoutConflict s.zar.banks[(0 : Fin 4)] zones with
        | some st => .error st
        | none => .ok (b, zones)

/-- The checks of a SELECT_LAYOUT in the order of R61: the bank, or the refusal. -/
def selectLayoutCheck (s : State) (bank : BitVec 8) : Except Status (Fin 4) :=
  match index 4 bank.toNat with
  | none => .error .badValue
  | some b =>
    if b = 0 then .ok b
    else if anyAcross sameId s.zar.banks[b] s.zar.banks[(0 : Fin 4)] then .error .zoneConflict
    else if anyAcross overlap s.zar.banks[b] s.zar.banks[(0 : Fin 4)] then .error .zoneOverlap
    else .ok b

/-! ## Loading and switching (R58, R59, R62) -/

/-- Replace a bank whole (R58). -/
def setBank (b : Fin 4) (zones : List ZoneDef) (s : State) : State :=
  s.onZar fun z => { z with banks := upd z.banks b fun _ => zones }

/-- The definition a bank gives a zone id. -/
def bankZone (zones : List ZoneDef) (i : Fin 16) : Option ZoneDef := zones.find? fun d => d.id == i

/-- The zone table of a successful start: bank 0's zones, each with an empty claim list (R59). -/
def startTable (zones : List ZoneDef) : Vector (Option ZoneEntry) 16 :=
  Vector.ofFn fun i => (bankZone zones i).map fun d => { bank := 0, defn := d, claims := [] }

/-- The claims a zone that enters the active layout starts with (R62). -/
def enteringClaims (s : State) (d : ZoneDef) : List Claim :=
  match d.group with
  | some g => if s.sru.groups[g].enabled then [⟨.group g, groupLevel⟩] else []
  | none => []

/-- A zone of the table after a switch to bank b (R62, R63): a zone of bank 0 stays as it is; every other leaves, and the
zones of bank b enter. -/
def switchedZone (s : State) (b : Fin 4) (i : Fin 16) : Option ZoneEntry :=
  let entering : Option ZoneEntry :=
    if b = 0 then none
    else (bankZone s.zar.banks[b] i).map fun d => { bank := b, defn := d, claims := enteringClaims s d }
  match s.zar.table[i] with
  | some e => if e.bank = 0 then some e else entering
  | none => entering

/-- The zones a claimant loses by a switch: those that leave and in which it holds a claim (R62). -/
def lostZones (s : State) (who : Claimant) : ZoneMask :=
  maskOf fun i =>
    match s.zar.table[i] with
    | some e => decide (e.bank ≠ 0) && holdsIn who e.claims
    | none => false

/-- Change the zone table and the selector (R62). -/
def switchTable (b : Fin 4) (s : State) : State :=
  s.onZar fun z => { z with table := Vector.ofFn fun i => switchedZone s b i, selector := b }

/-! ## The view (R74) -/

/-- The view: one entry for each zone of the active layout, in increasing order of zone id. -/
def viewOf (z : Zar) : List ViewEntry :=
  z.table.toList.filterMap fun e => e.map fun x => ⟨x.defn, headOf x.claims, headLevel x.claims⟩

/-! ## The shown report (R80) -/

/-- One entry of a shown report (R80): the zone, the head of the view, the lit flag, and what was drawn. -/
structure ReportEntry where
  zone : Fin 16
  head : Option Claimant
  lit : Bool
  drawn : Answer
deriving DecidableEq, Repr

end Sys2Proof.Machine
end

