-- ==== Sys2Proof/Machine/Cle.lean ====
section
/-! DEFINITION. The clip slots of the clip engine (chapter 6): content requests, crediting, ending and completion. Taking
a PLAY_CLIP, which asks for claims, is in Machine/Take.lean. -/

namespace Sys2Proof.Machine

/-- Change a clip slot. -/
def onClip (k : Fin 8) (f : ClipSlot → ClipSlot) (s : State) : State :=
  s.onCle fun c => { c with slots := upd c.slots k f }

/-- A clip slot is PLAYING or HELD: its work has not ended. -/
def ClipSlot.working (c : ClipSlot) : Bool := c.state == .playing || c.state == .held

/-- The result fields a clip's completion writes (R101 step 1). -/
def ClipSlot.result (c : ClipSlot) : CueResult :=
  { status := c.status.getD .completed, late := c.late, preempted := c.preempted, refused := c.refused,
    takeFrame := c.takeFrame, firstShown := c.firstShown.getD 0, endFrame := c.endFrame,
    framesShown := c.framesShown, litFrames := c.litFrames }

/-- A clip slot completes (R101): its record or its trigger entry gets the result, the ETU a clip end event, and the slot
becomes IDLE. -/
def completeClip (k : Fin 8) (s : State) : State :=
  let c := s.cle.slots[k]
  let s :=
    match c.origin with
    | .cue i => completeCue c.epoch i c.result s
    | .trigger e => triggerResult e c.result.status c.framesShown c.litFrames s
  onClip k (fun _ => ClipSlot.cleared) (sourceEvent (.clipEnd c.tag) s)

/-- An event ends the work of a PLAYING or HELD clip slot (R101): it holds no claim, its holdings are empty, its status
and end frame are set, and it completes at once or waits in ENDING for its outstanding report. -/
def endClip (status : Status) (k : Fin 8) (s : State) : State :=
  if s.cle.slots[k].working then
    let s := releaseClaims (.clip k) s
    let s := onClip k (fun c =>
      { c with state := .ending, status := some status, endFrame := s.ftu.frame, holdings := 0 }) s
    if s.cle.slots[k].outstanding = none then completeClip k s else s
  else s

/-- The clip slot of a tag: PLAYING or HELD (R93, R102). -/
def clipWithTag (c : Cle) (t : Tag) : Option (Fin 8) :=
  (List.finRange 8).find? fun k => c.slots[k].working && c.slots[k].tag == t

/-- The lowest-numbered IDLE clip slot, less those that a run keeps from later members (R93, R94). -/
def idleClip (c : Cle) (kept : List (Fin 8)) : Option (Fin 8) :=
  (List.finRange 8).find? fun k => c.slots[k].state == .idle && !kept.contains k

/-- The zone arbiter reports a pre-emption of a claim of the slot (R67, R99). -/
def preemptClip (k : Fin 8) (s : State) : State :=
  if s.cle.slots[k].working then onClip k (fun c => { c with preempted := true }) s else s

/-- The zone arbiter reports that the slot has lost zones (R103): it goes on in the zones that remain, or its work ends
with the status given when it holds no claim any more. -/
def loseClip (status : Status) (k : Fin 8) (lost : ZoneMask) (s : State) : State :=
  if s.cle.slots[k].working then
    let s := onClip k (fun c => { c with holdings := c.holdings &&& ~~~lost }) s
    if holdsAny s.zar (.clip k) then s else endClip status k s
  else s

/-! ## Exhaustion (R96 to R98) -/

/-- The cursor after an answer with content (R96 steps 1 to 3); passes count modulo 256. -/
def ClipSlot.advance (c : ClipSlot) : ClipSlot :=
  if c.repPhase + 1 = c.rep then
    if c.source + 1 = c.count then { c with repPhase := 0, source := 0, passes := (c.passes + 1) % 256 }
    else { c with repPhase := 0, source := c.source + 1 }
  else { c with repPhase := c.repPhase + 1 }

/-- A clip is exhausted: it is PLAYING, not endless, and its passes done equal its loop count (R96 step 4). -/
def ClipSlot.exhausted (c : ClipSlot) : Bool := c.state == .playing && c.loops != 0 && c.passes == c.loops

/-- An exhausted clip ends COMPLETED (RELEASE, R97) or becomes HELD (HOLD_LAST, R98). -/
def exhaustClip (k : Fin 8) (s : State) : State :=
  if s.cle.slots[k].exhausted then
    if s.cle.slots[k].holdLast then onClip k (fun c => { c with state := .held }) s else endClip .completed k s
  else s

/-! ## Content requests and shown reports (R95, R100) -/

/-- The source frame a slot answers with: the cursor's when PLAYING, the last when HELD (R95, R96). -/
def ClipSlot.frameIndex (c : ClipSlot) : Nat := if c.state = .held then c.count - 1 else c.source

/-- A content request for frame f, naming these zones, reaches the slot (R95, R96). -/
def clipRequest (k : Fin 8) (f : Frame) (zones : ZoneMask) (s : State) : Answer × State :=
  let c := s.cle.slots[k]
  if c.working && (c.holdings &&& zones) != 0 then
    let s := onClip k (fun c => { c with outstanding := some f }) s
    (.clip (c.base + c.frameIndex * c.pitch) c.width c.height c.frameIndex,
     if c.state = .playing then exhaustClip k (onClip k ClipSlot.advance s) else s)
  else (.nothing, s)

/-- A report entry credits a clip slot: it names the slot as head and a source frame was drawn (R100). -/
def creditsClip (k : Fin 8) (e : ReportEntry) : Bool :=
  e.head == some (.clip k) &&
    match e.drawn with
    | .clip .. => true
    | _ => false

/-- The shown report for frame f reaches the slot (R100). -/
def clipReport (k : Fin 8) (f : Frame) (report : List ReportEntry) (s : State) : State :=
  let c := s.cle.slots[k]
  if c.state ≠ .idle ∧ c.outstanding = some f then
    let mine := report.filter (creditsClip k)
    let s := onClip k (fun c =>
      if mine.isEmpty then { c with outstanding := none }
      else { c with outstanding := none, framesShown := saturate (c.framesShown + 1),
                    litFrames := saturate (c.litFrames + (mine.filter ReportEntry.lit).length),
                    firstShown := some (c.firstShown.getD f) }) s
    if c.state = .ending then completeClip k s else s
  else s

/-! ## Fallback, halt and reset (R104, R105, R107) -/

/-- The clip slots whose work has not ended. -/
def workingClips (c : Cle) : List (Fin 8) := (List.finRange 8).filter fun k => c.slots[k].working

/-- Entry to FALLBACK ends every PLAYING or HELD clip ABANDONED (R104). -/
def cleFallback (s : State) : State :=
  let s := s.onCle fun c => { c with gate := .fallback }
  inFreeOrder (workingClips s.cle) (endClip .abandoned) s

/-- A halt ends every PLAYING or HELD clip HALTED (R105). -/
def cleHalt (s : State) : State :=
  let s := s.onCle fun c => { c with gate := .halted }
  inFreeOrder (workingClips s.cle) (endClip .halted) s

/-- A reset sets every clip slot to IDLE with all its fields cleared, and makes no completion (R107). -/
def cleReset (s : State) : State := s.onCle fun c => { c with slots := Vector.replicate 8 ClipSlot.cleared }

/-- Row CLIP_EXHAUSTED (R96 to R98): the event of a PLAYING slot whose passes done have reached its loop count. A content
request brings it about within its own handling; as a command it acts where that condition stands. -/
def execClipExhausted (k : Fin 8) (s : State) : Host.Outcome State Fault Refusal := .next (exhaustClip k s)

end Sys2Proof.Machine
end

