-- ==== Sys2Proof/Machine/Msu.lean ====
section
/-! DEFINITION. The message slots of the message unit (chapter 7): the count of a frame, content requests, crediting,
ending and completion. Taking a POST_MESSAGE, which asks for claims, is in Machine/Take.lean. -/

namespace Sys2Proof.Machine

/-- Change a message slot. -/
def onMessage (k : Fin 8) (f : MessageSlot → MessageSlot) (s : State) : State :=
  s.onMsu fun m => { m with slots := upd m.slots k f }

/-- A message slot is SHOWING: its work has not ended. -/
def MessageSlot.working (m : MessageSlot) : Bool := m.state == .showing

/-- The status written for an ending status: COMPLETED with frames shown 0 is EXPIRED_UNSHOWN (R119). -/
def writtenStatus (status : Status) (framesShown : Nat) : Status :=
  if status = .completed ∧ framesShown = 0 then .expiredUnshown else status

/-- The result fields a message's completion writes, with the ending status and end frame given (R111, R119). -/
def MessageSlot.result (m : MessageSlot) (status : Status) (endFrame : Frame) : CueResult :=
  { status := writtenStatus status m.framesShown, late := m.late, preempted := m.preempted, refused := m.refused,
    takeFrame := m.takeFrame, firstShown := m.firstShown.getD 0, endFrame := endFrame, framesShown := m.framesShown,
    litFrames := m.litFrames }

/-- Steps 1 and 2 of a completion (R119): the origin, record or trigger entry, gets the result. -/
def completeOrigin (m : MessageSlot) (status : Status) (endFrame : Frame) (s : State) : State :=
  match m.origin with
  | .cue i => completeCue m.epoch i (m.result status endFrame) s
  | .trigger e => triggerResult e (m.result status endFrame).status m.framesShown m.litFrames s

/-- A message slot completes (R119): result, message end event, IDLE. -/
def completeMessage (k : Fin 8) (s : State) : State :=
  let m := s.msu.slots[k]
  let s := completeOrigin m (m.status.getD .completed) m.endFrame s
  onMessage k (fun _ => MessageSlot.cleared) (sourceEvent (.messageEnd m.tag) s)

/-- An event ends the work of a SHOWING slot (R119), with the status and end frame given. -/
def endMessageAt (status : Status) (endFrame : Frame) (k : Fin 8) (s : State) : State :=
  if s.msu.slots[k].working then
    let s := releaseClaims (.message k) s
    let s := onMessage k (fun m =>
      { m with state := .ending, status := some status, endFrame := endFrame, holdings := 0 }) s
    if s.msu.slots[k].outstanding = none then completeMessage k s else s
  else s

/-- An event other than the end of the duration: the end frame is the frame in progress (R119). -/
def endMessage (status : Status) (k : Fin 8) (s : State) : State := endMessageAt status s.ftu.frame k s

/-- The SHOWING slot of a tag (R110, R120). -/
def messageWithTag (m : Msu) (t : Tag) : Option (Fin 8) :=
  (List.finRange 8).find? fun k => m.slots[k].working && m.slots[k].tag == t

/-- The lowest-numbered IDLE message slot, less those that a run keeps from later members (R110, R112). -/
def idleMessage (m : Msu) (kept : List (Fin 8)) : Option (Fin 8) :=
  (List.finRange 8).find? fun k => m.slots[k].state == .idle && !kept.contains k

/-- The zone arbiter reports a pre-emption of a claim of the slot (R67, R118). -/
def preemptMessage (k : Fin 8) (s : State) : State :=
  if s.msu.slots[k].working then onMessage k (fun m => { m with preempted := true }) s else s

/-- The zone arbiter reports that the slot has lost zones (R120). -/
def loseMessage (status : Status) (k : Fin 8) (lost : ZoneMask) (s : State) : State :=
  if s.msu.slots[k].working then
    let s := onMessage k (fun m => { m with holdings := m.holdings &&& ~~~lost }) s
    if holdsAny s.zar (.message k) then s else endMessage status k s
  else s

/-! ## The count of a frame (R113 to R116) -/

/-- The blink advances (R115): a message with either count 0 is steady. -/
def MessageSlot.blink (m : MessageSlot) : MessageSlot :=
  if m.blinkOn = 0 ∨ m.blinkOff = 0 then m
  else if m.phaseLeft - 1 = 0 then
    match m.phase with
    | .on => { m with phase := .off, phaseLeft := m.blinkOff }
    | .off => { m with phase := .on, phaseLeft := m.blinkOn }
  else { m with phaseLeft := m.phaseLeft - 1 }

/-- The crawl position advances, and returns to 0 when its whole-pixel part reaches the crawl span (R116). -/
def MessageSlot.crawlOn (m : MessageSlot) : MessageSlot :=
  if m.crawl then
    if m.crawlSpan ≤ (m.crawlPos + m.crawlSpeed) / 16 then { m with crawlPos := 0 }
    else { m with crawlPos := m.crawlPos + m.crawlSpeed }
  else m

/-- The duration runs out at a count that finds at most one frame of life left (R113 step 1). -/
def MessageSlot.runsOut (m : MessageSlot) : Bool :=
  match m.duration with
  | none => false
  | some d => decide (d ≤ 1)

/-- The duration remaining has reached 0 at the count for frame f (R114): the message ends COMPLETED with the frame before
f, its last frame of life, as end frame. -/
def runOut (k : Fin 8) (f : Frame) (s : State) : State :=
  endMessageAt .completed (f - 1) k (onMessage k (fun m => { m with duration := some 0 }) s)

/-- The slot makes its count for frame f (R113): duration, blink, crawl. -/
def countMessage (f : Frame) (k : Fin 8) (s : State) : State :=
  if s.msu.slots[k].working && s.msu.slots[k].counted != f then
    let s := onMessage k (fun m => { m with counted := f }) s
    if s.msu.slots[k].runsOut then runOut k f s
    else
      onMessage k (fun m => ({ m with duration := m.duration.map (· - 1) } : MessageSlot).blink.crawlOn) s
  else s

/-- The slots whose count for frame f is due. -/
def dueMessages (m : Msu) (f : Frame) : List (Fin 8) :=
  (List.finRange 8).filter fun k => m.slots[k].working && m.slots[k].counted != f

/-- The MSU's handling of the frame start that begins frame f (R113). -/
def msuFrameStart (f : Frame) (s : State) : State := inFreeOrder (dueMessages s.msu f) (countMessage f) s

/-! ## Content requests and shown reports (R117, R118) -/

/-- What a SHOWING slot answers with (R117). -/
def MessageSlot.answer (m : MessageSlot) : Answer :=
  .message
    { textOffset := m.textOffset, textLength := m.textLength, foreground := m.foreground, background := m.background,
      phase := m.phase, crawl := if m.crawl then some (m.crawlPos / 16) else none, textWidth := m.textWidth,
      textHeight := m.textHeight }

/-- A content request for frame f, naming these zones, reaches the slot (R117). -/
def messageRequest (k : Fin 8) (f : Frame) (zones : ZoneMask) (s : State) : Answer × State :=
  let s := countMessage f k s
  let m := s.msu.slots[k]
  if m.working && (m.holdings &&& zones) != 0 then
    (m.answer, onMessage k (fun m => { m with outstanding := some f }) s)
  else (.nothing, s)

/-- A report entry credits a message slot: it names the slot as head and a phase was drawn (R118). -/
def creditsMessage (k : Fin 8) (e : ReportEntry) : Bool :=
  e.head == some (.message k) &&
    match e.drawn with
    | .message _ => true
    | _ => false

/-- The shown report for frame f reaches the slot (R118). -/
def messageReport (k : Fin 8) (f : Frame) (report : List ReportEntry) (s : State) : State :=
  let m := s.msu.slots[k]
  if m.state ≠ .idle ∧ m.outstanding = some f then
    let mine := report.filter (creditsMessage k)
    let s := onMessage k (fun m =>
      if mine.isEmpty then { m with outstanding := none }
      else { m with outstanding := none, framesShown := saturate (m.framesShown + 1),
                    litFrames := saturate (m.litFrames + (mine.filter ReportEntry.lit).length),
                    firstShown := some (m.firstShown.getD f) }) s
    if m.state = .ending then completeMessage k s else s
  else s

/-! ## Text extent (R116) -/

/-- The text width: the sum of the clamped widths of the characters' cells (R116). -/
def extentWidth (mem : Memory) (font : Nat) (codes : List Nat) : Nat := (codes.map (glyphWidth mem font)).sum

/-- The text height: the greatest clamped height among the characters' cells (R116). -/
def extentHeight (mem : Memory) (font : Nat) (codes : List Nat) : Nat :=
  (codes.map (glyphHeight mem font)).foldl max 0

/-- The width of the widest zone of a set (R116). -/
def widestZone (z : Zar) (zones : ZoneMask) : Nat :=
  ((zonesOf zones).map fun i => (z.table[i].map fun e => e.defn.width).getD 0).foldl max 0

/-! ## Halt and reset (R121, R122) -/

/-- The message slots whose work has not ended. -/
def workingMessages (m : Msu) : List (Fin 8) := (List.finRange 8).filter fun k => m.slots[k].working

/-- A halt ends every SHOWING message HALTED (R121). -/
def msuHalt (s : State) : State :=
  let s := s.onMsu fun m => { m with afterHalt := true }
  inFreeOrder (workingMessages s.msu) (endMessage .halted) s

/-- A reset sets every message slot to IDLE with all its fields cleared, and makes no completion (R122). -/
def msuReset (s : State) : State := s.onMsu fun m => { m with slots := Vector.replicate 8 MessageSlot.cleared }

/-! ## Rows -/

/-- Row MSU_FRAME_START (R113): the MSU handles the frame start delivered to it. -/
def execMsuFrameStart (s : State) : Host.Outcome State Fault Refusal :=
  .next (if s.msu.frameDue then msuFrameStart s.ftu.frame (s.onMsu fun m => { m with frameDue := false }) else s)

/-- Row DURATION_RUN_OUT (R114): the count for the frame in progress of a slot whose duration runs out at it. -/
def execDurationRunOut (k : Fin 8) (s : State) : Host.Outcome State Fault Refusal :=
  .next (if s.msu.slots[k].runsOut then countMessage s.ftu.frame k s else s)

/-- Row BLINK_PHASE_CHANGE (R115): the count for the frame in progress of a slot whose phase changes at it. -/
def execBlinkPhaseChange (k : Fin 8) (s : State) : Host.Outcome State Fault Refusal :=
  let m := s.msu.slots[k]
  .next (if !m.runsOut && m.blink.phase != m.phase then countMessage s.ftu.frame k s else s)

end Sys2Proof.Machine
end

