-- ==== Sys2Proof/Machine/Plw.lean ====
section
/-! DEFINITION. The play log writer (chapter 9): the log, the hold queue, dropping, the bad read index. -/

namespace Sys2Proof.Machine

/-- Change the account of a group and an entry (R130). -/
def onAccount (g : Fin 8) (i : Fin 64) (f : Account → Account) (s : State) : State :=
  s.onSru fun r => { r with accounts := upd r.accounts g fun a => upd a i f }

/-- Add zone-frames to L of an account (R145). -/
def addLogged (g : Fin 8) (i : Fin 64) (n : Nat) (s : State) : State :=
  onAccount g i (fun a => { a with logged := a.logged + BitVec.ofNat 64 n }) s

/-- Add zone-frames to U of an account (R143, R147, R152). -/
def addUnlogged (g : Fin 8) (i : Fin 64) (n : Nat) (s : State) : State :=
  onAccount g i (fun a => { a with unlogged := a.unlogged + BitVec.ofNat 64 n }) s

/-- The flag byte of a play record: CUT bit 24, PRE_CLEAR bit 25, FALLBACK bit 26 of its second word (12.9). -/
def PlayRecord.flags (r : PlayRecord) : Byte :=
  (if r.cut then 1 else 0) ||| (if r.preClear then 2 else 0) ||| (if r.fallback then 4 else 0)

/-- The eight words of a play record (12.9). -/
def PlayRecord.words (r : PlayRecord) : List Word :=
  [r.sponsorId,
   r.flags ++ BitVec.ofNat 8 r.creative ++ BitVec.ofNat 8 r.group.val ++ BitVec.ofNat 8 r.entry.val,
   r.start,
   BitVec.ofNat 16 r.answered ++ BitVec.ofNat 16 r.planned,
   BitVec.ofNat 32 r.zoneFrames,
   BitVec.ofNat 32 (r.preemptedFrames % 65536), 0, 0]

/-- Read and test the log read index (R149): a value of N or greater raises LOG_INDEX_BAD once and becomes the reported
bad index; a value below N sets it to none. -/
def testReadIndex (s : State) : State :=
  let v := (anchorWord s 0x20).toNat
  if s.plw.logLength ≤ v then
    if s.plw.badIndex = some v then s else raise .logIndexBad (s.onPlw fun p => { p with badIndex := some v })
  else s.onPlw fun p => { p with badIndex := none }

/-- The log has room (R145, R149): the read index is below N, and the write index plus 1 modulo N differs from it. -/
def logRoom (s : State) : Bool :=
  let v := (anchorWord s 0x20).toNat
  decide (v < s.plw.logLength) && decide ((s.plw.writeIndex + 1) % s.plw.logLength ≠ v)

/-- Write a play record at the write index (R145): its words, then the write index and the anchor's field, then L. -/
def writeRecord (r : PlayRecord) (s : State) : State :=
  let s := s.withMem (s.mem.storeWords (s.plw.logOffset.toNat + 32 * s.plw.writeIndex) r.words)
  let s := s.onPlw fun p => { p with writeIndex := (p.writeIndex + 1) % p.logLength }
  let s := anchorWrite 0x10C [BitVec.ofNat 32 s.plw.writeIndex] s
  if r.preClear then s else addLogged r.group r.entry r.zoneFrames s

/-- A record joins the tail of the hold queue (R146). -/
def holdRecord (r : PlayRecord) (s : State) : State := s.onPlw fun p => { p with hold := p.hold ++ [r] }

/-- Drop a record (R147): U unless it is PRE_CLEAR, the overflow count, its anchor field, LOG_OVERFLOW. -/
def dropRecord (r : PlayRecord) (s : State) : State :=
  let s := if r.preClear then s else addUnlogged r.group r.entry r.zoneFrames s
  let s := s.onPlw fun p => { p with overflow := saturate (p.overflow + 1) }
  raise .logOverflow (anchorWrite 0x110 [BitVec.ofNat 32 s.plw.overflow] s)

/-- The PLW takes a play record handed over at an accounting close (R146). -/
def handRecord (r : PlayRecord) (s : State) : State :=
  if 8 ≤ s.plw.hold.length then dropRecord r s
  else if s.plw.hold = [] ∧ s.smp.inForce = true then
    if logRoom s then writeRecord r (testReadIndex s) else holdRecord r (testReadIndex s)
  else holdRecord r s

/-- Retry the hold queue, oldest record first, while the log has room (R148). -/
def retryFuel : Nat → State → State
  | 0, s => s
  | k + 1, s =>
    match s.plw.hold with
    | [] => s
    | r :: rest =>
      if logRoom s then retryFuel k (writeRecord r ((testReadIndex s).onPlw fun p => { p with hold := rest }))
      else testReadIndex s

/-- The PLW's handling of a frame start (R148, R149): with an anchor in force it retries the hold queue, or reads and
tests the read index once when the queue is empty. -/
def plwFrameStart (s : State) : State :=
  if s.smp.inForce then
    if s.plw.hold = [] then testReadIndex s else retryFuel s.plw.hold.length s
  else s

/-- A GROUP_CLEAR marks PRE_CLEAR every record of the group in the hold queue (R150). -/
def markHold (g : Fin 8) (s : State) : State :=
  s.onPlw fun p => { p with hold := p.hold.map fun r => if r.group = g then { r with preClear := true } else r }

/-- A soft or link reset of the PLW (R152): the records of the hold queue that are not PRE_CLEAR join U, the queue is
emptied, the reported bad index becomes none. -/
def plwReset (s : State) : State :=
  let s := inOrder s.plw.hold (fun r t => if r.preClear then t else addUnlogged r.group r.entry r.zoneFrames t) s
  s.onPlw fun p => { p with hold := [], badIndex := none }

/-- Row HOLD_QUEUE_RETRY (R148): the PLW handles the frame start delivered to it. -/
def execHoldQueueRetry (s : State) : Host.Outcome State Fault Refusal :=
  .next (if s.plw.frameDue then plwFrameStart (s.onPlw fun p => { p with frameDue := false }) else s)

end Sys2Proof.Machine
end

