-- ==== Sys2Proof/Machine/Sru.lean ====
section
/-! DEFINITION. The sponsor rotation unit (chapter 8): eligibility, selection, answering, crediting and the balances,
cutting, the accounting close, the exposure snapshot, and the SRU's cue kinds. -/

namespace Sys2Proof.Machine

/-- Change a rotation group. -/
def onGroup (g : Fin 8) (f : RotationGroup → RotationGroup) (s : State) : State :=
  s.onSru fun r => { r with groups := upd r.groups g f }

/-! ## Eligibility (R126) -/

/-- Entry i is eligible in group g. -/
def eligible (r : Sru) (g : Fin 8) (i : Fin 64) : Bool :=
  r.entries[i].active && r.entries[i].mask.getLsbD g.val && !r.entries[i].creatives.isEmpty

/-- The weight of an entry where it is eligible, and 0 elsewhere. -/
def eligibleWeight (r : Sru) (g : Fin 8) (i : Fin 64) : Nat := if eligible r g i then r.entries[i].weight else 0

/-- The weight sum W of group g (R126). -/
def weightSum (r : Sru) (g : Fin 8) : Nat := ((List.finRange 64).map (eligibleWeight r g)).sum

/-! ## The exposure snapshot (R138, 12.8) -/

/-- The two words of a 64-bit value, the low word first. -/
def words64 (v : BitVec 64) : List Word := [v.extractLsb' 0 32, v.extractLsb' 32 32]

/-- The ten words of an account in a snapshot section (12.8), with the L to be shown. -/
def Account.words (a : Account) : List Word :=
  words64 (BitVec.ofInt 64 a.balance) ++ words64 a.delivered ++ words64 a.logged ++ words64 a.unlogged ++ [a.plays, 0]

/-- The status word of a group in its snapshot section (12.8). -/
def RotationGroup.statusWord (g : RotationGroup) : Word := g.statusByte.setWidth 32

/-- Write group g's section of the exposure snapshot, its count last (R138): omitted, and not counted, while no anchor is
in force. `accounts` are the accounts to be shown. -/
def writeSnapshot (g : Fin 8) (accounts : Vector Account 64) (s : State) : State :=
  if s.smp.inForce then
    let s := onGroup g (fun x => { x with snapshots := x.snapshots + 1 }) s
    let a := s.sru.snapshotOffset.toNat + 2576 * g.val
    let m := s.mem.storeWords (a + 4)
      ([s.sru.groups[g].statusWord, 0, 0] ++ accounts.toList.flatMap Account.words)
    s.withMem (m.storeWords a [s.sru.groups[g].snapshots])
  else s

/-- The accounts as a snapshot shows them when L of the account of entry i is still the earlier one (R138). -/
def showingLogged (accounts : Vector Account 64) (i : Fin 64) (l : BitVec 64) : Vector Account 64 :=
  upd accounts i fun a => { a with logged := l }

/-! ## The accounting close (R137) -/

/-- The play record of a slot (R137). -/
def Slot.record (x : Slot) (g : Fin 8) : PlayRecord :=
  { sponsorId := x.sponsorId, entry := x.entry, group := g, creative := x.creative, start := x.start,
    planned := x.planned, answered := x.answered, zoneFrames := x.running, preemptedFrames := x.preemptedFrames,
    cut := x.cut, preClear := x.preClear, fallback := x.fallback }

/-- The accounting close of the open slot of group g (R137): the play record is handed to the play log writer, the slot
ceases to exist, and the group's snapshot is written (R138). For a slot that a halt has cut the write is omitted when the
anchor of that halt is in force no more: a new start has begun before the report of its outstanding frame (R142), also
where that start succeeds at the frame start of that report. A slot that was closing before the halt is written under
whatever anchor is in force (R138, log 22). The snapshot shows L of the shown entry before or
after the log has added the record (log 6), and U as it stands after the handover, with a record that the play log writer
drops at it (R147) added: the model's choice (DESIGN CHOICE, log 37). -/
def closeSlot (g : Fin 8) (s : State) : State :=
  match s.sru.groups[g].openSlot with
  | none => s
  | some x =>
    let before := s.sru.accounts[g][x.entry].logged
    let s := handRecord (x.record g) (onGroup g (fun r => { r with openSlot := none }) s)
    let after := s.sru.accounts[g][x.entry].logged
    let shown := if Config.snapshotShowsLog s.free then after else before
    if x.haltedUnder.all (· == s.smp.anchorEpoch) then
      writeSnapshot g (showingLogged s.sru.accounts[g] x.entry shown) s.nextFree
    else s.nextFree

/-! ## Cutting (R134) -/

/-- The group has a current slot. -/
def hasCurrent (r : RotationGroup) : Bool :=
  match r.openSlot with
  | some x => !x.closing
  | none => false

/-- Cut the current slot of group g (R134): CUT is set and it becomes the closing slot, closing at once when it has no
outstanding frame. A closing slot is left as it is. -/
def cutSlot (g : Fin 8) (s : State) : State :=
  match s.sru.groups[g].openSlot with
  | none => s
  | some x =>
    if x.closing then s
    else
      let s := onGroup g (fun r => { r with openSlot := some { x with cut := true, closing := true } }) s
      if x.outstanding = none then closeSlot g s else s

/-! ## Zone sets (R129) -/

/-- The SRU takes a group's new zone set (R129): an empty one cuts the current slot. -/
def takeZoneSet (g : Fin 8) (zones : ZoneMask) (s : State) : State :=
  let s := onGroup g (fun r => { r with zones := zones }) s
  if zones = 0 then cutSlot g s else s

/-! ## Enabling, disabling, clearing (R127, R128) -/

/-- ENABLE of group g (R127): nothing after a halt, nothing on an ENABLED group. -/
def enableGroup (g : Fin 8) (s : State) : State :=
  if s.sru.afterHalt || s.sru.groups[g].enabled then s
  else
    let s := onGroup g (fun r => { r with enabled := true }) s
    writeGroupStatus (insertGroupClaims g s.sru.groups[g].zones s)

/-- DISABLE of group g (R127): the claims are removed, the current slot is cut, the group status is written. -/
def disableGroup (g : Fin 8) (s : State) : State :=
  if s.sru.groups[g].enabled then
    let s := onGroup g (fun r => { r with enabled := false }) s
    writeGroupStatus (cutSlot g (releaseClaims (.group g) s))
  else s

/-- GROUP_CLEAR of group g (R128), its six steps in order. -/
def clearGroup (g : Fin 8) (s : State) : State :=
  let was := s.sru.groups[g].saturated
  let s := s.onSru fun r =>
    { r with accounts := upd r.accounts g fun as => as.map fun a => { Account.zero with cursor := a.cursor } }
  let s := onGroup g (fun r => { r with saturated := false }) s
  let s := if was then writeGroupStatus s else s
  let s := onGroup g (fun r => { r with openSlot := r.openSlot.map fun x => { x with preClear := true } }) s
  let s := markHold g (cutSlot g s)
  writeSnapshot g s.sru.accounts[g] s

/-! ## Content requests (R132, R133) -/

/-- The better of two entries for a selection: the greater balance, a tie to the lower entry number (R132). -/
def better (as : Vector Account 64) (best : Option (Fin 64)) (i : Fin 64) : Option (Fin 64) :=
  match best with
  | none => some i
  | some b => if as[b].balance < as[i].balance then some i else some b

/-- The eligible entry with the greatest balance (R132). -/
def bestEntry (r : Sru) (g : Fin 8) : Option (Fin 64) :=
  ((List.finRange 64).filter (eligible r g)).foldl (better r.accounts[g]) none

/-- The slot that a selection of entry i in group g for frame f makes (R131, R132). -/
def newSlot (s : State) (g : Fin 8) (i : Fin 64) (f : Frame) : Slot :=
  let c := s.sru.accounts[g][i].cursor
  let dwell := ((s.sru.entries[i].creatives[c]?).map Creative.dwell).getD 30
  { number := s.sru.groups[g].slotNumber + 1, entry := i, sponsorId := s.sru.entries[i].sponsorId, creative := c,
    start := f, planned := dwell, remaining := dwell, answered := 0, outstanding := none, running := 0,
    preemptedFrames := 0, cut := false, preClear := false, fallback := s.smp.dev == .fallback, closing := false,
    haltedUnder := none }

/-- Select a slot for group g (R132): the cursor, the play count and the slot number advance. -/
def selectSlot (g : Fin 8) (f : Frame) (s : State) : State :=
  match bestEntry s.sru g with
  | none => s
  | some i =>
    let x := newSlot s g i f
    let s := onAccount g i (fun a =>
      { a with cursor := (a.cursor + 1) % s.sru.entries[i].creatives.length, plays := a.plays + 1 }) s
    onGroup g (fun r => { r with slotNumber := x.number, openSlot := some x }) s

/-- The creative frame a slot answers with after `n` answered frames (R133). -/
def creativeAnswer (s : State) (x : Slot) : Answer :=
  match s.sru.entries[x.entry].creatives[x.creative]? with
  | none => .nothing
  | some c =>
    .creative x.entry x.number (c.base + (x.answered / c.rep % c.count) * c.pitch) c.width c.height

/-- The slot's dwell has been answered in full: it becomes the closing slot (R133), closing at once when it has no
outstanding frame (R137). -/
def dwellEnd (g : Fin 8) (s : State) : State :=
  match s.sru.groups[g].openSlot with
  | none => s
  | some x =>
    if !x.closing && x.remaining == 0 then
      let s := onGroup g (fun r => { r with openSlot := some { x with closing := true } }) s
      if x.outstanding = none then closeSlot g s else s
    else s

/-- The current slot answers the request for frame f (R133). -/
def answerSlot (g : Fin 8) (f : Frame) (s : State) : Answer × State :=
  match s.sru.groups[g].openSlot with
  | none => (.nothing, s)
  | some x =>
    if x.closing then (.nothing, s)
    else
      let y := { x with outstanding := some f, answered := x.answered + 1, remaining := x.remaining - 1 }
      (creativeAnswer s x, dwellEnd g (onGroup g (fun r => { r with openSlot := some y }) s))

/-- A content request for frame f reaches group g (R132). -/
def groupRequest (g : Fin 8) (f : Frame) (s : State) : Answer × State :=
  if !s.sru.groups[g].enabled || s.sru.groups[g].zones == 0 then (.nothing, s)
  else if s.sru.groups[g].openSlot = none then answerSlot g f (selectSlot g f s)
  else answerSlot g f s

/-! ## Crediting (R135, R136) -/

/-- A balance held at the limit it would cross (R136). -/
def holdBalance (b : Int) : Int := max Config.balanceMin (min Config.balanceMax b)

/-- What the balance of an eligible entry would become by its gain, before any hold (R135 step 3). -/
def gainSum (r : Sru) (g : Fin 8) (k : Nat) (i : Fin 64) : Int :=
  r.accounts[g][i].balance + (r.entries[i].weight : Int) * k

/-- The balance of entry i after the gains of step 3 of R135: only an eligible entry gains. -/
def gained (r : Sru) (g : Fin 8) (k : Nat) (i : Fin 64) : Int :=
  if eligible r g i then holdBalance (gainSum r g k i) else r.accounts[g][i].balance

/-- What the balance of the shown entry would become by the charge of W times k, before any hold (R135 step 3). -/
def chargeSum (r : Sru) (g : Fin 8) (k : Nat) (shown : Fin 64) : Int :=
  gained r g k shown - (weightSum r g : Int) * k

/-- The accounts of group g after a credit of k to the shown entry, each change of a balance held at its limits. -/
def creditAccounts (r : Sru) (g : Fin 8) (k : Nat) (shown : Fin 64) : Vector Account 64 :=
  Vector.ofFn fun i =>
    let a := r.accounts[g][i]
    if i = shown then
      { a with balance := holdBalance (chargeSum r g k shown), delivered := a.delivered + BitVec.ofNat 64 k }
    else { a with balance := gained r g k i }

/-- Some balance of the group is held at a limit by a credit (R136). -/
def creditHeld (r : Sru) (g : Fin 8) (k : Nat) (shown : Fin 64) : Bool :=
  (List.finRange 64).any (fun i => eligible r g i && holdBalance (gainSum r g k i) != gainSum r g k i) ||
    holdBalance (chargeSum r g k shown) != chargeSum r g k shown

/-- Step 3 of R135 with the holds of R136. -/
def creditGroup (g : Fin 8) (k : Nat) (shown : Fin 64) (s : State) : State :=
  let held := creditHeld s.sru g k shown
  let was := s.sru.groups[g].saturated
  let s := s.onSru fun r => { r with accounts := upd r.accounts g fun _ => creditAccounts r g k shown }
  if held then
    let s := onGroup g (fun r => { r with saturated := true }) s
    raise .groupSaturated (if was then s else writeGroupStatus s)
  else s

/-- A report entry credits a slot of group g (R135). -/
def creditsSlot (g : Fin 8) (x : Slot) (e : ReportEntry) : Bool :=
  e.head == some (.group g) &&
    match e.drawn with
    | .creative i n _ _ _ => i == x.entry && n == x.number
    | _ => false

/-- The shown report for frame f reaches group g (R135). -/
def groupReport (g : Fin 8) (f : Frame) (report : List ReportEntry) (s : State) : State :=
  match s.sru.groups[g].openSlot with
  | none => s
  | some x =>
    if x.outstanding = some f then
      let k := (report.filter fun e => creditsSlot g x e && e.lit).length
      let y := { x with outstanding := none, running := x.running + k,
                        preemptedFrames := if k = 0 then x.preemptedFrames + 1 else x.preemptedFrames }
      let s := onGroup g (fun r => { r with openSlot := some y }) s
      let s := if x.preClear then s else creditGroup g k x.entry s
      if x.closing then closeSlot g s else s
    else s

/-! ## Sponsor entries (R124, R125) -/

/-- No open slot of any group shows an entry. -/
def noOpenSlot (r : Sru) (i : Fin 64) : Bool :=
  (List.finRange 8).all fun g =>
    match r.groups[g].openSlot with
    | some x => x.entry != i
    | none => true

/-- The balance of an entry is 0 in all eight groups (R124 check 7). -/
def settled (r : Sru) (i : Fin 64) : Bool := (List.finRange 8).all fun g => r.accounts[g][i].balance == 0

/-- The checks of a SPONSOR_WRITE in the order of R124: the entry and the definition, or the refusal. -/
def sponsorWriteCheck (s : State) (entry : BitVec 8) (offset : Word) : Except Status (Fin 64 × Entry) :=
  match index 64 entry.toNat with
  | none => .error .badValue
  | some i =>
    if s.sru.entries[i].active || !noOpenSlot s.sru i then .error .entryBusy
    else if offset.toNat % 4 ≠ 0 then .error .badValue
    else if !insideMemory offset.toNat sponsorBytes then .error .badRegion
    else
      match readSponsor s.mem offset.toNat with
      | none => .error .badValue
      | some d =>
        if !d.creatives.all (fun c => insideMemory c.base (regionBytes c.pitch c.width c.height c.count)) then
          .error .badRegion
        else if d.sponsorId ≠ s.sru.entries[i].sponsorId ∧ settled s.sru i = false then .error .entryUnsettled
        else .ok (i, d)

/-- An accepted SPONSOR_WRITE (R124): the definition is copied, the entry stays INACTIVE, its creative cursor is 0 in
every group. -/
def writeEntry (i : Fin 64) (d : Entry) (s : State) : State :=
  s.onSru fun r =>
    { r with entries := upd r.entries i fun _ => { d with active := false },
             accounts := r.accounts.map fun as => upd as i fun a => { a with cursor := 0 } }

/-- ACTIVATE of an entry (R125). -/
def activateEntry (i : Fin 64) (s : State) : State :=
  s.onSru fun r => { r with entries := upd r.entries i fun e => { e with active := true } }

/-- The groups whose current slot shows an entry. -/
def groupsShowing (r : Sru) (i : Fin 64) : List (Fin 8) :=
  (List.finRange 8).filter fun g =>
    match r.groups[g].openSlot with
    | some x => !x.closing && x.entry == i
    | none => false

/-- RETIRE of an entry (R125): every current slot that shows it is cut. -/
def retireEntry (i : Fin 64) (s : State) : State :=
  if s.sru.entries[i].active then
    let s := s.onSru fun r => { r with entries := upd r.entries i fun e => { e with active := false } }
    inFreeOrder (groupsShowing s.sru i) cutSlot s
  else s

/-! ## Fallback, halt and reset (R141 to R143) -/

/-- Entry to FALLBACK sets FALLBACK in every open slot (R141). -/
def sruFallback (s : State) : State :=
  s.onSru fun r =>
    { r with groups := r.groups.map fun g => { g with openSlot := g.openSlot.map fun x => { x with fallback := true } } }

/-- A slot as the halt under anchor `epoch` cuts it (R142): a closing slot is left as it is (R134). -/
def Slot.haltedAt (epoch : Nat) (x : Slot) : Slot := if x.closing then x else { x with haltedUnder := some epoch }

/-- The slots that a halt is about to cut, those current in an ENABLED group, keep the anchor in force at it (R142). -/
def markHaltCuts (s : State) : State :=
  s.onSru fun r =>
    { r with groups := r.groups.map fun g =>
      if g.enabled then { g with openSlot := g.openSlot.map (Slot.haltedAt s.smp.anchorEpoch) } else g }

/-- A halt disables every ENABLED group (R142); the spec gives no order among the slots that this cuts (log 5). -/
def sruHalt (s : State) : State :=
  let s := (markHaltCuts s).onSru fun r => { r with afterHalt := true }
  let gs := (List.finRange 8).filter fun g => s.sru.groups[g].enabled
  inFreeOrder (gs.filter fun g => hasCurrent s.sru.groups[g]) disableGroup
    (inOrder (gs.filter fun g => !hasCurrent s.sru.groups[g]) disableGroup s)

/-- The running zone-frames of a group's open slot join U at a reset, unless it is PRE_CLEAR (R143). -/
def resetSlot (g : Fin 8) (s : State) : State :=
  match s.sru.groups[g].openSlot with
  | some x => if x.preClear then s else addUnlogged g x.entry x.running s
  | none => s

/-- A soft or link reset of the SRU (R143). -/
def sruReset (s : State) : State :=
  let s := inOrder (List.finRange 8) resetSlot s
  s.onSru fun r => { r with groups := r.groups.map fun g => { g with enabled := false, zones := 0, openSlot := none } }

/-- Row DWELL_END (R133): the event of a current slot whose dwell remaining has reached 0. A content request brings it
about within its own handling; as a command it acts where that condition stands. -/
def execDwellEnd (g : Fin 8) (s : State) : Host.Outcome State Fault Refusal := .next (dwellEnd g s)

end Sys2Proof.Machine
end

