-- ==== Sys2Proof/Machine/Claims.lean ====
section
/-! DEFINITION. What the zone arbiter does across the blocks (chapter 4): claim requests with the pre-emptions and
evictions they report to the owners (R67 to R70), and the layout switch with the lost zones and zone sets it reports
(R60, R62). Each report is acted on within the handling that makes it (R76). -/

namespace Sys2Proof.Machine

/-- The answer to a claim request over a mask (R70). -/
structure ClaimAnswer where
  taken : ZoneMask
  refused : ZoneMask
deriving DecidableEq, Repr

/-- Report a pre-emption to the owner of a clip's or a message's claim; a group is not told (R67). -/
def reportPreempted (who : Option Claimant) (s : State) : State :=
  match who with
  | some (.clip k) => preemptClip k s
  | some (.message k) => preemptMessage k s
  | _ => s

/-- Report lost zones to the owner of a clip's or a message's claim (R62, R69); a group is not told. -/
def reportLost (status : Status) (who : Claimant) (lost : ZoneMask) (s : State) : State :=
  match who with
  | .clip k => loseClip status k lost s
  | .message k => loseMessage status k lost s
  | .group _ => s

/-- Insert a non-group claim in a zone; when it becomes head, the claim that was head before is pre-empted (R66, R67). -/
def placeClaim (z : Fin 16) (c : Claim) (s : State) : State :=
  let before := headOf (claimsAt s.zar z)
  let s := s.onZar fun a => a.onClaims z (insertClaim c)
  if headOf (claimsAt s.zar z) = some c.who then reportPreempted before s else s

/-- Evict a claim from a zone, place the safety claim, and report the lost zone (R69). -/
def evictAndPlace (z : Fin 16) (victim : Claim) (c : Claim) (s : State) : State :=
  let s := s.onZar fun a => a.onClaims z (removeClaim victim.who)
  reportLost .evicted victim.who (zoneBit z) (placeClaim z c s)

/-- One zone of a claim request (R66, R68 to R70): whether it is taken, and the state after. A zone that the claimant
already holds is left as it is and reported as held; that such a zone counts among the zones taken is the model's choice
(DESIGN CHOICE, log 34). -/
def claimZone (c : Claim) (safety : Bool) (z : Fin 16) (s : State) : Bool × State :=
  if s.smp.dev.live = false then (false, s)
  else
    match s.zar.table[z] with
    | none => (false, s)
    | some e =>
      if holdsIn c.who e.claims then (true, s)
      else if fullList e.claims then
        if safety then
          match evictable e.claims with
          | some v => (true, evictAndPlace z v c s)
          | none => (false, s)
        else (false, s)
      else (true, placeClaim z c s)

/-- The zones of a request in increasing order of zone id, one after another (R70). -/
def claimZones (c : Claim) (safety : Bool) (zs : List (Fin 16)) (s : State) : ClaimAnswer × State :=
  zs.foldl (fun acc z =>
    let r := claimZone c safety z acc.2
    (if r.1 then { acc.1 with taken := acc.1.taken ||| zoneBit z }
     else { acc.1 with refused := acc.1.refused ||| zoneBit z }, r.2)) (⟨0, 0⟩, s)

/-- A clip's or a message's claim request over a zone mask (R65, R70): a safety claim is placed at level 0, every other at
its level clamped into 1 to 5. -/
def claimRequest (who : Claimant) (level : Nat) (safety : Bool) (zones : ZoneMask) (s : State) : ClaimAnswer × State :=
  claimZones ⟨who, if safety then 0 else clampNat 1 5 level⟩ safety (zonesOf zones) s

/-! ## The layout switch (R60, R62) -/

/-- The clip and message slots. -/
def slotClaimants : List Claimant := (List.finRange 8).map .clip ++ (List.finRange 8).map .message

/-- The claimants that lose a zone by a switch. -/
def losers (s : State) : List Claimant := slotClaimants.filter fun w => lostZones s w != 0

/-- The groups whose zone set differs between two zone tables. -/
def changedGroups (before after : Vector (Option ZoneEntry) 16) : List (Fin 8) :=
  (List.finRange 8).filter fun g => zoneSetOf before g != zoneSetOf after g

/-- The new zone set of a group is empty while it has a current slot: the report cuts that slot (R129). -/
def cutByZoneSet (s : State) (g : Fin 8) : Bool := zoneSetOf s.zar.table g == 0 && hasCurrent s.sru.groups[g]

/-- Report the new zone set of one group to the SRU (R60). -/
def reportZoneSet (g : Fin 8) (s : State) : State := takeZoneSet g (zoneSetOf s.zar.table g) s

/-- Report the new zone set of each of these groups to the SRU (R60); the spec gives no order among the slots that the
reports cut (log 5). -/
def reportZoneSets (gs : List (Fin 8)) (s : State) : State :=
  inFreeOrder (gs.filter (cutByZoneSet s)) reportZoneSet (inOrder (gs.filter fun g => !cutByZoneSet s g) reportZoneSet s)

/-- Switch the active layout to bank b (R62): nothing when it is the bank already selected (R61). -/
def switchLayout (b : Fin 4) (s : State) : State :=
  if b = s.zar.selector then s
  else
    let before := s
    let s := switchTable b s
    let s := inFreeOrder (losers before) (fun w t => reportLost .noZone w (lostZones before w) t) s
    reportZoneSets (changedGroups before.zar.table s.zar.table) s

/-- Load bank 0 and the zone table at a successful start, and report every group's zone set (R59, R60). -/
def loadCommon (zones : List ZoneDef) (s : State) : State :=
  let s := setBank 0 zones s
  let s := s.onZar fun z => { z with selector := 0, table := startTable zones }
  reportZoneSets (List.finRange 8) s

end Sys2Proof.Machine
end

