-- ==== Sys2Proof/Machine/Take.lean ====
section
/-! DEFINITION. Taking a PLAY_CLIP (R92 to R94) and a POST_MESSAGE (R109 to R112). -/

namespace Sys2Proof.Machine

/-- What an owner answers the CIU or the ETU with (R41, R173): a refusal with its refused zone mask, a completion status,
or acceptance with the refused zone mask. -/
inductive Taking where
  | refused (status : Status) (zones : ZoneMask)
  | done (status : Status)
  | accepted (zones : ZoneMask)
deriving DecidableEq, Repr

/-- The slots of a run that are not free for its later members: those chosen for an earlier member, and those that a
WITHDRAW of the run has ended, since a withdrawn slot passes through ENDING (R94, R112; log 14). -/
structure RunSlots where
  clips : List (Fin 8)
  messages : List (Fin 8)
deriving DecidableEq, Repr

/-- No slot kept from the members of a run. -/
def RunSlots.none : RunSlots := ⟨[], []⟩

/-! ## PLAY_CLIP -/

/-- The end behaviours of a PLAY_CLIP payload: RELEASE 0, HOLD_LAST 1 (12.5). -/
def clipValuesOk (p : ClipPayload) : Bool :=
  p.zones != 0 && decide (1 ≤ p.width.toNat) && decide (p.width.toNat ≤ 3840) && decide (1 ≤ p.height.toNat) &&
    decide (p.height.toNat ≤ 1152) && p.count != 0 && (p.endBehaviour == 0 || p.endBehaviour == 1) &&
    decide (p.base.toNat % 4 = 0) && decide (p.pitch.toNat % 4 = 0)

/-- The clip's region lies inside show memory (R92). -/
def clipRegionOk (p : ClipPayload) : Bool :=
  insideMemory p.base.toNat (regionBytes p.pitch.toNat p.width.toNat p.height.toNat p.count.toNat)

/-- The slot of an accepted clip (R91, R93). -/
def newClip (p : ClipPayload) (h : Handover) (a : ClaimAnswer) (frame : Frame) (epoch : Nat) : ClipSlot :=
  { state := .playing, origin := h.origin, tag := p.tag, level := clampNat 1 5 p.level.toNat, base := p.base.toNat,
    pitch := p.pitch.toNat, width := p.width.toNat, height := p.height.toNat, count := p.count.toNat,
    rep := clampRepeat p.rep.toNat, loops := p.loops.toNat, holdLast := p.endBehaviour == 1, source := 0,
    repPhase := 0, passes := 0, holdings := a.taken, outstanding := none, framesShown := 0, litFrames := 0,
    firstShown := none, preempted := false, takeFrame := frame, late := h.late, refused := a.refused, status := none,
    endFrame := 0, epoch := epoch }

/-- The CLE takes a PLAY_CLIP (R92, R93): answered at once after a halt or in FALLBACK; otherwise values, region, tag,
slot and zones are checked in that order. In a linked run the tag of an earlier member's clip that a
SAFETY message or a SELECT_LAYOUT of the run has ended at once is free again: R94 leaves this open, and it is the model's choice (DESIGN CHOICE, log 40). -/
def takeClip (h : Handover) (kept : RunSlots) (p : ClipPayload) (s : State) : Taking × State :=
  match s.cle.gate with
  | .halted => (.done .halted, s)
  | .fallback => (.done .abandoned, s)
  | .open_ =>
    if !clipValuesOk p then (.refused .badValue 0, s)
    else if !clipRegionOk p then (.refused .badRegion 0, s)
    else if (clipWithTag s.cle p.tag).isSome then (.refused .tagInUse 0, s)
    else
      match idleClip s.cle kept.clips with
      | none => (.refused .noSlot 0, s)
      | some k =>
        let r := claimRequest (.clip k) p.level.toNat false p.zones s
        if r.1.taken = 0 then (.refused .zoneFull p.zones, s)
        else (.accepted r.1.refused, onClip k (fun _ => newClip p h r.1 s.ftu.frame s.smp.anchorEpoch) r.2)

/-! ## POST_MESSAGE -/

/-- The value checks of a POST_MESSAGE payload (R109). -/
def messageValuesOk (p : MessagePayload) : Bool :=
  p.zones != 0 && (p.cls == 0 || p.cls == 1) && (p.mode == 0 || p.mode == 1) &&
    decide (1 ≤ p.textLength.toNat) && decide (p.textLength.toNat ≤ 120)

/-- The text lies inside show memory (R109). -/
def messageRegionOk (p : MessagePayload) : Bool := insideMemory p.textOffset.toNat p.textLength.toNat

/-- The content and the life that an acceptance or a re-post gives a slot (R110, R111): text, colours, duration, blink,
placement, the extent and span measured over these holdings, the start frame. -/
def MessageSlot.withContent (m : MessageSlot) (p : MessagePayload) (s : State) : MessageSlot :=
  let codes := textCodes s.mem p.textOffset.toNat p.textLength.toNat
  let font := s.clo.fontOffset.toNat
  { m with
    textOffset := p.textOffset.toNat, textLength := p.textLength.toNat, textWidth := extentWidth s.mem font codes,
    textHeight := extentHeight s.mem font codes, foreground := p.foreground, background := p.background,
    duration := if p.duration = 0 then none else some p.duration.toNat, blinkOn := p.blinkOn.toNat,
    blinkOff := p.blinkOff.toNat, phase := .on, phaseLeft := p.blinkOn.toNat, crawl := p.mode == 1,
    crawlSpeed := max 1 p.crawlSpeed.toNat, crawlPos := 0,
    crawlSpan := widestZone s.zar m.holdings + extentWidth s.mem font codes, startFrame := s.ftu.frame,
    counted := s.ftu.frame }

/-- The new origin of a slot, with the credits at 0 and PRE-EMPTED clear (R110, R111). -/
def MessageSlot.withOrigin (m : MessageSlot) (h : Handover) (refused : ZoneMask) (s : State) : MessageSlot :=
  { m with
    origin := h.origin, framesShown := 0, litFrames := 0, firstShown := none, preempted := false,
    takeFrame := s.ftu.frame, late := h.late, refused := refused, epoch := s.smp.anchorEpoch }

/-- A re-post replaces the content of slot k and restarts its life, keeping slot, class, level and claims; the old origin
is completed REPLACED, with no message end event (R111). -/
def repost (k : Fin 8) (h : Handover) (p : MessagePayload) (s : State) : State :=
  let s := completeOrigin s.msu.slots[k] .replaced s.ftu.frame s
  onMessage k (fun m => (m.withContent p s).withOrigin h 0 s) s

/-- The slot of an accepted new message before its content and origin are set (R110). -/
def newMessage (p : MessagePayload) (a : ClaimAnswer) : MessageSlot :=
  { MessageSlot.cleared with
    state := .showing, tag := p.tag, safety := p.cls == 1,
    level := if p.cls = 1 then 0 else clampNat 1 5 p.level.toNat, holdings := a.taken }

/-- The MSU takes a POST_MESSAGE (R109 to R111): answered at once after a halt; otherwise values and region are checked,
then a SHOWING message with the tag is re-posted, or a slot and zones are sought. In a linked run an earlier member's
message that a SAFETY message or a SELECT_LAYOUT of the run has ended at once is not re-posted: R112 leaves this open, and it is the model's choice
(DESIGN CHOICE, log 40). -/
def takeMessage (h : Handover) (kept : RunSlots) (p : MessagePayload) (s : State) : Taking × State :=
  if s.msu.afterHalt then (.done .halted, s)
  else if !messageValuesOk p then (.refused .badValue 0, s)
  else if !messageRegionOk p then (.refused .badRegion 0, s)
  else
    match messageWithTag s.msu p.tag with
    | some k => (.accepted 0, repost k h p s)
    | none =>
      match idleMessage s.msu kept.messages with
      | none => (.refused .noSlot 0, s)
      | some k =>
        let r := claimRequest (.message k) p.level.toNat (p.cls == 1) p.zones s
        if r.1.taken = 0 then (.refused .zoneFull p.zones, s)
        else
          (.accepted r.1.refused,
           onMessage k (fun _ => ((newMessage p r.1).withContent p r.2).withOrigin h r.1.refused r.2) r.2)

/-! ## Withdrawal of a clip or message (R102, R120) -/

/-- A clip is withdrawn by tag: whether it was found (R102). -/
def withdrawClip (t : Tag) (kept : RunSlots) (s : State) : Bool × RunSlots × State :=
  match clipWithTag s.cle t with
  | none => (false, kept, s)
  | some k => (true, { kept with clips := k :: kept.clips }, endClip .withdrawn k s)

/-- A message is withdrawn by tag: whether it was found (R120). -/
def withdrawMessage (t : Tag) (kept : RunSlots) (s : State) : Bool × RunSlots × State :=
  match messageWithTag s.msu t with
  | none => (false, kept, s)
  | some k => (true, { kept with messages := k :: kept.messages }, endMessage .withdrawn k s)

end Sys2Proof.Machine
end

