-- ==== Sys2Proof/Machine/Etu.lean ====
section
/-! DEFINITION. The event trigger unit (chapter 11): arming, disarming and firing. Source events and results are in
Machine/Triggers.lean. -/

namespace Sys2Proof.Machine

/-- The status and the refused zone mask that an owner's answer gives a trigger report (R173): a completion status is
received as a refusal is (R93, R110). -/
def Taking.reported : Taking → Status × ZoneMask
  | .refused st z => (st, z)
  | .done st => (st, 0)
  | .accepted z => (.pending, z)

/-- The ETU records the outcome of a hand-over in the entry's report (R173, R175). -/
def recordTaking (e : Fin 8) (t : Taking) (s : State) : State :=
  writeReport e (onTrigger e (fun x =>
    { x with report := { x.report with lastStatus := t.reported.1.code, lastRefused := t.reported.2,
                                       lastShown := 0, lastLit := 0 } }) s)

/-- The checks of a TRIGGER_ARM in the order of R171: the entry, the source and the action, or the refusal. -/
def triggerArmCheck (s : State) (p : Payload) : Except Status (Fin 8 × TriggerSource × TriggerAction) :=
  match index 8 (triggerFields p).entry, triggerSource (triggerFields p), triggerAction (triggerFields p) p with
  | some e, some src, some act => if s.etu.entries[e].armed then .error .triggerBusy else .ok (e, src, act)
  | _, _, _ => .error .badValue

/-- Arm an entry (R171). -/
def armTrigger (e : Fin 8) (src : TriggerSource) (rearm : Bool) (act : TriggerAction) (s : State) : State :=
  writeReport e (onTrigger e (fun _ =>
    { armed := true, source := some src, rearm := rearm, action := some act, pending := false,
      report := TriggerReport.zero }) s)

/-- Disarm an entry (R171): an ARMED entry becomes IDLE with its pending flag clear. -/
def disarmTrigger (e : Fin 8) (s : State) : State :=
  if s.etu.entries[e].armed then onTrigger e (fun x => { x with armed := false, pending := false }) s else s

/-- Hand an entry's stored action to its owner (R173): nothing when there is none. -/
def handAction (e : Fin 8) (s : State) : Taking × State :=
  match s.etu.entries[e].action with
  | some (.clip p) => takeClip ⟨.trigger e, false⟩ RunSlots.none p s
  | some (.message p) => takeMessage ⟨.trigger e, false⟩ RunSlots.none p s
  | none => (.done .pending, s)

/-- A pending entry fires in RUNNING (R173). -/
def fireTrigger (f : Frame) (e : Fin 8) (s : State) : State :=
  let s := onTrigger e (fun x => { x with pending := false, report := { x.report with lastFire := f } }) s
  let r := handAction e s
  onTrigger e (fun x => { x with armed := x.armed && x.rearm }) (recordTaking e r.1 r.2)

/-- A pending firing is dropped outside RUNNING (R173). -/
def dropFiring (e : Fin 8) (s : State) : State :=
  writeReport e (onTrigger e (fun x =>
    { x with pending := false, report := { x.report with suppressed := x.report.suppressed + 1 } }) s)

/-- The entries whose pending flag is set, in increasing order. -/
def pendingTriggers (u : Etu) : List (Fin 8) := (List.finRange 8).filter fun e => u.entries[e].pending

/-- Take the source events that waited while the ETU handled a frame start (R172). -/
def takeInbox (s : State) : State :=
  let waiting := s.etu.inbox
  inOrder waiting takeSource (s.onEtu fun u => { u with handling := false, inbox := [] })

/-- The ETU's handling of the frame start that begins frame f (R173). -/
def etuFrameStart (f : Frame) (s : State) : State :=
  let es := pendingTriggers s.etu
  if s.smp.dev = .running then
    takeInbox (inOrder es (fireTrigger f) (s.onEtu fun u => { u with handling := true }))
  else inOrder es dropFiring s

/-- A reset sets every entry to IDLE and clears it and its report (R170). -/
def etuReset (s : State) : State :=
  s.onEtu fun u => { u with entries := Vector.replicate 8 TriggerEntry.reset, handling := false, inbox := [] }

/-- Row ETU_FRAME_START (R173): the ETU handles the frame start delivered to it. -/
def execEtuFrameStart (s : State) : Host.Outcome State Fault Refusal :=
  .next (if s.etu.frameDue then etuFrameStart s.ftu.frame (s.onEtu fun u => { u with frameDue := false }) else s)

end Sys2Proof.Machine
end

