-- ==== Sys2Proof/Machine/Ciu.lean ====
section
/-! DEFINITION. The cue intake unit (chapter 3): what each owner does with the work of a record, the writing of the result,
the scan, linked runs, and the rows of the cue kinds. -/

namespace Sys2Proof.Machine

/-! ## The owners' acts (R41, R42) -/

/-- A status answered by an owner of a kind that completes at once: anything but OK is a refusal. -/
def Taking.ofStatus (st : Status) : Taking := if st = .ok then .done .ok else .refused st 0

/-- The act of an owner whose refusals are checked first: a refusal changes nothing (R41). -/
def takeChecked {α : Type} (check : Except Status α) (success : Status) (act : α → State → State) (s : State) :
    Taking × State :=
  match check with
  | .error st => (.refused st 0, s)
  | .ok a => (.done success, act a s)

/-- An index check, the one refusal of several kinds: BAD_VALUE above the highest index (R176). -/
def indexCheck (n : Nat) (v : BitVec 8) : Except Status (Fin n) :=
  match index n v.toNat with
  | some i => .ok i
  | none => .error .badValue

/-- WITHDRAW of an ARMED trigger entry (R49, R171). -/
def withdrawTrigger (entry : BitVec 8) (s : State) : Taking × State :=
  match index 8 entry.toNat with
  | none => (.refused .badValue 0, s)
  | some e => if s.etu.entries[e].armed then (.done .ok, disarmTrigger e s) else (.refused .notFound 0, s)

/-- The answer to a WITHDRAW of a clip or message: OK when it was found (R49). -/
def foundTaking (found : Bool) : Taking := if found then .done .ok else .refused .notFound 0

/-- WITHDRAW (R49), by target kind: CLIP 1, MESSAGE 2, TRIGGER 3. -/
def takeWithdraw (target entry : BitVec 8) (tag : Tag) (kept : RunSlots) (s : State) : Taking × RunSlots × State :=
  match target.toNat with
  | 1 => let r := withdrawClip tag kept s; (foundTaking r.1, r.2.1, r.2.2)
  | 2 => let r := withdrawMessage tag kept s; (foundTaking r.1, r.2.1, r.2.2)
  | 3 => let r := withdrawTrigger entry s; (r.1, kept, r.2)
  | _ => (.refused .badValue 0, kept, s)

/-- LOAD_LAYOUT (R57, R58). -/
def takeLoadLayout (bank : BitVec 8) (offset : Word) (s : State) : Taking × State :=
  takeChecked (loadLayoutCheck s bank offset) .ok (fun r => setBank r.1 r.2) s

/-- SELECT_LAYOUT (R61, R62). -/
def takeSelectLayout (bank : BitVec 8) (s : State) : Taking × State :=
  takeChecked (selectLayoutCheck s bank) .ok switchLayout s

/-- SPONSOR_WRITE (R124). -/
def takeSponsorWrite (entry : BitVec 8) (offset : Word) (s : State) : Taking × State :=
  takeChecked (sponsorWriteCheck s entry offset) .ok (fun r => writeEntry r.1 r.2) s

/-- SPONSOR_STATE ACTIVATE (R125). -/
def takeActivate (entry : BitVec 8) (s : State) : Taking × State :=
  takeChecked (indexCheck 64 entry) .ok activateEntry s

/-- SPONSOR_STATE RETIRE (R125). -/
def takeRetire (entry : BitVec 8) (s : State) : Taking × State :=
  takeChecked (indexCheck 64 entry) .ok retireEntry s

/-- SPONSOR_STATE by its action code: ACTIVATE 1, RETIRE 2 (R125, 12.5). -/
def takeSponsorState (entry action : BitVec 8) (s : State) : Taking × State :=
  match action.toNat with
  | 1 => takeActivate entry s
  | 2 => takeRetire entry s
  | _ => (.refused .badValue 0, s)

/-- GROUP_SET ENABLE (R127). -/
def takeEnable (group : BitVec 8) (s : State) : Taking × State :=
  takeChecked (indexCheck 8 group) .ok enableGroup s

/-- GROUP_SET DISABLE (R127). -/
def takeDisable (group : BitVec 8) (s : State) : Taking × State :=
  takeChecked (indexCheck 8 group) .ok disableGroup s

/-- GROUP_SET by its action code: ENABLE 1, DISABLE 2 (R127, 12.5). -/
def takeGroupSet (group action : BitVec 8) (s : State) : Taking × State :=
  match action.toNat with
  | 1 => takeEnable group s
  | 2 => takeDisable group s
  | _ => (.refused .badValue 0, s)

/-- GROUP_CLEAR (R128). -/
def takeGroupClear (group : BitVec 8) (s : State) : Taking × State :=
  takeChecked (indexCheck 8 group) .ok clearGroup s

/-- An act of the CCU that answers a status (R158 to R162, R164). -/
def takeStatus (act : State → Status × State) (s : State) : Taking × State :=
  let r := act s
  (Taking.ofStatus r.1, r.2)

/-- TRIGGER_ARM (R171): ARMED on success. -/
def takeTriggerArm (p : Payload) (s : State) : Taking × State :=
  takeChecked (triggerArmCheck s p) .armed (fun r => armTrigger r.1 r.2.1 (triggerFields p).rearm r.2.2) s

/-- TRIGGER_DISARM (R171): OK also on an IDLE entry. -/
def takeTriggerDisarm (entry : BitVec 8) (s : State) : Taking × State :=
  takeChecked (indexCheck 8 entry) .ok disarmTrigger s

/-! ## Writing the result at take (R34, R35, R41) -/

/-- The result fields that the CIU writes at take (R35): only an accepted record has end frame 0. -/
def takeResult (late : Bool) (frame : Frame) (status : Status) (zones : ZoneMask) (endFrame : Frame) : CueResult :=
  { status := status, late := late, preempted := false, refused := zones, takeFrame := frame, firstShown := 0,
    endFrame := endFrame, framesShown := 0, litFrames := 0 }

/-- The CIU writes a record by its owner's answer (R41): DONE, or TAKEN with PENDING. -/
def writeTaking (i : Nat) (late : Bool) (t : Taking) (s : State) : State :=
  let f := s.ftu.frame
  match t with
  | .refused st z => writeDone i (takeResult late f st z f) s
  | .done st => writeDone i (takeResult late f st 0 f) s
  | .accepted z => writeCue i (takeResult late f .pending z 0) takenCode s

/-- The take of a record whose owner answers without slots to keep, and the record's result. -/
def takeAndWrite (take : CueTake) (act : State → Taking × State) (s : State) : State :=
  let r := act s
  writeTaking take.index take.late r.1 r.2

/-- The result of a hand-over goes to its origin: the CIU writes the record (R41), the ETU the entry's report (R173). -/
def writeHandover (h : Handover) (r : Taking × State) : State :=
  match h.origin with
  | .cue i => writeTaking i h.late r.1 r.2
  | .trigger e => recordTaking e r.1 r.2

/-! ## A member of a run, or a single record (R41, R47) -/

/-- A record the scan takes: its index, whether it is LATE, and its work, if its kind is known. -/
structure Member where
  index : Nat
  late : Bool
  work : Option Work
deriving DecidableEq, Repr

/-- The slots kept from later members when a PLAY_CLIP member was accepted: the slot chosen for it (R94). -/
def keepClip (t : Taking) (kept : RunSlots) (s : State) : RunSlots :=
  match t with
  | .accepted _ => { kept with clips := (idleClip s.cle kept.clips).toList ++ kept.clips }
  | _ => kept

/-- The slots kept from later members when a POST_MESSAGE member was accepted: the slot chosen for a new message, none
for a re-post (R112). -/
def keepMessage (t : Taking) (p : MessagePayload) (kept : RunSlots) (s : State) : RunSlots :=
  match t with
  | .accepted _ =>
    if (messageWithTag s.msu p.tag).isSome then kept
    else { kept with messages := (idleMessage s.msu kept.messages).toList ++ kept.messages }
  | _ => kept

/-- The owner of the kind acts on a member (R41, R42); an unknown kind is BAD_KIND. -/
def actMember (m : Member) (kept : RunSlots) (s : State) : Taking × RunSlots × State :=
  let h : Handover := ⟨.cue m.index, m.late⟩
  let plain (r : Taking × State) : Taking × RunSlots × State := (r.1, kept, r.2)
  match m.work with
  | none => (.refused .badKind 0, kept, s)
  | some (.playClip p) => let r := takeClip h kept p s; (r.1, keepClip r.1 kept s, r.2)
  | some (.postMessage p) => let r := takeMessage h kept p s; (r.1, keepMessage r.1 p kept s, r.2)
  | some (.withdraw target entry tag) => takeWithdraw target entry tag kept s
  | some (.loadLayout bank offset) => plain (takeLoadLayout bank offset s)
  | some (.selectLayout bank) => plain (takeSelectLayout bank s)
  | some (.sponsorWrite entry offset) => plain (takeSponsorWrite entry offset s)
  | some (.sponsorState entry action) => plain (takeSponsorState entry action s)
  | some (.groupSet group action) => plain (takeGroupSet group action s)
  | some (.groupClear group) => plain (takeGroupClear group s)
  | some (.clockSet p) => plain (takeStatus (setClock p) s)
  | some (.clockRun channel action delta) => plain (takeStatus (runClock channel action delta) s)
  | some (.consoleSet p) => plain (takeStatus (setConsole p) s)
  | some (.triggerArm p) => plain (takeTriggerArm p s)
  | some (.triggerDisarm entry) => plain (takeTriggerDisarm entry s)

/-- A single record is taken (R41). -/
def takeSingle (m : Member) (s : State) : State :=
  let r := actMember m RunSlots.none s
  writeTaking m.index m.late r.1 r.2.2

/-- The members of a run are acted on in list order, each against the state that the earlier ones leave (R47): the state
after, or the index and the answer of the first member that is refused. The trial of the check and the act are this one
function: a run that passes is acted on exactly as it was tried (R48, R73). Each record is written after its own act. -/
def actRun : List Member → RunSlots → State → Except (Nat × Taking) State
  | [], _, s => .ok s
  | m :: ms, kept, s =>
    let r := actMember m kept s
    match r.1 with
    | .refused st z => .error (m.index, .refused st z)
    | t => actRun ms r.2.1 (writeTaking m.index m.late t r.2.2)

/-- Write the members of a run that failed its check (R47): the failing member with its own status, every other with
GROUP_REFUSED, in list order. -/
def writeRefusedRun (ms : List Member) (failing : Nat) (t : Taking) (s : State) : State :=
  inOrder ms (fun m => writeTaking m.index m.late (if m.index = failing then t else .refused .groupRefused 0)) s

/-- A run of at most eight members is handled whole (R47). -/
def handleRun (ms : List Member) (s : State) : State :=
  match actRun ms RunSlots.none s with
  | .ok s' => s'
  | .error (failing, t) => writeRefusedRun ms failing t s

/-! ## The scan (R36 to R46) -/

/-- The cue record of an index, as the CIU reads it. -/
def recordAt (s : State) (i : Nat) : CueRecord := readCue s.mem (cueOffset s i)

/-- A record that carries TIMED has its not-before frame reached; any other is ready (R40). -/
def CueRecord.ready (r : CueRecord) (f : Frame) : Bool := !r.timed || reached r.notBefore f

/-- A record is LATE: it carries TIMED and its not-before frame has passed (R40). -/
def CueRecord.isLate (r : CueRecord) (f : Frame) : Bool := r.timed && passed r.notBefore f

/-- What assembly finds (R44). -/
inductive Assembly where
  | incomplete
  | run (members : List (Nat × CueRecord))
  | overLong
deriving DecidableEq, Repr

/-- Assemble a run from an index: at most `k` more records are read (R44). -/
def assemble (s : State) : Nat → Nat → List (Nat × CueRecord) → Assembly
  | 0, _, _ => .overLong
  | k + 1, i, acc =>
    let r := recordAt s i
    if r.state ≠ .posted then .incomplete
    else if r.linked then assemble s k ((i + 1) % s.ciu.listLength) (acc ++ [(i, r)])
    else .run (acc ++ [(i, r)])

/-- The member that a record is taken as at a frame start. -/
def memberOf (f : Frame) (x : Nat × CueRecord) : Member :=
  { index := x.1, late := x.2.isLate f, work := workOf x.2.kind x.2.payload }

/-- Move the scan index on modulo L (R36). -/
def moveScan (n : Nat) (s : State) : State := s.onCiu fun c => { c with scan := (c.scan + n) % c.listLength }

/-- Set or clear the refusing-run flag (R46). -/
def setRefusing (b : Bool) (s : State) : State := s.onCiu fun c => { c with refusing := b }

/-- A POSTED record under the refusing-run flag (R46). -/
def refuseTooLong (i : Nat) (r : CueRecord) (s : State) : State :=
  let s := writeTaking i false (.refused .groupTooLong 0) s
  moveScan 1 (if r.linked then s else setRefusing false s)

/-- One act of a scan with a budget left (R36 to R46): the budget and the state after it, or none when the scan stops. -/
def scanStep (budget : Nat) (s : State) : Option (Nat × State) :=
  let i := s.ciu.scan
  let r := recordAt s i
  let f := s.ftu.frame
  if budget = 0 ∨ r.state ≠ .posted then none
  else if s.ciu.refusing then some (budget - 1, refuseTooLong i r s)
  else if !r.ready f then none
  else
    match assemble s 8 i [] with
    | .incomplete => none
    | .overLong => some (budget, setRefusing true s)
    | .run ms =>
      if budget < ms.length ∨ ms.all (fun x => x.2.ready f) = false then none
      else
        some (budget - ms.length,
          moveScan ms.length (if r.linked then handleRun (ms.map (memberOf f)) s else takeSingle (memberOf f (i, r)) s))

/-- A scan from a budget. The fuel covers one flag change before each of sixteen records. -/
def scanFuel : Nat → Nat → State → Nat × State
  | 0, budget, s => (budget, s)
  | k + 1, budget, s =>
    match scanStep budget s with
    | none => (budget, s)
    | some r => scanFuel k r.1 r.2

/-- The budget of a scan (R36). -/
def scanBudget : Nat := 16

/-- A scan (R36): the scan index is written into the anchor when it has moved. -/
def scan (s : State) : State :=
  let r := scanFuel 40 scanBudget s
  if r.1 < scanBudget then anchorWrite 0x108 [BitVec.ofNat 32 r.2.ciu.scan] r.2 else r.2

/-- The CIU's handling of a frame start (R36): it scans in RUNNING alone. -/
def ciuFrameStart (s : State) : State := if s.smp.dev = .running then scan s else s

/-- A reset of the CIU (R53). -/
def ciuReset (s : State) : State := s.onCiu fun c => { c with scan := 0, refusing := false }

/-- The CIU's handling of the frame start delivered to it, the raw levels on the console line pins being these. -/
def ciuHandling (levels : BitVec 8) (s : State) : State :=
  if s.ciu.frameDue then ciuFrameStart (setLevels levels (s.onCiu fun c => { c with frameDue := false }))
  else setLevels levels s

/-- A scan and a host write of EMPTY into record i meet (R33): no row of the table, an input from outside that falls within
the scan. With `hostFirst` the host's write is taken first, and the scan finds EMPTY. Otherwise the scan reads the state
word first and acts on the record as read: where the part then writes the state word, TAKEN or DONE, that write replaces the
host's EMPTY; where it does not, as on a record that stops the scan, the EMPTY stands after it. -/
def scanMeetsRetract (levels : BitVec 8) (i : Nat) (hostFirst : Bool) (s : State) : State :=
  if hostFirst then ciuHandling levels (s.hostRetract i)
  else
    let t := ciuHandling levels s
    if t.mem.word (cueOffset s i) = s.mem.word (cueOffset s i) then t.hostRetract i else t

/-! ## Rows -/

/-- Row CIU_SCAN (R36): the CIU handles the frame start delivered to it. `levels` are the raw levels on the console line
pins, which a CONSOLE_SET of the scan samples. -/
def execCiuScan (levels : BitVec 8) (s : State) : Host.Outcome State Fault Refusal :=
  .next (ciuHandling levels s)

/-- Row PLAY_CLIP (R93): taken by the CLE, the result written to its origin. -/
def execPlayClip (h : Handover) (p : ClipPayload) (s : State) : Host.Outcome State Fault Refusal :=
  .next (writeHandover h (takeClip h RunSlots.none p s))

/-- Row POST_MESSAGE (R110, R111): taken by the MSU, the result written to its origin. -/
def execPostMessage (h : Handover) (p : MessagePayload) (s : State) : Host.Outcome State Fault Refusal :=
  .next (writeHandover h (takeMessage h RunSlots.none p s))

/-- Row WITHDRAW (R49). -/
def execWithdraw (t : CueTake) (target entry : BitVec 8) (tag : Tag) (s : State) :
    Host.Outcome State Fault Refusal :=
  .next (takeAndWrite t (fun s => let r := takeWithdraw target entry tag RunSlots.none s; (r.1, r.2.2)) s)

/-- Row LOAD_LAYOUT (R57). -/
def execLoadLayout (t : CueTake) (bank : BitVec 8) (offset : Word) (s : State) : Host.Outcome State Fault Refusal :=
  .next (takeAndWrite t (takeLoadLayout bank offset) s)

/-- Row SELECT_LAYOUT (R61, R62). -/
def execSelectLayout (t : CueTake) (bank : BitVec 8) (s : State) : Host.Outcome State Fault Refusal :=
  .next (takeAndWrite t (takeSelectLayout bank) s)

/-- Row SPONSOR_WRITE (R124). -/
def execSponsorWrite (t : CueTake) (entry : BitVec 8) (offset : Word) (s : State) :
    Host.Outcome State Fault Refusal :=
  .next (takeAndWrite t (takeSponsorWrite entry offset) s)

/-- Row SPONSOR_ACTIVATE (R125). -/
def execSponsorActivate (t : CueTake) (entry : BitVec 8) (s : State) : Host.Outcome State Fault Refusal :=
  .next (takeAndWrite t (takeActivate entry) s)

/-- Row SPONSOR_RETIRE (R125). -/
def execSponsorRetire (t : CueTake) (entry : BitVec 8) (s : State) : Host.Outcome State Fault Refusal :=
  .next (takeAndWrite t (takeRetire entry) s)

/-- Row GROUP_ENABLE (R127). -/
def execGroupEnable (t : CueTake) (group : BitVec 8) (s : State) : Host.Outcome State Fault Refusal :=
  .next (takeAndWrite t (takeEnable group) s)

/-- Row GROUP_DISABLE (R127). -/
def execGroupDisable (t : CueTake) (group : BitVec 8) (s : State) : Host.Outcome State Fault Refusal :=
  .next (takeAndWrite t (takeDisable group) s)

/-- Row GROUP_CLEAR (R128). -/
def execGroupClear (t : CueTake) (group : BitVec 8) (s : State) : Host.Outcome State Fault Refusal :=
  .next (takeAndWrite t (takeGroupClear group) s)

/-- Row CLOCK_SET (R158). -/
def execClockSet (t : CueTake) (p : ClockSetPayload) (s : State) : Host.Outcome State Fault Refusal :=
  .next (takeAndWrite t (takeStatus (setClock p)) s)

/-- Row CLOCK_RUN_START (R160): action START 1. -/
def execClockRunStart (t : CueTake) (channel : BitVec 8) (s : State) : Host.Outcome State Fault Refusal :=
  .next (takeAndWrite t (takeStatus (runClock channel 1 0)) s)

/-- Row CLOCK_RUN_STOP (R160): action STOP 2. -/
def execClockRunStop (t : CueTake) (channel : BitVec 8) (s : State) : Host.Outcome State Fault Refusal :=
  .next (takeAndWrite t (takeStatus (runClock channel 2 0)) s)

/-- Row CLOCK_RUN_RESET (R160): action RESET 3. -/
def execClockRunReset (t : CueTake) (channel : BitVec 8) (s : State) : Host.Outcome State Fault Refusal :=
  .next (takeAndWrite t (takeStatus (runClock channel 3 0)) s)

/-- Row CLOCK_RUN_ADJUST (R162): action ADJUST 4. -/
def execClockRunAdjust (t : CueTake) (channel : BitVec 8) (delta : Word) (s : State) :
    Host.Outcome State Fault Refusal :=
  .next (takeAndWrite t (takeStatus (runClock channel 4 delta)) s)

/-- Row CONSOLE_SET (R164): `levels` are the raw levels on the console line pins. -/
def execConsoleSet (t : CueTake) (levels : BitVec 8) (p : ConsolePayload) (s : State) :
    Host.Outcome State Fault Refusal :=
  .next (takeAndWrite t (takeStatus (setConsole p)) (setLevels levels s))

/-- Row TRIGGER_ARM (R171). -/
def execTriggerArm (t : CueTake) (p : Payload) (s : State) : Host.Outcome State Fault Refusal :=
  .next (takeAndWrite t (takeTriggerArm p) s)

/-- Row TRIGGER_DISARM (R171). -/
def execTriggerDisarm (t : CueTake) (entry : BitVec 8) (s : State) : Host.Outcome State Fault Refusal :=
  .next (takeAndWrite t (takeTriggerDisarm entry) s)

end Sys2Proof.Machine
end

