-- ==== Sys2Proof/Machine/Canvas.lean ====
section
/-! DEFINITION. What the four canvases show (chapter 5): the pixels of the frame in progress as a function of the view,
the answers and the samples that the CLO holds, and of show memory as it stands (R83 to R90). -/

namespace Sys2Proof.Machine

/-! ## Strings (R88 to R90), as character codes -/

/-- The code of a decimal digit. -/
def digitCode (d : Nat) : Nat := 0x30 + d

/-- The space. -/
def spaceCode : Nat := 0x20
/-- The minus sign. -/
def minusCode : Nat := 0x2D
/-- The full stop. -/
def stopCode : Nat := 0x2E
/-- The colon. -/
def colonCode : Nat := 0x3A

/-- The decimal places of a number, at most k + 1 of them. -/
def decimalFuel : Nat → Nat → List Nat
  | 0, n => [digitCode (n % 10)]
  | k + 1, n => if n < 10 then [digitCode n] else decimalFuel k (n / 10) ++ [digitCode (n % 10)]

/-- A number in decimal with no leading zeros; 0 is one digit (R90). -/
def decimal (n : Nat) : List Nat := decimalFuel n n

/-- The string of a SCORE box (R88). -/
def scoreString (digits : Nat) (zeroPad : Bool) (v : Int) : List Nat :=
  if (10 ^ digits - 1 : Int) < v then List.replicate digits (digitCode 9)
  else if v < -(10 ^ (digits - 1) - 1 : Int) then minusCode :: List.replicate (digits - 1) (digitCode 9)
  else if 0 ≤ v then
    let ds := decimal v.toNat
    List.replicate (digits - ds.length) (if zeroPad then digitCode 0 else spaceCode) ++ ds
  else
    let ds := decimal v.natAbs
    if zeroPad then minusCode :: List.replicate (digits - 1 - ds.length) (digitCode 0) ++ ds
    else List.replicate (digits - 1 - ds.length) spaceCode ++ minusCode :: ds

/-- A count divided by a unit: rounded up for COUNT_DOWN, down otherwise (R89). -/
def rounded (mode : ClockMode) (count unit : Nat) : Nat :=
  match mode with
  | .countDown => (count + unit - 1) / unit
  | _ => count / unit

/-- The minutes-and-seconds string of rounded seconds (R89). -/
def mssString (seconds : Nat) : List Nat :=
  let c := min seconds 35999
  decimal (c / 60) ++ [colonCode, digitCode (c % 60 / 10), digitCode (c % 60 % 10)]

/-- The string of the format MMSS_TENTHS (R89): the choice is made on the rounded tenths. -/
def tenthsString (mode : ClockMode) (count : Nat) : List Nat :=
  let t := rounded mode count 100
  if 600 ≤ t then mssString (rounded mode count 1000) else decimal (t / 10) ++ [stopCode, digitCode (t % 10)]

/-- The string of a CLOCK box (R89, R90): a TALLY channel shows its count under every format. -/
def clockString (format : ClockFormat) (mode : ClockMode) (count : Nat) : List Nat :=
  match mode with
  | .tally => decimal count
  | _ =>
    match format with
    | .mmssTenths => tenthsString mode count
    | .seconds => decimal (rounded mode count 1000)
    | .mmss => mssString (rounded mode count 1000)
    | .tally => decimal count

/-! ## Glyphs (R85) -/

/-- A glyph at a scale with its top-left pixel at (x, y) paints the pixel (px, py). -/
def glyphPaints (m : Memory) (font code scale : Nat) (x y px py : Int) : Bool :=
  decide (x ≤ px) && decide (px < x + (glyphWidth m font code * scale : Nat)) &&
    decide (y ≤ py) && decide (py < y + (glyphHeight m font code * scale : Nat)) &&
    glyphBit m font code ((px - x).toNat / scale) ((py - y).toNat / scale)

/-- A string whose first glyph has its top-left pixel at (x, y) paints the pixel (px, py). -/
def stringPaints (m : Memory) (font scale : Nat) (y px py : Int) : List Nat → Int → Bool
  | [], _ => false
  | c :: cs, x =>
    glyphPaints m font c scale x y px py ||
      stringPaints m font scale y px py cs (x + (glyphWidth m font c * scale : Nat))

/-! ## The base of a zone (R83, R84, R117) -/

/-- The colour of a pixel word: bits 24 to 31 are not read (R84). -/
def pixelColour (w : Word) : Colour := w.setWidth 24

/-- A pixel of a stored frame placed at the zone's top-left: the fill where the frame does not cover (R83, R84). -/
def framePixel (m : Memory) (offset width height : Nat) (fill : Colour) (x y : Nat) : Colour :=
  if x < width ∧ y < height then pixelColour (m.word (offset + 4 * (y * width + x))) else fill

/-- The left edge of a message's first glyph in a zone of this width (R117). -/
def textLeft (a : MessageAnswer) (width : Nat) : Int :=
  match a.crawl with
  | some q => (width : Int) - q
  | none => if a.textWidth ≤ width then ((width - a.textWidth) / 2 : Nat) else 0

/-- The top of every glyph of a message in a zone of this height (R117). -/
def textTop (a : MessageAnswer) (height : Nat) : Int :=
  if a.textHeight ≤ height then ((height - a.textHeight) / 2 : Nat) else 0

/-- A pixel of a message in a zone of this size (R83, R117): the text is read again from show memory. -/
def messagePixel (m : Memory) (font : Nat) (a : MessageAnswer) (width height x y : Nat) : Colour :=
  match a.phase with
  | .off => a.background
  | .on =>
    if stringPaints m font 1 (textTop a height) x y (textCodes m a.textOffset a.textLength) (textLeft a width) then
      a.foreground
    else a.background

/-- The base of a zone at a pixel counted from its top-left (R83). -/
def basePixel (m : Memory) (font : Nat) (d : ZoneDef) (a : Answer) (x y : Nat) : Colour :=
  match a with
  | .clip offset width height _ => framePixel m offset width height d.fill x y
  | .creative _ _ offset width height => framePixel m offset width height d.fill x y
  | .message b => messagePixel m font b d.width d.height x y
  | .nothing => d.fill

/-! ## Field boxes (R55, R86) -/

/-- The string of a box from the values sampled for the frame (R86). -/
def boxString (w : FrameWork) (b : FieldBox) : List Nat :=
  match b.source with
  | .score f digits zeroPad => scoreString digits zeroPad ((w.scores.lookup f).getD 0).toInt
  | .clock c format =>
    match w.clocks.find? fun k => k.channel == c with
    | some k => clockString format k.mode k.count
    | none => []

/-- A box is drawn while the head level of its zone is greater than its cover level (R55, R86). -/
def boxDrawn (level : Nat) (b : FieldBox) : Bool := decide (b.cover < level)

/-- The boxes of a zone painted over a colour, box 0 first (R86). -/
def boxesOver (m : Memory) (font : Nat) (w : FrameWork) (v : ViewEntry) (x y : Nat) (base : Colour) : Colour :=
  v.defn.boxes.foldl (fun c b =>
    if boxDrawn v.level b && stringPaints m font b.scale b.y x y (boxString w b) b.x then b.colour else c) base

/-! ## The canvases (R83, R86) -/

/-- The answer of a claimant in a frame: nothing when it gave none, or when there is no claimant. -/
def answerOf (answers : List (Claimant × Answer)) (who : Option Claimant) : Answer :=
  match who with
  | none => .nothing
  | some w => (answers.lookup w).getD .nothing

/-- A pixel of a canvas lies in a zone of the view. -/
def ViewEntry.covers (v : ViewEntry) (link : Fin 4) (x y : Nat) : Bool :=
  v.defn.link == link && decide (v.defn.x ≤ x) && decide (x < v.defn.x + v.defn.width) &&
    decide (v.defn.y ≤ y) && decide (y < v.defn.y + v.defn.height)

/-- Black. -/
def black : Colour := 0

/-- The pixel (x, y) of the canvas of a link for a frame in progress (R83, R86). -/
def framePixelOf (m : Memory) (font : Nat) (w : FrameWork) (link : Fin 4) (x y : Nat) : Colour :=
  if w.content then
    match w.view.find? fun v => v.covers link x y with
    | none => black
    | some v =>
      boxesOver m font w v (x - v.defn.x) (y - v.defn.y)
        (basePixel m font v.defn (answerOf w.answers v.head) (x - v.defn.x) (y - v.defn.y))
  else black

/-- The pixel (x, y) of the canvas that a link carries (R83, R86). It is black when no frame has been composed, and, from a
reset that discards the frame in progress until the next frame start, black at once: the model's choice (DESIGN CHOICE,
log 35), since R87 speaks of the canvas from the next frame start on. -/
def canvasPixel (s : State) (link : Fin 4) (x y : Nat) : Colour :=
  match s.clo.work with
  | none => black
  | some w => framePixelOf s.mem s.clo.fontOffset.toNat w link x y

end Sys2Proof.Machine
end

