-- ==== Sys2Proof/Machine/Clo.lean ====
section
/-! DEFINITION. The compositor's exchanges (chapter 5): the panel links, the shown report, the view, the asked set, the
samples and the content requests. What the canvases then show is in Machine/Canvas.lean. -/

namespace Sys2Proof.Machine

/-! ## The panel links (R77, R78) -/

/-- The close of an ended frame on one link (R78). -/
def PanelLink.close (l : PanelLink) : PanelLink :=
  if l.seen then { l with miss := 0, seen := false }
  else if !l.up then { l with miss := 3 }
  else if 2 ≤ l.miss then { l with up := false, miss := 3 }
  else { l with miss := l.miss + 1 }

/-- A link goes DOWN at the close of the ended frame (R78). -/
def PanelLink.goesDown (l : PanelLink) : Bool := l.up && !l.seen && decide (2 ≤ l.miss)

/-- Report a change of a link's state (R77, R78): LINK_STATE, and the link states in the anchor. -/
def reportLinks (s : State) : State := raise .linkState (anchorWrite 0x124 [linkWord s.clo.links] s)

/-- Change one link. -/
def onLink (n : Fin 4) (f : PanelLink → PanelLink) (s : State) : State :=
  s.onClo fun c => { c with links := upd c.links n f }

/-- Close the ended frame on every link (R78). -/
def closeLinks (s : State) : State :=
  let falls := s.clo.links.toList.any PanelLink.goesDown
  let s := s.onClo fun c => { c with links := c.links.map PanelLink.close }
  if falls then reportLinks s else s

/-- An answer on a link (R77). -/
def answerLink (n : Fin 4) (s : State) : State :=
  if s.clo.links[n].up then onLink n (fun l => { l with seen := true }) s
  else reportLinks (onLink n (fun _ => { up := true, miss := 0, seen := true }) s)

/-! ## The shown report (R80) -/

/-- The shown report of a frame, with the links as the close left them (R80). -/
def reportFor (w : FrameWork) (links : Vector PanelLink 4) : List ReportEntry :=
  w.view.map fun v => { zone := v.defn.id, head := v.head, lit := links[v.defn.link].up, drawn := answerOf w.answers v.head }

/-- Issue the shown report for frame f to one claimant (R80). -/
def issueReport (f : Frame) (report : List ReportEntry) (who : Claimant) (s : State) : State :=
  match who with
  | .clip k => clipReport k f report s
  | .message k => messageReport k f report s
  | .group g => groupReport g f report s

/-- The first act of a frame start (R79): close the links, issue the report to the asked set, empty the asked set. -/
def closeAndReport (s : State) : State :=
  let s := closeLinks s
  match s.clo.work with
  | none => s
  | some w =>
    let report := reportFor w s.clo.links
    (inFreeOrder s.clo.asked (issueReport w.number report) s).onClo fun c => { c with asked := [] }

/-! ## The view, the asked set and the samples (R81) -/

/-- All claimants, in the order of their kinds and numbers. -/
def allClaimants : List Claimant :=
  (List.finRange 8).map .clip ++ (List.finRange 8).map .message ++ (List.finRange 8).map .group

/-- A claimant heads a zone of a view. -/
def headsIn (view : List ViewEntry) (who : Claimant) : Bool := view.any fun v => v.head == some who

/-- The asked set (R81): every head of the view, and every group that holds a claim in a zone of the active layout. -/
def askedSet (view : List ViewEntry) (z : Zar) : List Claimant :=
  allClaimants.filter fun w => headsIn view w || (w.isGroup && holdsAny z w)

/-- The zones of a view that a claimant heads (R82). -/
def headedZones (view : List ViewEntry) (who : Claimant) : ZoneMask :=
  view.foldl (fun m v => if v.head == some who then m ||| zoneBit v.defn.id else m) 0

/-- A view has a box of a score field. -/
def usesField (view : List ViewEntry) (f : Fin 32) : Bool :=
  view.any fun v => v.defn.boxes.any fun b =>
    match b.source with
    | .score g _ _ => g == f
    | .clock .. => false

/-- A view has a box of a clock channel. -/
def usesChannel (view : List ViewEntry) (c : Fin 4) : Bool :=
  view.any fun v => v.defn.boxes.any fun b =>
    match b.source with
    | .score .. => false
    | .clock d _ => d == c

/-- The score table words sampled for a view: each field its boxes name, once (R81). -/
def sampleScores (view : List ViewEntry) (s : State) : List (Fin 32 × Word) :=
  ((List.finRange 32).filter (usesField view)).map fun f => (f, s.mem.word (s.clo.scoreOffset.toNat + 4 * f.val))

/-- The clock channels sampled for a view: each channel its boxes name, once (R81). -/
def sampleClocks (view : List ViewEntry) (s : State) : List ClockSample :=
  ((List.finRange 4).filter (usesChannel view)).map fun c =>
    { channel := c, count := s.ccu.channels[c].count, mode := s.ccu.channels[c].mode, state := s.ccu.channels[c].state }

/-! ## Content requests (R82) -/

/-- One content request for frame f, naming these zones: the answer and the state after it. -/
def contentRequest (f : Frame) (zones : ZoneMask) (who : Claimant) (s : State) : Answer × State :=
  match who with
  | .clip k => clipRequest k f zones s
  | .message k => messageRequest k f zones s
  | .group g => groupRequest g f s

/-- Send the content requests to a list of claimants, one after another, keeping each answer. -/
def askAll (f : Frame) (view : List ViewEntry) (ws : List Claimant) (s : State) : List (Claimant × Answer) × State :=
  ws.foldl (fun acc w =>
    let r := contentRequest f (headedZones view w) w acc.2
    (acc.1 ++ [(w, r.1)], r.2)) ([], s)

/-- The second act of a frame start (R79, R81, R82): view, asked set, samples, requests; the frame is then composed from
what is kept here. While the device does not run, nothing is asked or sampled and the frame is black (R87). -/
def viewAndCompose (f : Frame) (s : State) : State :=
  let view := viewOf s.zar
  if s.smp.dev.live then
    let asked := askedSet view s.zar
    let scores := sampleScores view s
    let clocks := sampleClocks view s
    let r := askAll f view (freeOrder s.free asked) s.nextFree
    r.2.onClo fun c =>
      { c with
        work := some { number := f, content := true, view := view, answers := r.1, scores := scores, clocks := clocks },
        asked := asked }
  else
    s.onClo fun c =>
      { c with work := some { number := f, content := false, view := view, answers := [], scores := [], clocks := [] },
               asked := [] }

/-- The CLO's handling of the frame start that begins frame f (R79). -/
def cloFrameStart (f : Frame) (s : State) : State := viewAndCompose f (closeAndReport s)

/-- A soft or link reset of the CLO (R87): the frame in progress is discarded, and the kept offsets remain. What the links
carry until the next frame start is log 35. -/
def cloReset (s : State) : State :=
  s.onClo fun c => { c with work := none, asked := [], links := Vector.replicate 4 PanelLink.reset }

/-! ## Rows -/

/-- Row CLO_FRAME_START (R79): the CLO handles the frame start delivered to it. -/
def execCloFrameStart (s : State) : Host.Outcome State Fault Refusal :=
  .next (if s.clo.frameDue then cloFrameStart s.ftu.frame (s.onClo fun c => { c with frameDue := false }) else s)

/-- Row LINK_DOWN (R78): the third ended frame without an answer is closed on a link. The CLO's frame start brings it
about within its own handling; as a command it acts on a link that the frame start now due would find so. -/
def execLinkDown (n : Fin 4) (s : State) : Host.Outcome State Fault Refusal :=
  .next (if s.clo.frameDue && s.clo.links[n].goesDown then reportLinks (onLink n PanelLink.close s) else s)

/-- Row LINK_ANSWER (R77): an answer arrives on a link. -/
def execLinkAnswer (n : Fin 4) (s : State) : Host.Outcome State Fault Refusal := .next (answerLink n s)

end Sys2Proof.Machine
end

