-- ==== Sys2Proof/Machine/Ftu.lean ====
section
/-! DEFINITION. The frame timing unit (chapter 2): frame starts and their delivery, the settings, placement by period, the
lock states, edges, proposals, holdover. Time is the tick that a timed command carries. -/

namespace Sys2Proof.Machine

/-! ## Delivery of a frame start (R19) -/

/-- Deliver a frame start to each receiving block that acts on it: it waits there until the block handles it (R19). -/
def deliver (s : State) : State :=
  { s with
    smp := { s.smp with frameDue := true }, ciu := { s.ciu with frameDue := true },
    clo := { s.clo with frameDue := true }, msu := { s.msu with frameDue := true },
    plw := { s.plw with frameDue := true }, ccu := { s.ccu with frameDue := true },
    etu := { s.etu with frameDue := true } }

/-! ## Changes of lock state (R29) -/

/-- Write the reference state and the measured period into the anchor (R29). -/
def writeReference (s : State) : State := anchorWrite 0x118 s.ftu.refWords s

/-- Report a change of lock state: REF_STATE, and the reference state in the anchor (R29). -/
def reportLock (s : State) : State := raise .refState (writeReference s)

/-- The FTU with its acquisition state cleared, in FREE (R22, R30). -/
def Ftu.freed (f : Ftu) : Ftu :=
  { f with lock := .free, lockedPeriod := none, measured := 0, runCount := 0, runOpen := false, slipCount := 0,
           lastEdge := none }

/-- The FTU on entry to ACQUIRING (R23): the locked period and the measured period are kept. -/
def Ftu.acquiring (f : Ftu) : Ftu := { f with lock := .acquiring, runCount := 0, runOpen := false, lastEdge := none }

/-- Enter FREE by a disabled reference (R22). -/
def enterFree (s : State) : State := reportLock (s.onFtu Ftu.freed)

/-- Enter ACQUIRING (R23). -/
def enterAcquiring (s : State) : State := reportLock (s.onFtu Ftu.acquiring)

/-! ## Settings (R20) -/

/-- The three settings read from the anchor (R20). -/
def readSettings (s : State) : State :=
  s.onFtu fun f =>
    { f with freeRun := clampNat Config.minFreeRun Config.maxFreeRun (anchorWord s 0x30).toNat,
             refEnable := anchorWord s 0x34 != 0, phase := anchorWord s 0x38 }

/-- Act on the reference enable read or kept (R20). -/
def actOnEnable (s : State) : State :=
  match s.ftu.lock with
  | .free => if s.ftu.refEnable then enterAcquiring s else s
  | _ => if s.ftu.refEnable then s else enterFree s

/-- What a frame start leaves for a start that succeeds at it (R20, log 11): whether REF_STATE was pending, when the kept
enable is about to take the FTU from FREE into ACQUIRING; none otherwise. -/
def markKeptEntry (s : State) : State :=
  s.onFtu fun f =>
    { f with keptEntry :=
        if !s.smp.inForce && f.lock == .free && f.refEnable then some (s.smp.events.getLsbD Event.refState.bit)
        else none }

/-- The FTU's settings at a frame start (R20): read while an anchor is in force, kept otherwise, then acted on. -/
def settingsAtStart (s : State) : State :=
  actOnEnable (if s.smp.inForce then readSettings (markKeptEntry s) else markKeptEntry s)

/-! ## Placement by period (R21) -/

/-- The period in use (R21). -/
def Ftu.periodInUse (f : Ftu) : Nat := f.lockedPeriod.getD f.freeRun

/-- The lock state places frame starts by period (R21). -/
def LockState.byPeriod : LockState → Bool
  | .locked => false
  | _ => true

/-- The tick at which the next frame start by period falls (R21). -/
def Ftu.periodTick (f : Ftu) : Nat := f.lastStart + f.periodInUse

/-- Put a frame start into an empty schedule. -/
def scheduleByPeriod (s : State) : State := s.onFtu fun f => { f with schedule := [⟨f.periodTick, true⟩] }

/-- A frame start is issued at a tick (R19): the number advances, the tick becomes the last frame start, the number is
written into the anchor, every block is delivered the frame start, and the FTU handles it by R20. The next placement by
period follows. -/
def beginFrame (tick : Nat) (s : State) : State :=
  let s := s.onFtu fun f => { f with frame := f.frame + 1, lastStart := tick }
  settingsAtStart (deliver (anchorWrite 0x114 [s.ftu.frame] s))

/-- The placement that follows a frame start just issued (R21): the tick of placing is the tick of issue, so a period
of at least 1 puts the next frame start in the future. -/
def placeAfterIssue (s : State) : State :=
  if s.ftu.lock.byPeriod && s.ftu.schedule.isEmpty then scheduleByPeriod s else s

/-- Issue a frame start at a tick (R19 to R21). -/
def issueAt (tick : Nat) (s : State) : State := placeAfterIssue (beginFrame tick s)

/-- Place the next frame start by period at a tick (R21): nothing unless the schedule is empty; at once if its tick has
already passed. -/
def placeByPeriod (now : Nat) (s : State) : State :=
  if s.ftu.lock.byPeriod && s.ftu.schedule.isEmpty then
    if s.ftu.periodTick < now then issueAt now s else scheduleByPeriod s
  else s

/-! ## Row FRAME_START (R19) -/

/-- The tick count reaches the earliest scheduled frame start, which is removed from the schedule and issued (R19). A tick
count already past it issues it at the present tick. -/
def frameStart (s : State) : State :=
  match s.ftu.schedule with
  | [] => s
  | x :: rest =>
    let tick := max s.ftu.tick x.tick
    issueAt tick (s.onFtu fun f => { f with tick := tick, schedule := rest })

/-! ## Locked operation (R24 to R26) -/

/-- Half a locked period, rounded down. -/
def halfPeriod (p : Nat) : Nat := p / 2

/-- The guard tick (R24). -/
def Ftu.guardTick (f : Ftu) : Nat :=
  (f.schedule.map Sched.tick).foldl max f.lastStart + halfPeriod (f.lockedPeriod.getD 0)

/-- The phase offset used for a proposal: clamped into 0 to the locked period minus 1 (R26). -/
def Ftu.offset (f : Ftu) : Nat := min f.phase.toNat (f.lockedPeriod.getD 0 - 1)

/-- Insert a frame start into the schedule in time order (R19). -/
def insertSched (x : Sched) (xs : List Sched) : List Sched :=
  xs.takeWhile (fun y => y.tick ≤ x.tick) ++ x :: xs.dropWhile (fun y => y.tick ≤ x.tick)

/-- An edge in LOCKED proposes a frame start at its own tick plus the phase offset (R24, R26): taken at or after the guard
tick, and issued at once if its tick has already been reached. -/
def propose (edge : Nat) (s : State) : State :=
  let p := edge + s.ftu.offset
  if p < s.ftu.guardTick then s
  else if p ≤ s.ftu.tick then issueAt s.ftu.tick s
  else s.onFtu fun f => { f with schedule := insertSched ⟨p, false⟩ f.schedule }

/-- Enter LOCKED at an edge (R24): the measured period becomes the locked period, the frame starts placed by period are
cancelled, and the edge proposes. -/
def enterLocked (edge : Nat) (s : State) : State :=
  let s := s.onFtu fun f =>
    { f with lock := .locked, lockedPeriod := some f.measured, slipCount := 0,
             schedule := f.schedule.filter fun x => !x.byPeriod }
  propose edge (reportLock s)

/-- A difference of two tick counts, whichever is greater. -/
def apart (a b : Nat) : Nat := max a b - min a b

/-- An interval differs from a period by no more than 0.1% (R23, R25). -/
def within (interval period : Nat) : Bool := decide (apart interval period * 1000 ≤ period)

/-- The acquisition state after a period is accepted in ACQUIRING (R23): a matching one adds to the run, another starts
one. -/
def Ftu.accept (f : Ftu) (period : Nat) : Ftu :=
  if f.runOpen && within period f.measured then { f with measured := period, runCount := f.runCount + 1 }
  else { f with measured := period, runCount := 0, runOpen := true }

/-- A period lies in the range that ACQUIRING accepts (R23). -/
def acceptable (period : Nat) : Bool := decide (Config.minPeriod ≤ period) && decide (period ≤ Config.maxPeriod)

/-- A run of four matching periods enters LOCKED (R23). -/
def lockRun : Nat := 4

/-- An edge in ACQUIRING (R23). -/
def edgeAcquiring (edge : Nat) (s : State) : State :=
  match s.ftu.lastEdge with
  | none => s.onFtu fun f => { f with lastEdge := some edge }
  | some last =>
    let s := s.onFtu fun f => { f with lastEdge := some edge }
    if acceptable (edge - last) then
      let s := s.onFtu fun f => f.accept (edge - last)
      if s.ftu.runCount = lockRun then enterLocked edge s else writeReference s
    else s.onFtu fun f => { f with runCount := 0, runOpen := false }

/-- An edge in LOCKED (R25). -/
def edgeLocked (edge : Nat) (s : State) : State :=
  let interval := edge - s.ftu.lastEdge.getD edge
  if within interval (s.ftu.lockedPeriod.getD 0) then
    propose edge (writeReference (s.onFtu fun f =>
      { f with measured := interval, slipCount := 0, lastEdge := some edge }))
  else if s.ftu.slipCount = 0 then propose edge (s.onFtu fun f => { f with slipCount := 1, lastEdge := some edge })
  else placeByPeriod s.ftu.tick (enterAcquiring s)

/-- A reference edge is handled according to the lock state (R22, R23, R25, R28). -/
def referenceEdge (edge : Nat) (s : State) : State :=
  match s.ftu.lock with
  | .free => s
  | .acquiring => edgeAcquiring edge s
  | .locked => edgeLocked edge s
  | .holdover => placeByPeriod s.ftu.tick (enterAcquiring s)

/-- The tick count reaches a tick, and never goes back. -/
def reachTick (tick : Nat) (s : State) : State := s.onFtu fun f => { f with tick := max f.tick tick }

/-! ## Holdover (R27) -/

/-- The tick at which the holdover interval runs out: one and a half locked periods after the last edge (R27). -/
def Ftu.holdoverTick (f : Ftu) : Nat :=
  f.lastEdge.getD 0 + (f.lockedPeriod.getD 0 + halfPeriod (f.lockedPeriod.getD 0))

/-- Enter HOLDOVER (R27): the locked period is kept, and the next frame start is placed by period at once. -/
def enterHoldover (s : State) : State :=
  placeByPeriod s.ftu.tick (reportLock (s.onFtu fun f => { f with lock := .holdover, slipCount := 0 }))

/-! ## The present tick at a command that carries none (log 3) -/

/-- The latest tick that the count can have come to with no event of the FTU: that of the earliest scheduled frame start
(R19), or, in LOCKED with none scheduled, the end of the holdover interval (R27). -/
def Ftu.nextEvent (f : Ftu) : Option Nat :=
  match f.schedule with
  | x :: _ => some x.tick
  | [] => if f.lock = .locked then some f.holdoverTick else none

/-- The present tick after `n` more ticks, never past the FTU's next event. -/
def Ftu.tickAfter (f : Ftu) (n : Nat) : Nat :=
  match f.nextEvent with
  | some e => max f.tick (min e (f.tick + n))
  | none => f.tick + n

/-- The tick count comes to the present at a command that carries no tick: how far it has run is a free value. -/
def reachPresent (s : State) : State := reachTick (s.ftu.tickAfter (Config.ticksSince s.free)) s.nextFree

/-! ## Resets (R30) -/

/-- A soft or link reset of the FTU at the present tick (R30): FREE, the schedule cancelled, the next frame start placed
by period, or issued at once when its tick has passed. The frame number and the settings are kept. -/
def ftuReset (s : State) : State :=
  placeByPeriod s.ftu.tick (s.onFtu fun f => { f.freed with schedule := [] })

/-! ## The settings at a successful start (R20) -/

/-- The entry into ACQUIRING that the kept enable made at this frame start is taken back when the enable read at it is
disabled: the lock state is FREE, unchanged, and its REF_STATE is not raised (R20, R29). -/
def takeBackEntry (s : State) : State :=
  match s.ftu.keptEntry with
  | some was =>
    if s.ftu.lock == .acquiring && !s.ftu.refEnable then
      writeReference ((s.onFtu Ftu.freed).onSmp fun m =>
        { m with events := if was then m.events else m.events &&& ~~~(1#10 <<< Event.refState.bit) })
    else s
  | none => s

/-- The FTU reads its settings at the very frame start at which a start succeeds, and acts on the enable it reads alone
(R20): what the kept one did at this frame start is taken back, and the frame start it has placed by period for the frame
that begins is placed again. -/
def settingsAtSuccess (s : State) : State :=
  let s := actOnEnable (takeBackEntry (readSettings s))
  if s.ftu.lock.byPeriod then
    placeByPeriod s.ftu.tick (s.onFtu fun f => { f with schedule := f.schedule.filter fun x => !x.byPeriod })
  else s

/-! ## Rows -/

/-- Row FRAME_START (R19). -/
def execFrameStart (s : State) : Host.Outcome State Fault Refusal := .next (frameStart s)

/-- Row REFERENCE_EDGE (R25): an edge is stamped with the tick at which it arrives. -/
def execReferenceEdge (tick : Nat) (s : State) : Host.Outcome State Fault Refusal :=
  let s := reachTick tick s
  .next (referenceEdge s.ftu.tick s)

/-- The edge at a tick would bring the run count to 4 (R23, R24). -/
def Ftu.wouldLock (f : Ftu) (edge : Nat) : Bool :=
  f.lock == .acquiring &&
    match f.lastEdge with
    | none => false
    | some last => acceptable (edge - last) && (f.accept (edge - last)).runCount == lockRun

/-- Row ENTER_LOCKED (R24): the edge that brings the run count to 4. A reference edge brings it about within its own
handling; as a command it acts where its edge does so. -/
def execEnterLocked (tick : Nat) (s : State) : Host.Outcome State Fault Refusal :=
  let t := reachTick tick s
  .next (if t.ftu.wouldLock t.ftu.tick then edgeAcquiring t.ftu.tick t else s)

/-- Row HOLDOVER_EXPIRY (R27): the tick count reaches the end of the holdover interval in LOCKED. -/
def execHoldoverExpiry (s : State) : Host.Outcome State Fault Refusal :=
  .next (if s.ftu.lock = .locked then enterHoldover (reachTick s.ftu.holdoverTick s) else s)

end Sys2Proof.Machine
end

