-- ==== Sys2Proof/Machine/Smp.lean ====
section
/-! DEFINITION. The show memory port (chapter 1): the host's writes of the control window, the resets, start-up, halt and
the heartbeat watch. -/

namespace Sys2Proof.Machine

/-! ## AV_ANCHOR (R2, R6) -/

/-- The anchor in force ends (R6). -/
def endAnchor (s : State) : State := s.onSmp fun m => { m with inForce := false }

/-- The anchor offset of a written value: the low 12 bits are discarded (R2). -/
def anchorOffset (v : Word) : Word := (v >>> 12) <<< 12

/-- The device is stopped: HALTED or FAULTED (R2, R3). -/
def DevState.stopped : DevState → Bool
  | .halted => true
  | .faulted => true
  | _ => false

/-- A host write to AV_ANCHOR (R2): taken in HALTED and FAULTED, ignored otherwise. -/
def writeAnchorRegister (v : Word) (s : State) : State :=
  if s.smp.dev.stopped then endAnchor (s.onSmp fun m => { m with anchor := anchorOffset v }) else s

/-! ## Start, abandon, halt (R3, R12) -/

/-- Set or clear RUN. -/
def setRunBit (b : Bool) (s : State) : State := s.onSmp fun m => { m with run := b }

/-- Enter STARTING (R3, R6, R9): the anchor in force ends, the fault code becomes NONE, and the SMP waits for the next
frame start. -/
def enterStarting (s : State) : State :=
  setDev .starting ((endAnchor s).onSmp fun m => { m with fault := .none, frameDue := false })

/-- Abandon a start (R3). -/
def abandonStart (s : State) : State := setDev .halted (s.onSmp fun m => { m with fault := .none })

/-- Halt (R12): HALTED at once, then each block carries the halt out. -/
def haltDevice (s : State) : State := sruHalt (msuHalt (cleHalt (removeAllClaims (setDev .halted s))))

/-- A write that gives RUN a value (R3). In the combinations that cannot occur, only the bit is stored. -/
def writeRun (b : Bool) (s : State) : State :=
  if b = s.smp.run then s
  else
    let t := setRunBit b s
    match b, s.smp.dev with
    | true, .halted => enterStarting t
    | true, .faulted => enterStarting t
    | false, .starting => abandonStart t
    | false, .running => haltDevice t
    | false, .fallback => haltDevice t
    | _, _ => t

/-! ## Resets (R16 to R18) -/

/-- The SMP after a soft or link reset (R16): AV_ANCHOR is kept. -/
def Smp.afterReset (m : Smp) (cause : ResetCause) : Smp :=
  { m with run := false, dev := .halted, fault := .none, cause := cause, events := 0, enables := 0, missCount := 0,
           lastSeen := 0, inForce := false }

/-- A soft or link reset of the ZAR (R75). -/
def zarReset (s : State) : State := s.onZar fun _ => Zar.reset

/-- A soft or link reset (R16, R17): it reaches every block, and each resets as its chapter gives; the CCU goes on
(R169). -/
def resetDevice (cause : ResetCause) (s : State) : State :=
  ftuReset (reachPresent (etuReset (plwReset (sruReset (msuReset (cleReset (cloReset (zarReset (ciuReset
    (s.onSmp fun m => m.afterReset cause))))))))))

/-- A host write to AV_CONTROL (R3, R16): bit 1 is SOFT_RESET, and then the RUN value of the write is discarded; bit 0 is
RUN. -/
def writeControl (v : Word) (s : State) : State :=
  if v.getLsbD 1 then resetDevice .soft s else writeRun (v.getLsbD 0) s

/-- A power-on reset (R18, R31): every block takes its power-on values, and frame 0 begins at the present tick. Show memory,
the tick count, the raw console levels and the model's own fields `pending` and `free` go on (log 21). -/
def powerOn (s : State) : State :=
  let s := reachPresent s
  { State.reset with
    pending := s.pending, mem := s.mem, free := s.free,
    ftu := { Ftu.reset with tick := s.ftu.tick, lastStart := s.ftu.tick,
                            schedule := [⟨s.ftu.tick + Config.powerOnFreeRun, true⟩] },
    ccu := { Ccu.reset with levels := s.ccu.levels } }

/-! ## Events (R15) -/

/-- A host write to AV_EVENTS clears each flag whose bit is 1 in the written value (R15). -/
def clearEvents (v : Word) (s : State) : State :=
  s.onSmp fun m => { m with events := m.events &&& ~~~(v.setWidth 10) }

/-- A host write to AV_EVENT_ENABLE (R15). -/
def writeEnables (v : Word) (s : State) : State := s.onSmp fun m => { m with enables := v.setWidth 10 }

/-- A host write to an offset of the control window (R2): read-only registers and offsets that hold no register ignore
it. -/
def writeWindow (offset : BitVec 8) (v : Word) (s : State) : State :=
  if offset = 0x00#8 then writeAnchorRegister v s
  else if offset = 0x04#8 then writeControl v s
  else if offset = 0x0C#8 then clearEvents v s
  else if offset = 0x10#8 then writeEnables v s
  else s

/-! ## Start-up (R9 to R11) -/

/-- A region starts on a 4-byte boundary and lies inside show memory (R9 check 5). -/
def regionOk (offset : Word) (bytes : Nat) : Bool := decide (offset.toNat % 4 = 0) && insideMemory offset.toNat bytes

/-- Check 5 of R9, over the six regions. -/
def regionsOk (s : State) : Bool :=
  regionOk (anchorWord s 0x04) (64 * (anchorWord s 0x08).toNat) && regionOk (anchorWord s 0x0C) 128 &&
    regionOk (anchorWord s 0x10) fontBytes && regionOk (anchorWord s 0x14) layoutBytes &&
    regionOk (anchorWord s 0x18) (32 * (anchorWord s 0x1C).toNat) && regionOk (anchorWord s 0x24) 20608

/-- Check 6 of R9: the zones of the common layout record, when it is a valid layout against an empty bank 0. -/
def commonLayout (s : State) : Option (List ZoneDef) :=
  match readLayout s.mem (anchorWord s 0x14).toNat with
  | none => none
  | some zones => if (layoutConflict [] zones).isNone then some zones else none

/-- The checks of R9 in their order: the zones of bank 0, or the fault code of the first check that fails. -/
def startCheck (s : State) : Except FaultCode (List ZoneDef) :=
  let cues := (anchorWord s 0x08).toNat
  let n := (anchorWord s 0x1C).toNat
  if anchorWord s 0x00 ≠ 1 then .error .format
  else if cues < 16 ∨ 1024 < cues then .error .cueLength
  else if n < 64 ∨ 65536 < n then .error .logLength
  else if n ≤ (anchorWord s 0x20).toNat then .error .logIndex
  else if !regionsOk s then .error .region
  else
    match commonLayout s with
    | some zones => .ok zones
    | none => .error .commonLayout

/-- What the owners take and keep of the anchor at a successful start (R7, R10, R52, R93, R110, R127, R151). -/
def takeAnchor (s : State) : State :=
  { s with
    smp := { s.smp with inForce := true, anchorEpoch := s.smp.anchorEpoch + 1, missCount := 0,
                        lastSeen := anchorWord s 0x28 },
    ciu := { s.ciu with scan := 0, refusing := false, listOffset := anchorWord s 0x04,
                        listLength := (anchorWord s 0x08).toNat },
    clo := { s.clo with scoreOffset := anchorWord s 0x0C, fontOffset := anchorWord s 0x10 },
    plw := { s.plw with logOffset := anchorWord s 0x18, logLength := (anchorWord s 0x1C).toNat,
                        writeIndex := (anchorWord s 0x20).toNat, badIndex := none },
    sru := { s.sru with snapshotOffset := anchorWord s 0x24, afterHalt := false },
    cle := { s.cle with gate := .open_ },
    msu := { s.msu with afterHalt := false } }

/-- A successful start (R10): the anchor comes into force, the owners take it, bank 0 is loaded, the device is RUNNING,
and the part-written area is written in full. `settingsNow`: the FTU reads its settings at this very frame start, not at
the next one (R20 leaves open which). -/
def startSuccess (settingsNow : Bool) (zones : List ZoneDef) (s : State) : State :=
  let s := setDev .running (loadCommon zones (takeAnchor s))
  writePartArea (if settingsNow then settingsAtSuccess s else s)

/-- A failed start (R11). -/
def startFail (code : FaultCode) (s : State) : State :=
  raise .anchorFault (setDev .faulted (s.onSmp fun m => { m with run := false, fault := code }))

/-- The anchor check (R9 to R11). -/
def anchorCheck (settingsNow : Bool) (s : State) : State :=
  match startCheck s with
  | .error code => startFail code s
  | .ok zones => startSuccess settingsNow zones s

/-! ## Heartbeat watch (R13, R14) -/

/-- Set the miss count, writing it into the anchor when it changes (R8, R13). -/
def setMissCount (n : Nat) (s : State) : State :=
  if s.smp.missCount = n then s
  else anchorWrite 0x104 [BitVec.ofNat 32 n] (s.onSmp fun m => { m with missCount := n })

/-- Enter FALLBACK (R14): the CLE and the SRU carry it out; the other blocks read the device state. -/
def enterFallback (s : State) : State := sruFallback (cleFallback (raise .fallback (setDev .fallback s)))

/-- Return from FALLBACK to RUNNING (R13, R14): clips are taken again. -/
def resume (s : State) : State :=
  raise .resumed ((setDev .running s).onCle fun c => { c with gate := .open_ })

/-- The heartbeat window, clamped (R13). -/
def heartbeatWindow (s : State) : Nat := min 600 (anchorWord s 0x2C).toNat

/-- The miss count after an unchanged reading in RUNNING with a window (R13). -/
def nextMiss (miss window : Nat) : Nat := if miss < window then miss + 1 else miss

/-- The heartbeat counter has changed (R13). -/
def heartbeatChanged (s : State) : Bool := anchorWord s 0x28 != s.smp.lastSeen

/-- The SMP's handling of a frame start in RUNNING or FALLBACK (R13). -/
def heartbeatWatch (s : State) : State :=
  if heartbeatChanged s then
    let t := setMissCount 0 (s.onSmp fun m => { m with lastSeen := anchorWord s 0x28 })
    if s.smp.dev = .fallback then resume t else t
  else if heartbeatWindow s = 0 then setMissCount 0 s
  else if s.smp.dev = .running then
    let t := setMissCount (nextMiss s.smp.missCount (heartbeatWindow s)) s
    if heartbeatWindow s ≤ t.smp.missCount then enterFallback t else t
  else s

/-- The heartbeat watch would enter FALLBACK at the frame start now due (R13, R14). -/
def wouldFallBack (s : State) : Bool :=
  s.smp.dev == .running && !heartbeatChanged s && heartbeatWindow s != 0 &&
    decide (heartbeatWindow s ≤ nextMiss s.smp.missCount (heartbeatWindow s))

/-- The SMP has handled the frame start delivered to it. -/
def smpHandled (s : State) : State := s.onSmp fun m => { m with frameDue := false }

/-! ## Rows -/

/-- Row ANCHOR_WRITE (R2). -/
def execAnchorWrite (v : Word) (s : State) : Host.Outcome State Fault Refusal := .next (writeAnchorRegister v s)

/-- Row SET_RUN (R3): a write to AV_CONTROL with RUN 1. -/
def execSetRun (v : Word) (s : State) : Host.Outcome State Fault Refusal := .next (writeControl v s)

/-- Row HALT (R12): a write to AV_CONTROL with RUN 0. -/
def execHalt (v : Word) (s : State) : Host.Outcome State Fault Refusal := .next (writeControl v s)

/-- Row SOFT_RESET (R16): a write to AV_CONTROL with SOFT_RESET 1. -/
def execSoftReset (v : Word) (s : State) : Host.Outcome State Fault Refusal := .next (writeControl v s)

/-- Row EVENT_CLEAR (R15): a write to AV_EVENTS. -/
def execEventClear (v : Word) (s : State) : Host.Outcome State Fault Refusal := .next (clearEvents v s)

/-- Row EVENT_ENABLE_WRITE (R15): a write to AV_EVENT_ENABLE. -/
def execEventEnableWrite (v : Word) (s : State) : Host.Outcome State Fault Refusal := .next (writeEnables v s)

/-- Row CONTROL_WINDOW_WRITE (R2): a write to an offset of the control window. -/
def execControlWindowWrite (offset : BitVec 8) (v : Word) (s : State) : Host.Outcome State Fault Refusal :=
  .next (writeWindow offset v s)

/-- Row LINK_RESET (R17). -/
def execLinkReset (s : State) : Host.Outcome State Fault Refusal := .next (resetDevice .link s)

/-- Row POWER_ON_RESET (R18). -/
def execPowerOnReset (s : State) : Host.Outcome State Fault Refusal := .next (powerOn s)

/-- Row ANCHOR_CHECK (R9): the SMP handles, in STARTING, the frame start delivered to it. -/
def execAnchorCheck (settingsNow : Bool) (s : State) : Host.Outcome State Fault Refusal :=
  .next (if s.smp.frameDue && s.smp.dev == .starting then anchorCheck settingsNow (smpHandled s) else s)

/-- Row HEARTBEAT_WATCH (R13): the SMP handles, outside STARTING, the frame start delivered to it: with no watch in HALTED
and FAULTED. -/
def execHeartbeatWatch (s : State) : Host.Outcome State Fault Refusal :=
  .next (if s.smp.frameDue && s.smp.dev != .starting then
    (if s.smp.dev.live then heartbeatWatch (smpHandled s) else smpHandled s) else s)

/-- Row ENTER_FALLBACK (R14): the watch of the frame start now due finds the miss count at the window. The heartbeat watch
brings it about within its own handling; as a command it acts where that condition stands. -/
def execEnterFallback (s : State) : Host.Outcome State Fault Refusal :=
  .next (if s.smp.frameDue && wouldFallBack s then heartbeatWatch (smpHandled s) else s)

end Sys2Proof.Machine
end

