-- ==== Sys2Proof/Machine/Dispatch.lean ====
section
/-! DEFINITION. The meaning of every command: one arm per row of spec/opcode_table.json. -/

namespace Sys2Proof.Machine

/-- The effect of a command on everything but the queue. -/
def exec (i : Instr) (s : State) : Host.Outcome State Fault Refusal :=
  match i with
  | .anchorWrite value => Sys2Proof.Machine.execAnchorWrite value s
  | .setRun value => Sys2Proof.Machine.execSetRun value s
  | .halt value => Sys2Proof.Machine.execHalt value s
  | .softReset value => Sys2Proof.Machine.execSoftReset value s
  | .eventClear value => Sys2Proof.Machine.execEventClear value s
  | .eventEnableWrite value => Sys2Proof.Machine.execEventEnableWrite value s
  | .controlWindowWrite offset value => Sys2Proof.Machine.execControlWindowWrite offset value s
  | .linkReset => Sys2Proof.Machine.execLinkReset s
  | .powerOnReset => Sys2Proof.Machine.execPowerOnReset s
  | .frameStart => Sys2Proof.Machine.execFrameStart s
  | .referenceEdge tick => Sys2Proof.Machine.execReferenceEdge tick s
  | .enterLocked tick => Sys2Proof.Machine.execEnterLocked tick s
  | .holdoverExpiry => Sys2Proof.Machine.execHoldoverExpiry s
  | .anchorCheck settingsNow => Sys2Proof.Machine.execAnchorCheck settingsNow s
  | .heartbeatWatch => Sys2Proof.Machine.execHeartbeatWatch s
  | .enterFallback => Sys2Proof.Machine.execEnterFallback s
  | .ciuScan levels => Sys2Proof.Machine.execCiuScan levels s
  | .playClip from_ p => Sys2Proof.Machine.execPlayClip from_ p s
  | .postMessage from_ p => Sys2Proof.Machine.execPostMessage from_ p s
  | .withdraw take target entry tag => Sys2Proof.Machine.execWithdraw take target entry tag s
  | .loadLayout take bank offset => Sys2Proof.Machine.execLoadLayout take bank offset s
  | .selectLayout take bank => Sys2Proof.Machine.execSelectLayout take bank s
  | .sponsorWrite take entry offset => Sys2Proof.Machine.execSponsorWrite take entry offset s
  | .sponsorActivate take entry => Sys2Proof.Machine.execSponsorActivate take entry s
  | .sponsorRetire take entry => Sys2Proof.Machine.execSponsorRetire take entry s
  | .groupEnable take group => Sys2Proof.Machine.execGroupEnable take group s
  | .groupDisable take group => Sys2Proof.Machine.execGroupDisable take group s
  | .groupClear take group => Sys2Proof.Machine.execGroupClear take group s
  | .clockSet take p => Sys2Proof.Machine.execClockSet take p s
  | .clockRunStart take channel => Sys2Proof.Machine.execClockRunStart take channel s
  | .clockRunStop take channel => Sys2Proof.Machine.execClockRunStop take channel s
  | .clockRunReset take channel => Sys2Proof.Machine.execClockRunReset take channel s
  | .clockRunAdjust take channel delta => Sys2Proof.Machine.execClockRunAdjust take channel delta s
  | .consoleSet take levels p => Sys2Proof.Machine.execConsoleSet take levels p s
  | .triggerArm take p => Sys2Proof.Machine.execTriggerArm take p s
  | .triggerDisarm take entry => Sys2Proof.Machine.execTriggerDisarm take entry s
  | .cloFrameStart => Sys2Proof.Machine.execCloFrameStart s
  | .linkDown link => Sys2Proof.Machine.execLinkDown link s
  | .linkAnswer link => Sys2Proof.Machine.execLinkAnswer link s
  | .clipExhausted slot => Sys2Proof.Machine.execClipExhausted slot s
  | .msuFrameStart => Sys2Proof.Machine.execMsuFrameStart s
  | .durationRunOut slot => Sys2Proof.Machine.execDurationRunOut slot s
  | .blinkPhaseChange slot => Sys2Proof.Machine.execBlinkPhaseChange slot s
  | .dwellEnd group => Sys2Proof.Machine.execDwellEnd group s
  | .holdQueueRetry => Sys2Proof.Machine.execHoldQueueRetry s
  | .millisecondBoundary levels => Sys2Proof.Machine.execMillisecondBoundary levels s
  | .channelExpiry channel => Sys2Proof.Machine.execChannelExpiry channel s
  | .consoleQualified line => Sys2Proof.Machine.execConsoleQualified line s
  | .hornPulseEnd => Sys2Proof.Machine.execHornPulseEnd s
  | .clockSnapshot => Sys2Proof.Machine.execClockSnapshot s
  | .etuFrameStart => Sys2Proof.Machine.execEtuFrameStart s

end Sys2Proof.Machine
end

