-- ==== Sys2Proof/Machine/Flags.lean ====
section
/-! DEFINITION. What the outside sees of the state: the registers of the control window as the host reads them, the
interrupt line and the horn line (R2, R4, R5, R15, R167, 12.2). -/

namespace Sys2Proof.Machine

/-- The code of a fault code (12.2). -/
def FaultCode.code : FaultCode → Word
  | .none => 0
  | .format => 1
  | .cueLength => 2
  | .logLength => 3
  | .logIndex => 4
  | .region => 5
  | .commonLayout => 6

/-- The code of a reset cause (12.2). -/
def ResetCause.code : ResetCause → Word
  | .powerOn => 0
  | .soft => 1
  | .link => 2

/-- AV_STATUS: device state in bits 0 to 3, fault code in 8 to 11, reset cause in 16 to 17 (R4, 12.2). -/
def statusWord (s : State) : Word := s.smp.dev.code ||| (s.smp.fault.code <<< 8) ||| (s.smp.cause.code <<< 16)

/-- What a host read of an offset of the control window returns (R2, R3, R4, R5, R15, R16). -/
def readRegister (s : State) (offset : BitVec 8) : Word :=
  if offset = 0x00#8 then s.smp.anchor
  else if offset = 0x04#8 then (if s.smp.run then 1 else 0)
  else if offset = 0x08#8 then statusWord s
  else if offset = 0x0C#8 then s.smp.events.setWidth 32
  else if offset = 0x10#8 then s.smp.enables.setWidth 32
  else if offset = 0x14#8 then s.ftu.frame
  else 0

/-- The interrupt line: asserted while at least one event is both pending and enabled (R15). -/
def interruptLine (s : State) : Bool := s.smp.events &&& s.smp.enables != 0

/-- A HORN line is held active (R167). -/
def hornHeld (s : State) : Bool := s.ccu.lines.toList.any ConsoleLine.hornHold

/-- The horn line: active exactly while a horn pulse runs or a qualified HORN line is held active (R167). -/
def hornLine (s : State) : Bool := decide (0 < s.ccu.horn) || hornHeld s

/-- Whether an event's flag is pending (R15). -/
def pendingFlag (s : State) (e : Event) : Bool := s.smp.events.getLsbD e.bit

end Sys2Proof.Machine
end

