-- ==== Sys2Proof/WellFormed.lean ====
section
/-! DEFINITION. Which commands can be given: the checks on a command's operands that do not depend on the state. The
meanings are total: an ill-formed command is one its sender never sends. -/

namespace Sys2Proof

/-- The cue list holds at most 1024 records (R9 check 2), so a record's index is below 1024. -/
def CueTake.wf (t : CueTake) : Bool := decide (t.index < 1024)

/-- A hand-over from a trigger entry is never LATE (R106, R112). -/
def Handover.wf (h : Handover) : Bool :=
  match h.origin with
  | .cue i => decide (i < 1024)
  | .trigger _ => !h.late

/-- The offset of a register that a host write changes (R2, R3, R15, R16; 12.2). -/
def writableRegister (offset : BitVec 8) : Bool :=
  offset == 0x00#8 || offset == 0x04#8 || offset == 0x0C#8 || offset == 0x10#8

/-- The operand checks of each command. -/
def Instr.wf : Instr → Bool
  | .anchorWrite _ => true
  | .setRun v => v.getLsbD 0 && !v.getLsbD 1
  | .halt v => !v.getLsbD 0 && !v.getLsbD 1
  | .softReset v => v.getLsbD 1
  | .eventClear _ => true
  | .eventEnableWrite _ => true
  | .controlWindowWrite o _ => !o.getLsbD 0 && !o.getLsbD 1 && !writableRegister o
  | .linkReset => true
  | .powerOnReset => true
  | .frameStart => true
  | .referenceEdge _ => true
  | .enterLocked _ => true
  | .holdoverExpiry => true
  | .anchorCheck _ => true
  | .heartbeatWatch => true
  | .enterFallback => true
  | .ciuScan _ => true
  | .playClip h _ => h.wf
  | .postMessage h _ => h.wf
  | .withdraw t _ _ _ => t.wf
  | .loadLayout t _ _ => t.wf
  | .selectLayout t _ => t.wf
  | .sponsorWrite t _ _ => t.wf
  | .sponsorActivate t _ => t.wf
  | .sponsorRetire t _ => t.wf
  | .groupEnable t _ => t.wf
  | .groupDisable t _ => t.wf
  | .groupClear t _ => t.wf
  | .clockSet t _ => t.wf
  | .clockRunStart t _ => t.wf
  | .clockRunStop t _ => t.wf
  | .clockRunReset t _ => t.wf
  | .clockRunAdjust t _ _ => t.wf
  | .consoleSet t _ _ => t.wf
  | .triggerArm t _ => t.wf
  | .triggerDisarm t _ => t.wf
  | .cloFrameStart => true
  | .linkDown _ => true
  | .linkAnswer _ => true
  | .clipExhausted _ => true
  | .msuFrameStart => true
  | .durationRunOut _ => true
  | .blinkPhaseChange _ => true
  | .dwellEnd _ => true
  | .holdQueueRetry => true
  | .millisecondBoundary _ => true
  | .channelExpiry _ => true
  | .consoleQualified _ => true
  | .hornPulseEnd => true
  | .clockSnapshot => true
  | .etuFrameStart => true

end Sys2Proof
end

