-- ==== Sys2Proof/Safety.lean ====
section
/-! DEFINITION. What counts as a safe run, in the terms the statements use: the invariants of the state that every command
keeps. -/

namespace Sys2Proof.Machine

/-! ## Frames -/

/-- The parts of the state, for saying what a command leaves as it is. The SMP counts as three: its registers and run
state (`smp`), its pending flags (`events`), and the frame start waiting in it (`due`). -/
inductive Part where
  | pending | mem | smp | events | due | ftu | ciu | zar | clo | cle | msu | sru | plw | ccu | etu | free
deriving DecidableEq, Repr

/-- The SMP but for its pending flags and the frame start waiting in it. -/
def Smp.core (m : Smp) : Smp := { m with events := 0, frameDue := false }

/-- A part is the same in two states. -/
def Same (p : Part) (s t : State) : Prop :=
  match p with
  | .pending => t.pending = s.pending
  | .mem => t.mem = s.mem
  | .smp => t.smp.core = s.smp.core
  | .events => t.smp.events = s.smp.events
  | .due => t.smp.frameDue = s.smp.frameDue
  | .ftu => t.ftu = s.ftu
  | .ciu => t.ciu = s.ciu
  | .zar => t.zar = s.zar
  | .clo => t.clo = s.clo
  | .cle => t.cle = s.cle
  | .msu => t.msu = s.msu
  | .sru => t.sru = s.sru
  | .plw => t.plw = s.plw
  | .ccu => t.ccu = s.ccu
  | .etu => t.etu = s.etu
  | .free => t.free = s.free

/-- Between two states, nothing changes but the parts listed. -/
def ChangesOnly (ps : List Part) (s t : State) : Prop := ∀ p, ps.contains p = false → Same p s t

/-! ## Zone-frames not yet proved (R153) -/

/-- The zone-frames of the records of group g and entry i that wait in the hold queue and are not PRE_CLEAR (R153). -/
def heldFrames (s : State) (g : Fin 8) (i : Fin 64) : Nat :=
  ((s.plw.hold.filter fun r => r.group == g && r.entry == i && !r.preClear).map PlayRecord.zoneFrames).sum

/-- The running zone-frames of the open slot of group g when it shows entry i and is not PRE_CLEAR (R153). -/
def openFrames (s : State) (g : Fin 8) (i : Fin 64) : Nat :=
  match s.sru.groups[g].openSlot with
  | some x => if x.entry = i ∧ x.preClear = false then x.running else 0
  | none => 0

/-! ## What a reset leaves -/

/-- What a soft or link reset leaves (R16, R17, R30, R53, R75, R87, R107, R122, R143, R152, R169, R170), but for the FTU's
next frame start. Every account keeps B, D, P, L and C, and U gains the zone-frames of the open slot and of the held
records that are not PRE_CLEAR. -/
def ResetLeaves (cause : ResetCause) (s t : State) : Prop :=
  t.smp.anchor = s.smp.anchor ∧ t.smp.run = false ∧ t.smp.dev = .halted ∧ t.smp.fault = .none ∧ t.smp.cause = cause ∧
  t.smp.enables = 0 ∧ t.smp.missCount = 0 ∧ t.smp.lastSeen = 0 ∧ t.smp.inForce = false ∧
  t.ciu.scan = 0 ∧ t.ciu.refusing = false ∧ t.ciu.listOffset = s.ciu.listOffset ∧ t.ciu.listLength = s.ciu.listLength ∧
  t.zar = Zar.reset ∧
  t.clo.work = none ∧ t.clo.asked = [] ∧ t.clo.links = Vector.replicate 4 PanelLink.reset ∧
  t.clo.scoreOffset = s.clo.scoreOffset ∧ t.clo.fontOffset = s.clo.fontOffset ∧
  (∀ k : Fin 8, t.cle.slots[k] = ClipSlot.cleared) ∧ (∀ k : Fin 8, t.msu.slots[k] = MessageSlot.cleared) ∧
  (∀ g : Fin 8, t.sru.groups[g].enabled = false ∧ t.sru.groups[g].zones = 0 ∧ t.sru.groups[g].openSlot = none ∧
    t.sru.groups[g].saturated = s.sru.groups[g].saturated ∧ t.sru.groups[g].slotNumber = s.sru.groups[g].slotNumber ∧
    t.sru.groups[g].snapshots = s.sru.groups[g].snapshots) ∧
  (∀ (g : Fin 8) (i : Fin 64), t.sru.accounts[g][i] =
    { s.sru.accounts[g][i] with
      unlogged := s.sru.accounts[g][i].unlogged + BitVec.ofNat 64 (heldFrames s g i + openFrames s g i) }) ∧
  t.sru.entries = s.sru.entries ∧ t.sru.snapshotOffset = s.sru.snapshotOffset ∧
  t.plw.hold = [] ∧ t.plw.badIndex = none ∧ t.plw.overflow = s.plw.overflow ∧ t.plw.writeIndex = s.plw.writeIndex ∧
  t.plw.logOffset = s.plw.logOffset ∧ t.plw.logLength = s.plw.logLength ∧
  t.ccu.channels = s.ccu.channels ∧ t.ccu.lines = s.ccu.lines ∧ t.ccu.horn = s.ccu.horn ∧
  (∀ e : Fin 8, t.etu.entries[e] = TriggerEntry.reset) ∧ t.mem = s.mem ∧ t.pending = s.pending

/-! ## What a take writes -/

/-- The whole cue list lies inside show memory (R9 check 5). -/
abbrev CueListInside (s : State) : Prop := s.ciu.listOffset.toNat + 64 * s.ciu.listLength ≤ Config.memorySize

/-- The cue list and the anchor block have no byte in common. -/
abbrev ListApart (s : State) : Prop :=
  s.ciu.listOffset.toNat + 64 * s.ciu.listLength ≤ s.smp.anchor.toNat ∨
    s.smp.anchor.toNat + 4096 ≤ s.ciu.listOffset.toNat

/-- A byte of cue record i that the part writes: one of its state word or of its six result words (R34, 12.4). -/
def ResultByte (s : State) (i a : Nat) : Prop :=
  (cueOffset s i ≤ a ∧ a < cueOffset s i + 4) ∨ (cueOffset s i + 0x28 ≤ a ∧ a < cueOffset s i + 0x40)

/-- The cue record at an offset reads with these result fields (R35), at their places of 12.4. -/
def ResultReads (m : Memory) (a : Nat) (r : CueResult) : Prop :=
  bits (m.word (a + 0x28)) 0 8 = r.status.code ∧ (m.word (a + 0x28)).getLsbD 8 = r.late ∧
  (m.word (a + 0x28)).getLsbD 9 = r.preempted ∧ bits (m.word (a + 0x28)) 16 16 = r.refused ∧
  m.word (a + 0x2C) = r.takeFrame ∧ m.word (a + 0x30) = r.firstShown ∧ m.word (a + 0x34) = r.endFrame ∧
  m.word (a + 0x38) = BitVec.ofNat 32 r.framesShown ∧ m.word (a + 0x3C) = BitVec.ofNat 32 r.litFrames

/-- Record i of the cue list of s reads in t with these results and this state word. -/
def RecordReads (s t : State) (i : Nat) (r : CueResult) (code : Word) : Prop :=
  t.mem.word (cueOffset s i) = code ∧ ResultReads t.mem (cueOffset s i) r

/-- Between s and t, record i is written with these results and this state word, every byte outside the written words is
kept, and CUE_DONE is raised with a state of DONE and no other event (R34). With no anchor in force (R6), and at an index
that no record of the list has (the model's choice, log 19), memory and the pending flags are kept. -/
def RecordWritten (s t : State) (i : Nat) (r : CueResult) (code : Word) : Prop :=
  if s.smp.inForce = true ∧ i < s.ciu.listLength then
    RecordReads s t i r code ∧ (∀ a, ¬ResultByte s i a → t.mem.get a = s.mem.get a) ∧
      t.smp.events = s.smp.events ||| (if code = 3#32 then 1#10 else 0#10)
  else t.mem = s.mem ∧ t.smp.events = s.smp.events

/-- The results of a record refused, or finished, at take (R35). -/
def takenResult (frame : Frame) (late : Bool) (status : Status) (zones : ZoneMask) : CueResult :=
  { status := status, late := late, preempted := false, refused := zones, takeFrame := frame, firstShown := 0,
    endFrame := frame, framesShown := 0, litFrames := 0 }

/-- The results of a clip or message accepted at take (R35). -/
def acceptedResult (frame : Frame) (late : Bool) (zones : ZoneMask) : CueResult :=
  { status := .pending, late := late, preempted := false, refused := zones, takeFrame := frame, firstShown := 0,
    endFrame := 0, framesShown := 0, litFrames := 0 }

/-- A record is written DONE at take with this status, and nothing else of memory or of the pending flags changes. -/
def TakenDone (s t : State) (take : CueTake) (status : Status) : Prop :=
  RecordWritten s t take.index (takenResult s.ftu.frame take.late status 0) 3

/-- The record of a take stands in t as DONE with this status, its CUE_DONE raised: for a take whose owner writes other
words of memory before it. -/
def StandsDone (s t : State) (take : CueTake) (status : Status) : Prop :=
  s.smp.inForce = true → take.index < s.ciu.listLength →
    RecordReads s t take.index (takenResult s.ftu.frame take.late status 0) 3 ∧ pendingFlag t .cueDone = true

/-- A byte of the anchor block's bytes from `lo` to `hi`, the last not included. -/
def AnchorByte (s : State) (lo hi a : Nat) : Prop := s.smp.anchor.toNat + lo ≤ a ∧ a < s.smp.anchor.toNat + hi

/-! ## What a scan takes (R40 to R47) -/

/-- A record that a scan at frame f may take: it does not carry TIMED, or its not-before frame is reached (R40). -/
abbrev RecordReady (r : CueRecord) (f : Frame) : Prop := r.timed = true → (r.notBefore - f).toInt ≤ 0

/-- A record is taken LATE: it carries TIMED and its not-before frame has passed (R40). -/
def lateAt (r : CueRecord) (f : Frame) : Bool := r.timed && decide ((r.notBefore - f).toInt < 0)

/-- The row of the table that takes a record's work (R42), or none for an action code that no row has. -/
def Work.command (levels : BitVec 8) (take : CueTake) : Work → Option Instr
  | .playClip p => some (.playClip ⟨.cue take.index, take.late⟩ p)
  | .postMessage p => some (.postMessage ⟨.cue take.index, take.late⟩ p)
  | .withdraw target entry tag => some (.withdraw take target entry tag)
  | .loadLayout bank offset => some (.loadLayout take bank offset)
  | .selectLayout bank => some (.selectLayout take bank)
  | .sponsorWrite entry offset => some (.sponsorWrite take entry offset)
  | .sponsorState entry action =>
    if action = 1 then some (.sponsorActivate take entry)
    else if action = 2 then some (.sponsorRetire take entry) else none
  | .groupSet group action =>
    if action = 1 then some (.groupEnable take group)
    else if action = 2 then some (.groupDisable take group) else none
  | .groupClear group => some (.groupClear take group)
  | .clockSet p => some (.clockSet take p)
  | .clockRun channel action delta =>
    if action = 1 then some (.clockRunStart take channel)
    else if action = 2 then some (.clockRunStop take channel)
    else if action = 3 then some (.clockRunReset take channel)
    else if action = 4 then some (.clockRunAdjust take channel delta) else none
  | .consoleSet p => some (.consoleSet take levels p)
  | .triggerArm p => some (.triggerArm take p)
  | .triggerDisarm entry => some (.triggerDisarm take entry)

/-- A kind whose taking depends on no slot that an earlier member of its run has used or ended (R94, R112). -/
def Work.plain : Work → Bool
  | .playClip _ => false
  | .postMessage _ => false
  | .withdraw .. => false
  | _ => true

/-- A kind whose taking makes no clip or message slot IDLE: all but a WITHDRAW, a SELECT_LAYOUT and a SAFETY message. -/
def Work.keepsSlots : Work → Bool
  | .withdraw .. => false
  | .selectLayout _ => false
  | .postMessage p => p.cls != 1
  | _ => true

/-- No member of a run finds an IDLE slot that an earlier member has used (R94, R112): at most one member is a clip, a
message or a withdrawal, or no member makes a slot IDLE. -/
def SlotsUnshared (ms : List Member) : Prop :=
  (ms.filter fun m => !m.work.all Work.plain).length ≤ 1 ∨ ∀ m ∈ ms, m.work.all Work.keepsSlots = true

/-- The member that record i is taken as in a run (R45): its index, LATE when its not-before frame has passed, its work. -/
def memberAt (s : State) (i : Nat) : Member :=
  let r := recordAt s i
  { index := i, late := lateAt r s.ftu.frame, work := workOf r.kind r.payload }

/-- The command that takes a member of a run. -/
def Member.command (levels : BitVec 8) (m : Member) : Option Instr :=
  m.work.bind (Work.command levels ⟨m.index, m.late⟩)

/-- The state after commands run one after another. -/
def afterAll : List Instr → State → Option State
  | [], s => some s
  | c :: cs, s =>
    match exec c s with
    | .next t => afterAll cs t
    | _ => none

/-- A status that refuses (R51): its code stands above those of the records that have been acted on. -/
abbrev Status.refuses (status : Status) : Prop := 0x20 ≤ status.code.toNat

/-- The state in which a scan of the CIU begins: the frame start delivered to it is being handled, and the raw levels are
up to the present. -/
def scanBegins (levels : BitVec 8) (s : State) : State :=
  { s with ciu := { s.ciu with frameDue := false }, ccu := { s.ccu with levels := levels } }

/-- A scan is made, and the CIU, the list and the anchor are where a run or a record can be taken: RUNNING with an anchor
in force and the refusing-run flag at this value; the list lies inside show memory, apart from the anchor block. -/
abbrev ScanMade (s : State) (refusing : Bool) : Prop :=
  s.ciu.frameDue = true ∧ s.smp.dev = .running ∧ s.smp.inForce = true ∧ s.smp.anchor.toNat % 4096 = 0 ∧
  s.ciu.refusing = refusing ∧ s.ciu.scan < s.ciu.listLength ∧ 16 ≤ s.ciu.listLength ∧ CueListInside s ∧ ListApart s

/-- The record j places after the scan index (R36). -/
def scanned (s : State) (j : Nat) : Nat := (s.ciu.scan + j) % s.ciu.listLength

/-- Between s and t, a scan has written the next n records DONE with this status, refused without being examined by an
owner, and has moved on past them, leaving the refusing-run flag so; nothing else changes but CUE_DONE, the levels that
the pins show and the scan index in the anchor (R34, R36). -/
def ScanRefused (levels : BitVec 8) (s t : State) (n : Nat) (late : Bool) (status : Status) (refusing : Bool) : Prop :=
  (∀ j, j < n → RecordReads s t (scanned s j) (takenResult s.ftu.frame late status 0) 3) ∧
  t.ciu = { s.ciu with frameDue := false, scan := scanned s n, refusing := refusing } ∧
  t.mem.word (s.smp.anchor.toNat + 0x108) = BitVec.ofNat 32 t.ciu.scan ∧
  t.smp.events = s.smp.events ||| 0x001#10 ∧ t.ccu = { s.ccu with levels := levels } ∧
  ChangesOnly [.mem, .events, .ciu, .ccu] s t ∧
  ∀ a, (∀ j, j < n → ¬ResultByte s (scanned s j) a) → ¬AnchorByte s 0x108 0x10C a → t.mem.get a = s.mem.get a

/-- Between the state u that the takes of a scan leave and t, the scan index has moved on by n records modulo L, and
nothing else has changed but its field of the anchor (R36). -/
def ScanMoved (n : Nat) (u t : State) : Prop :=
  t.ciu = { u.ciu with scan := (u.ciu.scan + n) % u.ciu.listLength } ∧ ChangesOnly [.mem, .ciu] u t ∧
  (u.smp.inForce = false → t.mem = u.mem) ∧
  (u.smp.inForce = true → u.smp.anchor.toNat % 4096 = 0 →
    t.mem.word (u.smp.anchor.toNat + 0x108) = BitVec.ofNat 32 t.ciu.scan) ∧
  ∀ a, ¬AnchorByte u 0x108 0x10C a → t.mem.get a = u.mem.get a

/-! ## What the play log and the exposure snapshot show (12.8, 12.9) -/

/-- The offset of the record at the write index of the play log. -/
def logRecordOffset (s : State) : Nat := s.plw.logOffset.toNat + 32 * s.plw.writeIndex

/-- The play log lies inside show memory, clear of the anchor block, and its write index is one of its records. -/
abbrev LogInside (s : State) : Prop :=
  s.plw.writeIndex < s.plw.logLength ∧ s.plw.logOffset.toNat + 32 * s.plw.logLength ≤ 2 ^ 32 ∧
  s.smp.anchor.toNat % 4096 = 0 ∧
  (s.plw.logOffset.toNat + 32 * s.plw.logLength ≤ s.smp.anchor.toNat ∨
    s.smp.anchor.toNat + 4096 ≤ s.plw.logOffset.toNat)

/-- The log has room for a record (R145): the read index v is below N, and the write index plus 1 modulo N differs. -/
abbrev LogHasRoom (s : State) : Prop :=
  (anchorWord s 0x20).toNat < s.plw.logLength ∧
    (s.plw.writeIndex + 1) % s.plw.logLength ≠ (anchorWord s 0x20).toNat

/-- The read index that the anchor gives is tested (R149): the reported bad index after the test. -/
def badIndexAfter (s : State) : Option Nat :=
  if s.plw.logLength ≤ (anchorWord s 0x20).toNat then some (anchorWord s 0x20).toNat else none

/-- The pending flags after that test: LOG_INDEX_BAD is raised for a bad index not yet reported (R149). -/
def eventsAfterIndex (s : State) : BitVec 10 :=
  s.smp.events |||
    (if s.plw.logLength ≤ (anchorWord s 0x20).toNat ∧ s.plw.badIndex ≠ some (anchorWord s 0x20).toNat then 0x004#10
     else 0#10)

/-- Between s and t, the play record r is written at the write index, which moves on and is written into the anchor, and L
of its group and entry gains its zone-frames unless it is PRE_CLEAR; no other byte and no other account changes (R145,
12.9). That L wraps at 2^64 is log 18. -/
def LogWritten (s t : State) (r : PlayRecord) : Prop :=
  let o := logRecordOffset s
  t.plw.writeIndex = (s.plw.writeIndex + 1) % s.plw.logLength ∧
  t.mem.word o = r.sponsorId ∧ bits (t.mem.word (o + 4)) 0 8 = BitVec.ofNat 8 r.entry.val ∧
  bits (t.mem.word (o + 4)) 8 8 = BitVec.ofNat 8 r.group.val ∧
  bits (t.mem.word (o + 4)) 16 8 = BitVec.ofNat 8 r.creative ∧ (t.mem.word (o + 4)).getLsbD 24 = r.cut ∧
  (t.mem.word (o + 4)).getLsbD 25 = r.preClear ∧ (t.mem.word (o + 4)).getLsbD 26 = r.fallback ∧
  t.mem.word (o + 8) = r.start ∧ bits (t.mem.word (o + 12)) 0 16 = BitVec.ofNat 16 r.planned ∧
  bits (t.mem.word (o + 12)) 16 16 = BitVec.ofNat 16 r.answered ∧
  t.mem.word (o + 16) = BitVec.ofNat 32 r.zoneFrames ∧
  bits (t.mem.word (o + 20)) 0 16 = BitVec.ofNat 16 r.preemptedFrames ∧
  t.mem.word (s.smp.anchor.toNat + 0x10C) = BitVec.ofNat 32 t.plw.writeIndex ∧
  (∀ (g : Fin 8) (i : Fin 64), t.sru.accounts[g][i] =
    if g = r.group ∧ i = r.entry ∧ r.preClear = false then
      { s.sru.accounts[g][i] with logged := s.sru.accounts[g][i].logged + BitVec.ofNat 64 r.zoneFrames }
    else s.sru.accounts[g][i]) ∧
  t.sru.groups = s.sru.groups ∧ t.sru.entries = s.sru.entries ∧ ChangesOnly [.mem, .sru, .plw] s t ∧
  ∀ a, ¬AnchorByte s 0x10C 0x110 a → ¬(o ≤ a ∧ a < o + 32) → t.mem.get a = s.mem.get a

/-- The double word at an offset, its low word first. -/
def doubleAt (m : Memory) (a : Nat) : BitVec 64 := m.word (a + 4) ++ m.word a

/-- The section of the exposure snapshot at an offset reads with this count, these flags and these accounts (12.8). -/
def SectionReads (m : Memory) (a : Nat) (r : RotationGroup) (accounts : Fin 64 → Account) : Prop :=
  m.word a = r.snapshots ∧ (m.word (a + 4)).getLsbD 0 = r.enabled ∧ (m.word (a + 4)).getLsbD 1 = r.saturated ∧
  ∀ i : Fin 64,
    (let b := a + 16 + 40 * i.val
     doubleAt m b = BitVec.ofInt 64 (accounts i).balance ∧ doubleAt m (b + 8) = (accounts i).delivered ∧
     doubleAt m (b + 16) = (accounts i).logged ∧ doubleAt m (b + 24) = (accounts i).unlogged ∧
     m.word (b + 32) = (accounts i).plays)

/-- The exposure snapshot lies inside show memory, clear of the anchor block. -/
abbrev SnapshotInside (s : State) : Prop :=
  s.sru.snapshotOffset.toNat + 20608 ≤ 2 ^ 32 ∧
  (s.sru.snapshotOffset.toNat + 20608 ≤ s.smp.anchor.toNat ∨
    s.smp.anchor.toNat + 4096 ≤ s.sru.snapshotOffset.toNat)

/-! ## Completions and source events (R101, R119, R172, R174) -/

/-- What a source event makes of a trigger entry (R172): an ARMED entry of this source is pending with one fire more in
RUNNING, and counts it as suppressed outside RUNNING. -/
def entryAfter (running : Bool) (event : TriggerSource) (e : TriggerEntry) : TriggerEntry :=
  if e.armed = true ∧ e.source = some event then
    (if running then { e with pending := true, report := { e.report with fires := e.report.fires + 1 } }
     else { e with report := { e.report with suppressed := e.report.suppressed + 1 } })
  else e

/-- Between s and t, the origin of a slot has received the results r and the ETU has taken the slot's end event: a record
of the list is written DONE with CUE_DONE, a trigger entry gets the status and the credits in its report; no other event
is raised and no other byte changes (R101, R119, R172, R174). -/
def OriginCompleted (s t : State) (origin : Origin) (r : CueResult) (event : TriggerSource) : Prop :=
  (∀ e : Fin 8, t.etu.entries[e] = entryAfter (s.smp.dev == .running) event
    (if origin = .trigger e then
      { s.etu.entries[e] with report := { s.etu.entries[e].report with
        lastStatus := r.status.code, lastShown := r.framesShown, lastLit := r.litFrames } }
     else s.etu.entries[e])) ∧
  (∀ i, origin = .cue i → i < s.ciu.listLength → RecordReads s t i r 3 ∧ t.smp.events = s.smp.events ||| 0x001#10 ∧
    ∀ a, ¬ResultByte s i a → ¬AnchorByte s 0x180 0x280 a → t.mem.get a = s.mem.get a) ∧
  ∀ e, origin = .trigger e → t.smp.events = s.smp.events ∧
    ∀ a, ¬AnchorByte s 0x180 0x280 a → t.mem.get a = s.mem.get a

/-- A trigger entry's take t and a record's take u of one payload at s leave the trigger entries alike, but for the
outcome, which goes into the entry's report in place of the record: the status and the refused zones that the record then
shows (R106, R112, R173). -/
def TriggerOutcome (s t u : State) (e : Fin 8) (i : Nat) : Prop :=
  (∀ x : Fin 8, x ≠ e → t.etu.entries[x] = u.etu.entries[x]) ∧
  { t.etu.entries[e] with report := { t.etu.entries[e].report with
      lastStatus := u.etu.entries[e].report.lastStatus, lastRefused := u.etu.entries[e].report.lastRefused,
      lastShown := u.etu.entries[e].report.lastShown, lastLit := u.etu.entries[e].report.lastLit } } =
    u.etu.entries[e] ∧
  (s.smp.inForce = true → i < s.ciu.listLength → CueListInside s →
    t.etu.entries[e].report.lastStatus = bits (u.mem.word (cueOffset s i + 0x28)) 0 8 ∧
    t.etu.entries[e].report.lastRefused = bits (u.mem.word (cueOffset s i + 0x28)) 16 16)

/-! ## Clock channels at a millisecond boundary (R155 to R157, R161) -/

/-- What one count makes of a RUNNING channel (R155, R156): COUNT_DOWN goes down by 1, the others up by 1, not past the
limit; at 0, or at the limit, it expires: EXPIRED, or, with AUTO, the pending preset taken and the channel loaded. -/
def Channel.afterCount (x : Channel) : Channel :=
  let count := if x.mode = .countDown then x.count - 1 else min x.limit (x.count + 1)
  if count = 0 ∧ x.mode = .countDown ∨ x.limit ≤ count ∧ x.mode ≠ .countDown then
    (if x.auto then
      { x with expiries := x.expiries + 1, preset := x.pendingPreset.getD x.preset, pendingPreset := none,
               count := if x.mode = .countDown then x.pendingPreset.getD x.preset else 0 }
     else { x with count := count, expiries := x.expiries + 1, state := .expired })
  else { x with count := count }

/-- What applying its request set makes of a channel (R161): RESET takes the pending preset, loads, and makes EXPIRED
STOPPED; STOP wins over START; START runs a channel that is not EXPIRED and has something to count. -/
def Channel.afterRequests (x : Channel) : Channel :=
  let y := if x.reqReset then
      { x with preset := x.pendingPreset.getD x.preset, pendingPreset := none,
               count := if x.mode = .countDown then x.pendingPreset.getD x.preset else 0,
               state := if x.state = .expired then ClockState.stopped else x.state }
    else x
  let empty := y.state = .expired ∨ y.count = if x.mode = .countDown then 0 else x.limit
  { y with
    state := if x.reqStop then (if y.state = .running then .stopped else y.state)
      else if x.reqStart = true ∧ ¬empty then .running else y.state,
    reqStart := false, reqStop := false, reqReset := false }

/-- A channel has expired between two states: its expiry count has changed. -/
abbrev Expired (s t : State) (c : Fin 4) : Prop := t.ccu.channels[c].expiries ≠ s.ccu.channels[c].expiries

/-- The longest horn length of the channels with horn enable that have expired between two states, or 0 (R167). -/
def hornOfExpired (s t : State) : Nat :=
  ((List.finRange 4).map fun c =>
    if Expired s t c ∧ s.ccu.channels[c].hornEnable = true then s.ccu.channels[c].hornLength else 0).foldl max 0

/-- What the expiries and the qualified presses between two states make of a trigger entry (R156, R166, R172): an entry
whose source is a channel that has expired, or a line that was pressed, takes that event. -/
def entryAfterBoundary (s t : State) (pressed : Fin 8 → Prop) (e : TriggerEntry) (u : TriggerEntry) : Prop :=
  match e.source with
  | some (.channelExpiry c) =>
    (Expired s t c → u = entryAfter (s.smp.dev == .running) (.channelExpiry c) e) ∧ (¬Expired s t c → u = e)
  | some (.consoleLine n) =>
    (pressed n → u = entryAfter (s.smp.dev == .running) (.consoleLine n) e) ∧ (¬pressed n → u = e)
  | _ => u = e

/-- A RUNNING channel's next count is its last (R156): COUNT_DOWN stands at 1, another one short of its limit. -/
def Channel.lastCount (x : Channel) : Prop :=
  x.state = .running ∧ if x.mode = .countDown then x.count = 1 else x.limit ≤ x.count + 1

/-! ## Console lines at a millisecond boundary (R164 to R166) -/

/-- The level that a line's sample reads through its polarity, true for active (R164, R165). -/
def sampledLevel (levels : BitVec 8) (s : State) (n : Fin 8) : Bool :=
  levels.getLsbD n.val != s.ccu.lines[n].activeLow

/-- How many samples in a row a line has then held a level that differs from its qualified one (R165). -/
def ConsoleLine.heldFor (l : ConsoleLine) (level : Bool) : Nat :=
  match l.qualifying with
  | some (candidate, held) => if candidate = level then held + 1 else 1
  | none => 1

/-- What one sample makes of a line (R165, R166): the qualified level cancels any qualifying; another level is held one
sample more, and becomes the qualified one at the qualify time, setting the horn hold of a HORN line when it is active and
clearing it when it is inactive. -/
def ConsoleLine.afterSample (l : ConsoleLine) (level : Bool) : ConsoleLine :=
  if level = l.qualified then { l with qualifying := none }
  else if l.heldFor level < l.qualify then { l with qualifying := some (level, l.heldFor level) }
  else { l with qualified := level, qualifying := none, hornHold := level && (l.hornHold || l.action == .horn) }

/-- The sample of a line qualifies a change to active (R165, R166). -/
def Pressed (levels : BitVec 8) (s : State) (n : Fin 8) : Prop :=
  sampledLevel levels s n = true ∧ s.ccu.lines[n].qualified = false ∧
    s.ccu.lines[n].qualify ≤ s.ccu.lines[n].heldFor true

/-! ## Claims in a zone (R66 to R69) -/

/-- A zone has room for a clip or an ordinary message: it is in the active layout and not full (R68, R70). -/
def ZoneTakes (s : State) (z : Fin 16) : Prop :=
  ∃ e, s.zar.table[z] = some e ∧ (nonGroup e.claims).length < 5

/-- A SAFETY claim evicts this claim from a zone: the zone is full, and this is its last non-group claim and does not
stand at level 0 (R69). -/
def EvictedFrom (s : State) (z : Fin 16) (v : Claim) : Prop :=
  ∃ e, s.zar.table[z] = some e ∧ 5 ≤ (nonGroup e.claims).length ∧ (nonGroup e.claims).getLast? = some v ∧ v.level ≠ 0

/-- A claim list with a claim inserted behind every claim of equal or lower level number (R66). -/
def withClaim (c : Claim) (cs : List Claim) : List Claim :=
  cs.takeWhile (fun d => d.level ≤ c.level) ++ c :: cs.dropWhile (fun d => d.level ≤ c.level)

/-- Between s and t, a new claimant has become head of some zone that another one headed (R67). -/
def TakesHead (s t : State) (new old : Claimant) : Prop :=
  ∃ z : Fin 16, (claimsAt t.zar z).head?.map Claim.who = some new ∧ (claimsAt s.zar z).head?.map Claim.who = some old

/-- Between s and t, exactly the working clips and messages that headed a zone which a new claimant heads now have become
PRE-EMPTED (R67). -/
def PreemptsHeads (s t : State) (new : Claimant) : Prop :=
  (∀ j : Fin 8, Claimant.clip j ≠ new → t.cle.slots[j].state ≠ .idle → t.cle.slots[j].state ≠ .ending →
    (t.cle.slots[j].preempted = true ↔ s.cle.slots[j].preempted = true ∨ TakesHead s t new (.clip j))) ∧
  ∀ j : Fin 8, Claimant.message j ≠ new → t.msu.slots[j].state = .showing →
    (t.msu.slots[j].preempted = true ↔ s.msu.slots[j].preempted = true ∨ TakesHead s t new (.message j))

/-! ## The content of a message (R110, R111, R116) -/

/-- The text width of a payload's text: the sum of its characters' widths (R116). -/
def textWidthOf (s : State) (p : MessagePayload) : Nat :=
  ((textCodes s.mem p.textOffset.toNat p.textLength.toNat).map (glyphWidth s.mem s.clo.fontOffset.toNat)).sum

/-- The text height: the greatest of its characters' heights (R116). -/
def textHeightOf (s : State) (p : MessagePayload) : Nat :=
  ((textCodes s.mem p.textOffset.toNat p.textLength.toNat).map (glyphHeight s.mem s.clo.fontOffset.toNat)).foldl max 0

/-- The width of the widest zone of the active layout in a set (R116). -/
def widestOf (s : State) (zones : ZoneMask) : Nat :=
  ((List.finRange 16).map fun z =>
    if zones.getLsbD z.val then (s.zar.table[z].map fun e => e.defn.width).getD 0 else 0).foldl max 0

/-- The slot of a message just accepted, at this level and with these zones taken and refused (R110). -/
def postedMessage (s : State) (p : MessagePayload) (origin : Origin) (late : Bool) (level : Nat)
    (holdings refused : ZoneMask) : MessageSlot :=
  { state := .showing, origin := origin, tag := p.tag, safety := p.cls == 1, level := level,
    textOffset := p.textOffset.toNat, textLength := p.textLength.toNat, textWidth := textWidthOf s p,
    textHeight := textHeightOf s p, foreground := p.foreground, background := p.background,
    duration := if p.duration = 0 then none else some p.duration.toNat, blinkOn := p.blinkOn.toNat,
    blinkOff := p.blinkOff.toNat, phase := .on, phaseLeft := p.blinkOn.toNat, crawl := p.mode == 1,
    crawlSpeed := max 1 p.crawlSpeed.toNat, crawlPos := 0, crawlSpan := widestOf s holdings + textWidthOf s p,
    startFrame := s.ftu.frame, counted := s.ftu.frame, holdings := holdings, outstanding := none, framesShown := 0,
    litFrames := 0, firstShown := none, preempted := false, takeFrame := s.ftu.frame, late := late, refused := refused,
    status := none, endFrame := 0, epoch := s.smp.anchorEpoch }

/-- A region has no byte in common with the cue list. -/
abbrev ClearOfList (s : State) (offset bytes : Nat) : Prop :=
  offset + bytes ≤ s.ciu.listOffset.toNat ∨ s.ciu.listOffset.toNat + 64 * s.ciu.listLength ≤ offset

/-- What a count that a SHOWING message outlives makes of its slot (R113, R115, R116): the duration decreases, the blink and
the crawl move on. -/
def MessageSlot.CountedAs (m n : MessageSlot) (f : Frame) : Prop :=
  n = { m with counted := f, duration := m.duration.map (· - 1), phase := n.phase, phaseLeft := n.phaseLeft,
               crawlPos := n.crawlPos } ∧
  (m.blinkOn = 0 ∨ m.blinkOff = 0 → n.phase = m.phase ∧ n.phaseLeft = m.phaseLeft) ∧
  (m.blinkOn ≠ 0 → m.blinkOff ≠ 0 → 2 ≤ m.phaseLeft → n.phase = m.phase ∧ n.phaseLeft = m.phaseLeft - 1) ∧
  (m.blinkOn ≠ 0 → m.blinkOff ≠ 0 → m.phaseLeft = 1 →
    (m.phase = .on → n.phase = .off ∧ n.phaseLeft = m.blinkOff) ∧
    (m.phase = .off → n.phase = .on ∧ n.phaseLeft = m.blinkOn)) ∧
  n.crawlPos = (if m.crawl then
    (if m.crawlSpan ≤ (m.crawlPos + m.crawlSpeed) / 16 then 0 else m.crawlPos + m.crawlSpeed)
    else m.crawlPos)

/-- Between s and t, message slot k, whose fields are those of n, has answered a request for frame f over these zones, and
nothing else has changed (R117): with content where it holds one of them, and then the frame is outstanding. -/
def MessageAnswers (k : Fin 8) (f : Frame) (zones : ZoneMask) (n : MessageSlot) (s : State) (r : Answer × State) : Prop :=
  (n.holdings &&& zones ≠ 0 → r =
    (.message
      { textOffset := n.textOffset, textLength := n.textLength, foreground := n.foreground, background := n.background,
        phase := n.phase, crawl := if n.crawl then some (n.crawlPos / 16) else none, textWidth := n.textWidth,
        textHeight := n.textHeight },
     { s with msu := { s.msu with slots := upd s.msu.slots k fun _ => { n with outstanding := some f } } })) ∧
  (n.holdings &&& zones = 0 → r =
    (.nothing, { s with msu := { s.msu with slots := upd s.msu.slots k fun _ => n } }))

/-! ## What a pixel shows (R83 to R86, R117) -/

/-- A string drawn through the font, its first glyph's top-left at (left, top), paints the pixel (px, py) (R85): some glyph,
placed after the widths of those before it, has a bit set at a column and a row whose block of scale by scale pixels covers
it. -/
def TextPaints (m : Memory) (font scale : Nat) (codes : List Nat) (left top px py : Int) : Prop :=
  ∃ i, i < codes.length ∧
    (let code := codes.getD i 0
     ∃ col, col < glyphWidth m font code ∧ ∃ row, row < glyphHeight m font code ∧
       glyphBit m font code col row = true ∧
       (let x := left + (((codes.take i).map (glyphWidth m font)).sum + col) * scale
        let y := top + row * scale
        x ≤ px ∧ px < x + scale ∧ y ≤ py ∧ py < y + scale))

/-- The base of a zone shows a colour at a pixel counted from its top-left, for what its head answered (R83, R84): the
stored frame's pixel, low 24 bits, where the frame covers it, the message's foreground where its text paints in phase ON and
its background elsewhere, and the fill otherwise. -/
def BaseShows (m : Memory) (font : Nat) (d : ZoneDef) (answer : Option Answer) (px py : Nat) (c : Colour) : Prop :=
  let stored := fun offset width height : Nat =>
    c = if px < width ∧ py < height then (m.word (offset + 4 * (py * width + px))).setWidth 24 else d.fill
  match answer with
  | some (.clip offset width height _) => stored offset width height
  | some (.creative _ _ offset width height) => stored offset width height
  | some (.message a) =>
    let left : Int := match a.crawl with
      | some q => (d.width : Int) - q
      | none => if a.textWidth ≤ d.width then (d.width - a.textWidth) / 2 else 0
    let top : Int := if a.textHeight ≤ d.height then (d.height - a.textHeight) / 2 else 0
    let paints := a.phase = .on ∧ TextPaints m font 1 (textCodes m a.textOffset a.textLength) left top px py
    (paints → c = a.foreground) ∧ (¬paints → c = a.background)
  | _ => c = d.fill

/-! ## Evicted owners (R69, R101, R119) -/

/-- A SAFETY request over these zones evicts a claim of this claimant from a zone. -/
def Loses (s : State) (zones : ZoneMask) (who : Claimant) (z : Fin 16) : Prop :=
  zones.getLsbD z.val = true ∧ ∃ v, EvictedFrom s z v ∧ v.who = who

/-- No claimant that loses a zone by the request stands without an outstanding frame, so that none completes at once. -/
def NoneCompletes (s : State) (zones : ZoneMask) : Prop :=
  ∀ (z : Fin 16) (j : Fin 8), (Loses s zones (.clip j) z → s.cle.slots[j].outstanding ≠ none) ∧
    (Loses s zones (.message j) z → s.msu.slots[j].outstanding ≠ none)

/-- Record j of the list is the origin of this clip slot and of no other slot, its anchor is in force, and it is not the
record i that is being taken. -/
def OwnClipRecord (s : State) (k : Fin 8) (i j : Nat) : Prop :=
  s.cle.slots[k].origin = .cue j ∧ s.cle.slots[k].epoch = s.smp.anchorEpoch ∧ s.smp.inForce = true ∧ ListApart s ∧
  j < s.ciu.listLength ∧ j ≠ i ∧ (∀ l : Fin 8, l ≠ k → s.cle.slots[l].origin ≠ .cue j) ∧
  ∀ l : Fin 8, s.msu.slots[l].origin ≠ .cue j

/-- Record j of the list is the origin of this message slot and of no other slot, its anchor is in force, and it is not
the record i that is being taken. -/
def OwnMessageRecord (s : State) (k : Fin 8) (i j : Nat) : Prop :=
  s.msu.slots[k].origin = .cue j ∧ s.msu.slots[k].epoch = s.smp.anchorEpoch ∧ s.smp.inForce = true ∧ ListApart s ∧
  j < s.ciu.listLength ∧ j ≠ i ∧ (∀ l : Fin 8, l ≠ k → s.msu.slots[l].origin ≠ .cue j) ∧
  ∀ l : Fin 8, s.cle.slots[l].origin ≠ .cue j

/-- Between s and t, clip slot j has lost the zones that a SAFETY request over these zones, made for record i, evicts it
from: it goes on in those that remain, or ends EVICTED, waiting for the report of its outstanding frame or completing at
once (R69, R101). -/
def ClipEvicted (s t : State) (zones : ZoneMask) (i : Nat) (j : Fin 8) : Prop :=
  let c := s.cle.slots[j]
  let d := t.cle.slots[j]
  (c.working = false → d = c) ∧
  (c.working = true → (∀ z, ¬Loses s zones (.clip j) z) ∨ holdsAny t.zar (.clip j) = true →
    d = { c with holdings := d.holdings, preempted := d.preempted } ∧
    ∀ z : Fin 16, d.holdings.getLsbD z.val = true ↔ c.holdings.getLsbD z.val = true ∧ ¬Loses s zones (.clip j) z) ∧
  (c.working = true → (∃ z, Loses s zones (.clip j) z) → holdsAny t.zar (.clip j) = false →
    (∀ f, c.outstanding = some f →
      d = { c with state := .ending, status := some .evicted, endFrame := s.ftu.frame, holdings := 0 }) ∧
    (c.outstanding = none → d = ClipSlot.cleared ∧
      ∀ r, OwnClipRecord s j i r → pendingFlag t .cueDone = true ∧
        RecordReads s t r
          { status := .evicted, late := c.late, preempted := c.preempted, refused := c.refused,
            takeFrame := c.takeFrame, firstShown := c.firstShown.getD 0, endFrame := s.ftu.frame,
            framesShown := c.framesShown, litFrames := c.litFrames } 3))

/-- The same of message slot j (R69, R119, R120). -/
def MessageEvicted (s t : State) (zones : ZoneMask) (i : Nat) (j : Fin 8) : Prop :=
  let m := s.msu.slots[j]
  let n := t.msu.slots[j]
  (m.working = false → n = m) ∧
  (m.working = true → (∀ z, ¬Loses s zones (.message j) z) ∨ holdsAny t.zar (.message j) = true →
    n = { m with holdings := n.holdings, preempted := n.preempted } ∧
    ∀ z : Fin 16, n.holdings.getLsbD z.val = true ↔
      m.holdings.getLsbD z.val = true ∧ ¬Loses s zones (.message j) z) ∧
  (m.working = true → (∃ z, Loses s zones (.message j) z) → holdsAny t.zar (.message j) = false →
    (∀ f, m.outstanding = some f →
      n = { m with state := .ending, status := some .evicted, endFrame := s.ftu.frame, holdings := 0 }) ∧
    (m.outstanding = none → n = MessageSlot.cleared ∧
      ∀ r, OwnMessageRecord s j i r → pendingFlag t .cueDone = true ∧
        RecordReads s t r
          { status := .evicted, late := m.late, preempted := m.preempted, refused := m.refused,
            takeFrame := m.takeFrame, firstShown := m.firstShown.getD 0, endFrame := s.ftu.frame,
            framesShown := m.framesShown, litFrames := m.litFrames } 3))

/-! ## Invariants -/

/-- The answer of a step goes on to a state with a property; a stop says nothing. -/
def Keeps (o : Host.Outcome State Fault Refusal) (p : State → Prop) : Prop := ∀ t, o = .next t → p t

/-- A property that every command keeps, from every state that has it. -/
def Invariant (p : State → Prop) : Prop := ∀ (i : Instr) (s : State), p s → Keeps (exec i s) p

/-- The SMP is consistent: RUN reads as 1 in STARTING, RUNNING and FALLBACK alone (R3); no anchor is in force in STARTING,
and one is in RUNNING and FALLBACK (R6); the fault code is NONE but in FAULTED (R4); AV_ANCHOR holds a multiple of 4,096
(R2); the miss count lies in 0 to 600 (R13). -/
def SmpConsistent (s : State) : Prop :=
  s.smp.run = !s.smp.dev.stopped ∧ (s.smp.dev = .starting → s.smp.inForce = false) ∧
  (s.smp.dev.live = true → s.smp.inForce = true) ∧ (s.smp.dev ≠ .faulted → s.smp.fault = .none) ∧
  s.smp.anchor.toNat % 4096 = 0 ∧ s.smp.missCount ≤ 600

/-- Every claim list has its form (R64, R65); a group's claim stands only in a zone that names the group (R72); and the
SRU's zone set of each group is the set of zones that name it (R60). -/
def ClaimListsFormed (s : State) : Prop :=
  (∀ (z : Fin 16) (e : ZoneEntry), s.zar.table[z] = some e →
    claimsWf e.claims ∧ ∀ c ∈ e.claims, ∀ g, c.who = .group g → e.defn.group = some g) ∧
  ∀ g : Fin 8, s.sru.groups[g].zones = zoneSetOf s.zar.table g

/-- Every channel's count lies within its ceiling, and its presets within theirs (R154, R156). -/
def ClockCountsBounded (s : State) : Prop :=
  ∀ c : Fin 4, s.ccu.channels[c].count ≤ s.ccu.channels[c].ceiling ∧
    s.ccu.channels[c].preset ≤ Config.ceilingDown ∧
    ∀ p, s.ccu.channels[c].pendingPreset = some p → p ≤ Config.ceilingDown

/-- Every balance lies in its range, and the balances of a group whose SATURATED flag is clear sum to zero (R136). -/
def BalancesSettled (s : State) : Prop :=
  ∀ g : Fin 8,
    (∀ i : Fin 64, Config.balanceMin ≤ s.sru.accounts[g][i].balance ∧
      s.sru.accounts[g][i].balance ≤ Config.balanceMax) ∧
    (s.sru.groups[g].saturated = false → ((List.finRange 64).map fun i => s.sru.accounts[g][i].balance).sum = 0)

/-- Delivered zone-frames equal logged, unlogged, held and running ones, as 64-bit counts (R153). -/
def DeliveredConserved (s : State) : Prop :=
  ∀ (g : Fin 8) (i : Fin 64), s.sru.accounts[g][i].delivered =
    s.sru.accounts[g][i].logged + s.sru.accounts[g][i].unlogged +
      BitVec.ofNat 64 (heldFrames s g i + openFrames s g i)

/-- The hold queue holds at most eight records (R146). -/
def HoldBounded (s : State) : Prop := s.plw.hold.length ≤ 8

end Sys2Proof.Machine
end

