-- ==== Sys2Proof/Certificates/Slice0/Obligations.lean ====
section
/-! DEFINITION. The statements for the provers: what each command of the AV-440 does, by the numbered rules of spec/, and
the invariants that every command keeps. Every bit constant of the pending flags is the event's place in 12.2. -/

open Sys2Proof Sys2Proof.Machine

/-! ## The step and the queue -/

/-- A step at a state with command c at the front of its queue is c's effect on the state with the queue's rest; every
command completes, and none touches the queue. That an empty queue idles is the model's choice (log 2). -/
def Obligations.StepTakesFrontCommand : Prop :=
  (∀ (c : Instr) (rest : List Instr) (s : State),
    step (s.withPending (c :: rest)) = exec c (s.withPending rest)) ∧
  (∀ (c : Instr) (s : State), ∃ t, exec c s = .next t ∧ t.pending = s.pending) ∧
  ∀ s : State, s.pending = [] → step s = .next s

/-! ## Control window and resets (chapter 1) -/

/-- A write to AV_ANCHOR is taken in HALTED and FAULTED with its low 12 bits discarded, ending the anchor in force, and is
ignored in the other device states. A write that sets RUN in HALTED or FAULTED enters STARTING; one that clears RUN in
STARTING abandons the start; one that leaves RUN as it was has no effect (R2, R3, R6, R9). That a frame start delivered
before the entry is not awaited any more is the model's choice (log 8). -/
def Obligations.AnchorAndRunWritesByDeviceState : Prop :=
  (∀ (v : Word) (s : State), ∃ t, exec (.anchorWrite v) s = .next t ∧
    (s.smp.dev = .halted ∨ s.smp.dev = .faulted →
      t = { s with smp := { s.smp with anchor := v &&& 0xFFFFF000#32, inForce := false } }) ∧
    (s.smp.dev = .starting ∨ s.smp.dev = .running ∨ s.smp.dev = .fallback → t = s)) ∧
  (∀ (v : Word) (s : State), v.getLsbD 0 = true → v.getLsbD 1 = false → ∃ t, exec (.setRun v) s = .next t ∧
    (s.smp.run = false → s.smp.dev = .halted ∨ s.smp.dev = .faulted →
      t = { s with smp :=
        { s.smp with run := true, dev := .starting, fault := .none, inForce := false, frameDue := false } }) ∧
    (s.smp.run = true → t = s)) ∧
  (∀ (v : Word) (s : State), v.getLsbD 0 = false → v.getLsbD 1 = false → ∃ t, exec (.halt v) s = .next t ∧
    (s.smp.run = true → s.smp.dev = .starting → s.smp.inForce = false →
      t = { s with smp := { s.smp with run := false, dev := .halted, fault := .none } }) ∧
    (s.smp.run = false → t = s))

/-- A write that clears RUN in RUNNING or FALLBACK halts the device: HALTED at once with the anchor still in force, no
claim left in any zone, every clip and message ended, every group disabled with no current slot, and the FTU, CIU, CLO and
CCU as they were. The current slot of an ENABLED group is cut: it closes at once without an outstanding frame, and with one
it is the closing slot and knows the anchor that this halt left in force (log 22); a closing slot is as it was. With an anchor in force whose block no other region overlaps, its device state field reads HALTED, and
its group status shows every group that was ENABLED as DISABLED (R8, R12, R105, R121, R134, R139,
R142). -/
def Obligations.HaltStopsDevice : Prop :=
  ∀ (v : Word) (s : State), v.getLsbD 0 = false → v.getLsbD 1 = false → s.smp.run = true →
    s.smp.dev = .running ∨ s.smp.dev = .fallback → ∃ t, exec (.halt v) s = .next t ∧
    t.smp.core = { s.smp.core with run := false, dev := .halted } ∧
    (∀ z : Fin 16, claimsAt t.zar z = []) ∧ t.zar.banks = s.zar.banks ∧ t.zar.selector = s.zar.selector ∧
    (∀ k : Fin 8, t.cle.slots[k].state ≠ .playing ∧ t.cle.slots[k].state ≠ .held ∧
      (s.cle.slots[k].working = true → ∀ f, s.cle.slots[k].outstanding = some f → t.cle.slots[k] =
        { s.cle.slots[k] with state := .ending, status := some .halted, endFrame := s.ftu.frame, holdings := 0 }) ∧
      (s.cle.slots[k].working = false → t.cle.slots[k] = s.cle.slots[k])) ∧
    (∀ k : Fin 8, t.msu.slots[k].state ≠ .showing ∧
      (s.msu.slots[k].working = true → ∀ f, s.msu.slots[k].outstanding = some f → t.msu.slots[k] =
        { s.msu.slots[k] with state := .ending, status := some .halted, endFrame := s.ftu.frame, holdings := 0 }) ∧
      (s.msu.slots[k].working = false → t.msu.slots[k] = s.msu.slots[k])) ∧
    (∀ g : Fin 8, t.sru.groups[g].enabled = false ∧
      (s.sru.groups[g].enabled = true → hasCurrent t.sru.groups[g] = false) ∧
      t.sru.groups[g].slotNumber = s.sru.groups[g].slotNumber ∧ t.sru.groups[g].zones = s.sru.groups[g].zones ∧
      (∀ x, s.sru.groups[g].openSlot = some x → s.sru.groups[g].enabled = true → x.closing = false →
        t.sru.groups[g].openSlot = (if x.outstanding = none then none else
          some { x with cut := true, closing := true, haltedUnder := some s.smp.anchorEpoch })) ∧
      (∀ x, s.sru.groups[g].openSlot = some x → x.closing = true → t.sru.groups[g].openSlot = some x)) ∧
    t.sru.entries = s.sru.entries ∧
    ChangesOnly [.mem, .smp, .events, .zar, .cle, .msu, .sru, .plw, .etu, .free] s t ∧
    (s.smp.inForce = false → t.mem = s.mem) ∧
    (s.smp.inForce = true → CueListInside s → ListApart s → LogInside s → SnapshotInside s →
      t.mem.word (s.smp.anchor.toNat + 0x100) = 0 ∧
      ∀ g : Fin 8, s.sru.groups[g].enabled = true →
        (t.mem.get (s.smp.anchor.toNat + 0x128 + g.val)).getLsbD 0 = false)

/-- A soft reset and a link reset reach every block in any device state, and leave there what its chapter says (R16, R17,
R30, R53, R75, R87, R107, R122, R143, R152, R169, R170). The FTU is in FREE, and its next frame start is placed by the kept
free-run period, or issued at once when that tick has passed. The model's choices in it: the command carries no tick, and
which tick is the present one is a free value, not before the tick last counted and not after the next scheduled frame
start (log 3); a frame start that waits in the SMP goes on waiting (log 8); and the cue list offset and length and the
exposure snapshot offset, which no chapter keeps or clears at a reset, are kept (log 39). -/
def Obligations.ResetsReachEveryBlock : Prop :=
  ∀ (c : Instr) (cause : ResetCause) (s : State),
    (∃ v : Word, c = .softReset v ∧ v.getLsbD 1 = true ∧ cause = .soft) ∨ (c = .linkReset ∧ cause = .link) →
    ∃ (t : State) (now : Nat), exec c s = .next t ∧ ResetLeaves cause s t ∧
      s.ftu.tick ≤ now ∧ (∀ x rest, s.ftu.schedule = x :: rest → now ≤ max s.ftu.tick x.tick) ∧
      (now ≤ s.ftu.lastStart + s.ftu.freeRun →
        t.smp.events = 0 ∧ t.smp.frameDue = s.smp.frameDue ∧
        t.ftu = { s.ftu with tick := now, lock := .free, lockedPeriod := none, measured := 0, runCount := 0,
                             runOpen := false, slipCount := 0, lastEdge := none,
                             schedule := [⟨s.ftu.lastStart + s.ftu.freeRun, true⟩] }) ∧
      (s.ftu.lastStart + s.ftu.freeRun < now →
        t.ftu.frame = s.ftu.frame + 1 ∧ t.ftu.tick = now ∧ t.ftu.lastStart = now ∧ t.smp.frameDue = true ∧
        t.ftu.lock = (if s.ftu.refEnable then .acquiring else .free) ∧
        t.smp.events = (if s.ftu.refEnable then 0x020#10 else 0#10) ∧ t.ftu.lockedPeriod = none ∧
        t.ftu.measured = 0 ∧ t.ftu.runCount = 0 ∧ t.ftu.slipCount = 0 ∧ t.ftu.lastEdge = none ∧
        t.ftu.freeRun = s.ftu.freeRun ∧ t.ftu.refEnable = s.ftu.refEnable ∧ t.ftu.phase = s.ftu.phase ∧
        t.ftu.schedule = [⟨now + s.ftu.freeRun, true⟩])

/-- A power-on reset sets the SMP's registers, ends any anchor, deasserts the interrupt line, and gives every other block
its power-on values with frame number 0 (R18, R31). The model's choices in it: show memory keeps its bytes, and the tick
count goes on to a present tick that is a free value (logs 3, 21); the fields that the spec gives no reset value are 0,
and the gates of the CLE, MSU and SRU are open (logs 20, 33). -/
def Obligations.PowerOnResetSetsEveryBlock : Prop :=
  ∀ s : State, ∃ t, exec .powerOnReset s = .next t ∧
    t.smp.anchor = 0 ∧ t.smp.run = false ∧ t.smp.events = 0 ∧ t.smp.enables = 0 ∧ t.smp.dev = .halted ∧
    t.smp.fault = .none ∧ t.smp.cause = .powerOn ∧ t.smp.missCount = 0 ∧ t.smp.lastSeen = 0 ∧
    t.smp.inForce = false ∧ interruptLine t = false ∧
    (∀ offset : BitVec 8, readRegister t offset = 0) ∧
    t.ftu.frame = 0 ∧ t.ftu.lock = .free ∧ t.ftu.lockedPeriod = none ∧ t.ftu.measured = 0 ∧ t.ftu.runCount = 0 ∧
    t.ftu.slipCount = 0 ∧ t.ftu.lastEdge = none ∧ t.ftu.freeRun = 1666667 ∧ t.ftu.refEnable = false ∧
    t.ftu.phase = 0 ∧ s.ftu.tick ≤ t.ftu.tick ∧ t.ftu.lastStart = t.ftu.tick ∧
    t.ftu.schedule = [⟨t.ftu.tick + 1666667, true⟩] ∧
    t.ciu = Ciu.reset ∧ t.zar = Zar.reset ∧ t.clo = Clo.reset ∧ t.cle = Cle.reset ∧ t.msu = Msu.reset ∧
    t.sru = Sru.reset ∧ t.plw = Plw.reset ∧ t.ccu.channels = Ccu.reset.channels ∧ t.ccu.lines = Ccu.reset.lines ∧
    t.ccu.horn = 0 ∧ t.etu = Etu.reset ∧ t.mem = s.mem

/-- A write to AV_EVENTS clears exactly the flags whose bit is 1; a write to AV_EVENT_ENABLE is plain and reads back; a
write to AV_STATUS, AV_FRAME or an offset that holds no register is ignored; and the interrupt line is asserted exactly
while some event is both pending and enabled (R2, R15). -/
def Obligations.EventRegistersFollowHostWrites : Prop :=
  (∀ (v : Word) (s : State), ∃ t, exec (.eventClear v) s = .next t ∧
    (∀ e : Event, pendingFlag t e = (pendingFlag s e && !v.getLsbD e.bit)) ∧
    t = { s with smp := { s.smp with events := t.smp.events } }) ∧
  (∀ (v : Word) (s : State), ∃ t, exec (.eventEnableWrite v) s = .next t ∧
    readRegister t 0x10#8 = v &&& 0x3FF#32 ∧ t = { s with smp := { s.smp with enables := t.smp.enables } }) ∧
  (∀ (offset : BitVec 8) (v : Word) (s : State), (Instr.controlWindowWrite offset v).wf = true →
    exec (.controlWindowWrite offset v) s = .next s) ∧
  ∀ s : State, interruptLine s = true ↔ ∃ e : Event, pendingFlag s e = true ∧ s.smp.enables.getLsbD e.bit = true

/-! ## Frame timing (chapter 2) -/

/-- When the tick count reaches the earliest scheduled frame start, it is removed and issued: the frame number advances,
wrapping, its tick becomes the last frame start, every receiving block is delivered it, and with an anchor in force the
new number stands in the anchor (R19). With an empty schedule no frame start occurs. -/
def Obligations.FrameStartDelivered : Prop :=
  (∀ s : State, s.ftu.schedule = [] → exec .frameStart s = .next s) ∧
  ∀ (s : State) (x : Sched) (rest : List Sched), s.ftu.schedule = x :: rest → s.ftu.tick ≤ x.tick →
    s.smp.anchor.toNat % 4096 = 0 → ∃ t, exec .frameStart s = .next t ∧
    t.ftu.frame = s.ftu.frame + 1 ∧ t.ftu.tick = x.tick ∧ t.ftu.lastStart = x.tick ∧
    t.smp.frameDue = true ∧ t.ciu = { s.ciu with frameDue := true } ∧ t.clo = { s.clo with frameDue := true } ∧
    t.msu = { s.msu with frameDue := true } ∧ t.plw = { s.plw with frameDue := true } ∧
    t.ccu = { s.ccu with frameDue := true } ∧ t.etu = { s.etu with frameDue := true } ∧
    (s.smp.inForce = true → t.mem.word (s.smp.anchor.toNat + 0x114) = s.ftu.frame + 1 ∧
      ∀ a, ¬AnchorByte s 0x114 0x124 a → t.mem.get a = s.mem.get a) ∧
    (s.smp.inForce = false → t.mem = s.mem) ∧
    ChangesOnly [.mem, .events, .due, .ftu, .ciu, .clo, .msu, .plw, .ccu, .etu] s t

/-- At a frame start the FTU reads its three settings while an anchor is in force and keeps them otherwise; it then acts
on the reference enable, and, outside LOCKED, places the next frame start by the period in use into an empty schedule
(R20, R21, R22, R23, R29). -/
def Obligations.FrameStartReadsSettingsAndPlaces : Prop :=
  ∀ (s : State) (x : Sched) (rest : List Sched), s.ftu.schedule = x :: rest → s.ftu.tick ≤ x.tick →
    ∃ t, exec .frameStart s = .next t ∧
    t.ftu.freeRun =
      (if s.smp.inForce then max 416667 (min 4166667 (anchorWord s 0x30).toNat) else s.ftu.freeRun) ∧
    t.ftu.refEnable = (if s.smp.inForce then anchorWord s 0x34 != 0 else s.ftu.refEnable) ∧
    t.ftu.phase = (if s.smp.inForce then anchorWord s 0x38 else s.ftu.phase) ∧
    t.ftu.lock =
      (if t.ftu.refEnable then (if s.ftu.lock = .free then .acquiring else s.ftu.lock) else .free) ∧
    t.smp.events = s.smp.events ||| (if t.ftu.lock = s.ftu.lock then 0#10 else 0x020#10) ∧
    (s.ftu.lock ≠ .free → t.ftu.lock = .free →
      t.ftu.lockedPeriod = none ∧ t.ftu.measured = 0 ∧ t.ftu.runCount = 0 ∧ t.ftu.slipCount = 0 ∧
      t.ftu.lastEdge = none) ∧
    (s.ftu.lock = .free → t.ftu.lock = .acquiring →
      t.ftu.runCount = 0 ∧ t.ftu.lastEdge = none ∧ t.ftu.lockedPeriod = s.ftu.lockedPeriod ∧
      t.ftu.measured = s.ftu.measured) ∧
    t.ftu.schedule =
      (if rest = [] ∧ t.ftu.lock ≠ .locked then [⟨x.tick + t.ftu.lockedPeriod.getD t.ftu.freeRun, true⟩] else rest)

/-- A reference edge is ignored in FREE; in ACQUIRING the first edge only becomes the last edge, and each later one gives
a period that is discarded out of range, starts a run, matches, or restarts the run (R22, R23). -/
def Obligations.EdgesOutsideLockMeasured : Prop :=
  ∀ (k : Nat) (s : State), s.ftu.tick ≤ k → s.smp.anchor.toNat % 4096 = 0 → ∃ t, exec (.referenceEdge k) s = .next t ∧
    (s.ftu.lock = .free → t = { s with ftu := { s.ftu with tick := k } }) ∧
    (s.ftu.lock = .acquiring → s.ftu.lastEdge = none →
      t = { s with ftu := { s.ftu with tick := k, lastEdge := some k } }) ∧
    ∀ l, s.ftu.lock = .acquiring → s.ftu.lastEdge = some l → l ≤ k →
      (k - l < 400000 ∨ 4200000 < k - l →
        t = { s with ftu := { s.ftu with tick := k, lastEdge := some k, runCount := 0, runOpen := false } }) ∧
      (400000 ≤ k - l → k - l ≤ 4200000 → s.ftu.runOpen = false →
        t.ftu = { s.ftu with tick := k, lastEdge := some k, measured := k - l, runCount := 0, runOpen := true }) ∧
      (400000 ≤ k - l → k - l ≤ 4200000 → s.ftu.runOpen = true →
        s.ftu.measured < (max (k - l) s.ftu.measured - min (k - l) s.ftu.measured) * 1000 →
        t.ftu = { s.ftu with tick := k, lastEdge := some k, measured := k - l, runCount := 0, runOpen := true }) ∧
      (400000 ≤ k - l → k - l ≤ 4200000 → s.ftu.runOpen = true → s.ftu.runCount ≠ 3 →
        (max (k - l) s.ftu.measured - min (k - l) s.ftu.measured) * 1000 ≤ s.ftu.measured →
        t.ftu = { s.ftu with tick := k, lastEdge := some k, measured := k - l,
                             runCount := s.ftu.runCount + 1 }) ∧
      (400000 ≤ k - l → k - l ≤ 4200000 → t.ftu.lock = .acquiring →
        ChangesOnly [.mem, .ftu] s t ∧ (s.smp.inForce = false → t.mem = s.mem) ∧
        (∀ a, ¬AnchorByte s 0x118 0x124 a → t.mem.get a = s.mem.get a) ∧
        (s.smp.inForce = true → t.mem.word (s.smp.anchor.toNat + 0x118) = 1 ∧
          t.mem.word (s.smp.anchor.toNat + 0x11C) = BitVec.ofNat 32 (k - l)))

/-- The edge that brings the run count to 4 enters LOCKED, as REFERENCE_EDGE and as ENTER_LOCKED alike: its period
becomes the locked period, the frame starts placed by period are cancelled, REF_STATE is raised, and the edge's proposal
is dropped before the guard tick and taken from it on: scheduled, or, with the phase offset 0, issued at once, where the
frame start reads its settings (R20, R22 to R24, R26, R29). As a command of its own ENTER_LOCKED acts on no other edge: not in
another lock state, not with another run count, and not on a period out of range or without a match (log 9). -/
def Obligations.FourthMatchEntersLocked : Prop :=
  (∀ (k : Nat) (s : State), s.ftu.lock ≠ .acquiring ∨ s.ftu.lastEdge = none ∨ s.ftu.runCount ≠ 3 →
    exec (.enterLocked k) s = .next s) ∧
  (∀ (k l : Nat) (s : State), s.ftu.tick ≤ k → s.ftu.lastEdge = some l →
    k - l < 400000 ∨ 4200000 < k - l ∨ s.ftu.runOpen = false ∨
      s.ftu.measured < (max (k - l) s.ftu.measured - min (k - l) s.ftu.measured) * 1000 →
    exec (.enterLocked k) s = .next s) ∧
  ∀ (k l : Nat) (s : State), s.ftu.tick ≤ k → s.ftu.lock = .acquiring → s.ftu.lastEdge = some l → l ≤ k →
    400000 ≤ k - l → k - l ≤ 4200000 → s.ftu.runOpen = true → s.ftu.runCount = 3 →
    (max (k - l) s.ftu.measured - min (k - l) s.ftu.measured) * 1000 ≤ s.ftu.measured →
    (let kept := s.ftu.schedule.filter fun x => !x.byPeriod
     let p := k + min s.ftu.phase.toNat (k - l - 1)
     let guard := (kept.map Sched.tick).foldl max s.ftu.lastStart + (k - l) / 2
     (0 < s.ftu.phase.toNat ∨ k < guard →
      ∃ t, exec (.enterLocked k) s = .next t ∧ exec (.referenceEdge k) s = .next t ∧
       t.ftu.lock = .locked ∧ t.ftu.lockedPeriod = some (k - l) ∧ t.ftu.measured = k - l ∧ t.ftu.slipCount = 0 ∧
       t.ftu.runCount = 4 ∧ t.ftu.lastEdge = some k ∧ t.ftu.frame = s.ftu.frame ∧
       t.smp.events = s.smp.events ||| 0x020#10 ∧
       (p < guard → t.ftu.schedule = kept) ∧ (guard ≤ p → t.ftu.schedule = kept ++ [⟨p, false⟩]) ∧
       ChangesOnly [.mem, .events, .ftu] s t ∧ (s.smp.inForce = false → t.mem = s.mem) ∧
       ∀ a, ¬AnchorByte s 0x118 0x124 a → t.mem.get a = s.mem.get a) ∧
     (s.ftu.phase.toNat = 0 → guard ≤ k → s.smp.anchor.toNat % 4096 = 0 →
      ∃ t, exec (.enterLocked k) s = .next t ∧ exec (.referenceEdge k) s = .next t ∧
       (let enabled := if s.smp.inForce then anchorWord s 0x34 != 0 else s.ftu.refEnable
        t.ftu.frame = s.ftu.frame + 1 ∧ t.ftu.lastStart = k ∧ t.smp.frameDue = true ∧
        t.smp.events = s.smp.events ||| 0x020#10 ∧
        (enabled = true → t.ftu.lock = .locked ∧ t.ftu.lockedPeriod = some (k - l) ∧ t.ftu.measured = k - l ∧
          t.ftu.slipCount = 0 ∧ t.ftu.runCount = 4 ∧ t.ftu.lastEdge = some k ∧ t.ftu.schedule = kept) ∧
        (enabled = false → t.ftu.lock = .free ∧ t.ftu.lockedPeriod = none ∧ t.ftu.measured = 0 ∧
          t.ftu.runCount = 0 ∧ t.ftu.lastEdge = none ∧
          t.ftu.schedule = if kept = [] then [⟨k + t.ftu.freeRun, true⟩] else kept) ∧
        ChangesOnly [.mem, .events, .due, .ftu, .ciu, .clo, .msu, .plw, .ccu, .etu] s t ∧
        (s.smp.inForce = false → t.mem = s.mem) ∧
        ∀ a, ¬AnchorByte s 0x114 0x124 a → t.mem.get a = s.mem.get a)))

/-- An edge in LOCKED within 0.1% of the locked period is good: its interval becomes the measured period and the slip
count 0. Another is a slip: the first only counts. Either proposes a frame start at its tick plus the offset, dropped
before the guard tick and taken from it on: scheduled, or, with the phase offset 0, issued at once, where the frame start
reads its settings (R20, R22, R24 to R26, R29). -/
def Obligations.LockedEdgeGoodOrFirstSlip : Prop :=
  ∀ (k l p : Nat) (s : State), s.ftu.tick ≤ k → s.ftu.lock = .locked → s.ftu.lastEdge = some l → l ≤ k →
    s.ftu.lockedPeriod = some p → 2 ≤ p →
    (let good := (max (k - l) p - min (k - l) p) * 1000 ≤ p
     let q := k + min s.ftu.phase.toNat (p - 1)
     let guard := (s.ftu.schedule.map Sched.tick).foldl max s.ftu.lastStart + p / 2
     (good ∨ s.ftu.slipCount = 0 → 0 < s.ftu.phase.toNat ∨ k < guard →
      ∃ t, exec (.referenceEdge k) s = .next t ∧
       (good → t.ftu.measured = k - l ∧ t.ftu.slipCount = 0) ∧
       (¬good → t.ftu.measured = s.ftu.measured ∧ t.ftu.slipCount = 1 ∧ t.mem = s.mem) ∧
       t.ftu.lock = .locked ∧ t.ftu.lockedPeriod = some p ∧ t.ftu.lastEdge = some k ∧ t.ftu.frame = s.ftu.frame ∧
       (q < guard → t.ftu.schedule = s.ftu.schedule) ∧
       (guard ≤ q → t.ftu.schedule = s.ftu.schedule ++ [⟨q, false⟩]) ∧
       ChangesOnly [.mem, .ftu] s t ∧ (s.smp.inForce = false → t.mem = s.mem) ∧
       ∀ a, ¬AnchorByte s 0x118 0x124 a → t.mem.get a = s.mem.get a) ∧
     (good ∨ s.ftu.slipCount = 0 → s.ftu.phase.toNat = 0 → guard ≤ k → s.smp.anchor.toNat % 4096 = 0 →
      ∃ t, exec (.referenceEdge k) s = .next t ∧
       (let enabled := if s.smp.inForce then anchorWord s 0x34 != 0 else s.ftu.refEnable
        t.ftu.frame = s.ftu.frame + 1 ∧ t.ftu.lastStart = k ∧ t.smp.frameDue = true ∧
        (enabled = true → t.ftu.lock = .locked ∧ t.ftu.lockedPeriod = some p ∧ t.ftu.lastEdge = some k ∧
          (good → t.ftu.measured = k - l ∧ t.ftu.slipCount = 0) ∧
          (¬good → t.ftu.measured = s.ftu.measured ∧ t.ftu.slipCount = 1) ∧
          t.ftu.schedule = s.ftu.schedule ∧ t.smp.events = s.smp.events) ∧
        (enabled = false → t.ftu.lock = .free ∧ t.ftu.lockedPeriod = none ∧ t.ftu.measured = 0 ∧
          t.ftu.slipCount = 0 ∧ t.ftu.lastEdge = none ∧ t.smp.events = s.smp.events ||| 0x020#10 ∧
          t.ftu.schedule = if s.ftu.schedule = [] then [⟨k + t.ftu.freeRun, true⟩] else s.ftu.schedule) ∧
        ChangesOnly [.mem, .events, .due, .ftu, .ciu, .clo, .msu, .plw, .ccu, .etu] s t ∧
        (s.smp.inForce = false → t.mem = s.mem) ∧
        ∀ a, ¬AnchorByte s 0x114 0x124 a → t.mem.get a = s.mem.get a)))

/-- A second slip in LOCKED, and any edge in HOLDOVER, enter ACQUIRING: the edge is not counted, the locked period is
kept, REF_STATE is raised, and the next frame start is placed by period into an empty schedule, or issued at once when its
tick has passed, where the settings are read or kept and a disabled reference enters FREE (R20 to R23, R25, R28, R29). -/
def Obligations.SecondSlipOrHoldoverEdgeReacquires : Prop :=
  ∀ (k l p : Nat) (s : State), s.ftu.tick ≤ k → s.ftu.lockedPeriod = some p →
    (s.ftu.lock = .holdover ∨ (s.ftu.lock = .locked ∧ s.ftu.lastEdge = some l ∧ s.ftu.slipCount ≠ 0 ∧ l ≤ k ∧
      p < (max (k - l) p - min (k - l) p) * 1000)) →
    (s.ftu.schedule ≠ [] ∨ k ≤ s.ftu.lastStart + p →
     ∃ t, exec (.referenceEdge k) s = .next t ∧
      t.ftu = { s.ftu with
        tick := k, lock := .acquiring, runCount := 0, runOpen := false, lastEdge := none,
        schedule := if s.ftu.schedule = [] then [⟨s.ftu.lastStart + p, true⟩] else s.ftu.schedule } ∧
      t.smp.events = s.smp.events ||| 0x020#10 ∧
      ChangesOnly [.mem, .events, .ftu] s t ∧ (s.smp.inForce = false → t.mem = s.mem) ∧
      ∀ a, ¬AnchorByte s 0x118 0x124 a → t.mem.get a = s.mem.get a) ∧
    (s.ftu.schedule = [] → s.ftu.lastStart + p < k → s.smp.anchor.toNat % 4096 = 0 →
     ∃ t, exec (.referenceEdge k) s = .next t ∧
      (let enabled := if s.smp.inForce then anchorWord s 0x34 != 0 else s.ftu.refEnable
       t.ftu.frame = s.ftu.frame + 1 ∧ t.ftu.tick = k ∧ t.ftu.lastStart = k ∧ t.smp.frameDue = true ∧
       t.smp.events = s.smp.events ||| 0x020#10 ∧ t.ftu.runCount = 0 ∧ t.ftu.lastEdge = none ∧
       (enabled = true → t.ftu.lock = .acquiring ∧ t.ftu.lockedPeriod = some p ∧ t.ftu.measured = s.ftu.measured ∧
         t.ftu.schedule = [⟨k + p, true⟩]) ∧
       (enabled = false → t.ftu.lock = .free ∧ t.ftu.lockedPeriod = none ∧ t.ftu.measured = 0 ∧
         t.ftu.schedule = [⟨k + t.ftu.freeRun, true⟩]) ∧
       ChangesOnly [.mem, .events, .due, .ftu, .ciu, .clo, .msu, .plw, .ccu, .etu] s t ∧
       (s.smp.inForce = false → t.mem = s.mem) ∧
       ∀ a, ¬AnchorByte s 0x114 0x124 a → t.mem.get a = s.mem.get a))

/-- One and a half locked periods after the last edge, rounded down, LOCKED becomes HOLDOVER with REF_STATE, and, with an
anchor in force, the reference state is written; the next frame start is placed at the last frame start plus the locked
period, or issued at once if that tick has passed, where the settings are read or kept and a disabled reference enters
FREE (R20 to R22, R27, R29). In another lock state there is no holdover interval. -/
def Obligations.HoldoverKeepsLockedRate : Prop :=
  (∀ s : State, s.ftu.lock ≠ .locked → exec .holdoverExpiry s = .next s) ∧
  ∀ (e p : Nat) (s : State), s.ftu.lock = .locked → s.ftu.lastEdge = some e → s.ftu.lockedPeriod = some p →
    s.ftu.schedule = [] → s.ftu.tick ≤ e + p + p / 2 → s.smp.anchor.toNat % 4096 = 0 →
    ∃ t, exec .holdoverExpiry s = .next t ∧
      t.ftu.slipCount = 0 ∧ t.ftu.tick = e + p + p / 2 ∧ t.smp.events = s.smp.events ||| 0x020#10 ∧
      (s.smp.inForce = false → t.mem = s.mem) ∧
      (s.smp.inForce = true → t.mem.word (s.smp.anchor.toNat + 0x118) = t.ftu.lock.code ∧
        t.mem.word (s.smp.anchor.toNat + 0x11C) = BitVec.ofNat 32 t.ftu.measured ∧
        t.mem.word (s.smp.anchor.toNat + 0x120) = BitVec.ofNat 32 (t.ftu.lockedPeriod.getD 0)) ∧
      (e + p + p / 2 ≤ s.ftu.lastStart + p →
        t.ftu.lock = .holdover ∧ t.ftu.lockedPeriod = some p ∧ t.ftu.measured = s.ftu.measured ∧
        t.ftu.frame = s.ftu.frame ∧ t.ftu.schedule = [⟨s.ftu.lastStart + p, true⟩] ∧
        ChangesOnly [.mem, .events, .ftu] s t ∧
        ∀ a, ¬AnchorByte s 0x118 0x124 a → t.mem.get a = s.mem.get a) ∧
      (s.ftu.lastStart + p < e + p + p / 2 →
        (let enabled := if s.smp.inForce then anchorWord s 0x34 != 0 else s.ftu.refEnable
         t.ftu.frame = s.ftu.frame + 1 ∧ t.ftu.lastStart = e + p + p / 2 ∧ t.smp.frameDue = true ∧
         (enabled = true → t.ftu.lock = .holdover ∧ t.ftu.lockedPeriod = some p ∧
           t.ftu.schedule = [⟨e + p + p / 2 + p, true⟩]) ∧
         (enabled = false → t.ftu.lock = .free ∧ t.ftu.lockedPeriod = none ∧ t.ftu.measured = 0 ∧
           t.ftu.lastEdge = none ∧ t.ftu.schedule = [⟨e + p + p / 2 + t.ftu.freeRun, true⟩]) ∧
         ChangesOnly [.mem, .events, .due, .ftu, .ciu, .clo, .msu, .plw, .ccu, .etu] s t ∧
         ∀ a, ¬AnchorByte s 0x114 0x124 a → t.mem.get a = s.mem.get a))

/-! ## Start-up and the heartbeat watch (chapter 1) -/

/-- In STARTING, the first check of R9 that fails gives the fault code: FAULTED, RUN cleared, ANCHOR_FAULT raised, no
anchor in force, and nothing written into show memory; FAULTED is left by RUN, and AV_ANCHOR is taken in it (R9, R11). -/
def Obligations.FailedStartFaults : Prop :=
  ∀ (now : Bool) (code : FaultCode) (s : State), s.smp.frameDue = true → s.smp.dev = .starting →
    s.smp.inForce = false →
    (let cues := (anchorWord s 0x08).toNat
     let n := (anchorWord s 0x1C).toNat
     (code = .format ∧ anchorWord s 0x00 ≠ 1) ∨
     (anchorWord s 0x00 = 1 ∧
       ((code = .cueLength ∧ (cues < 16 ∨ 1024 < cues)) ∨
        (16 ≤ cues ∧ cues ≤ 1024 ∧
          ((code = .logLength ∧ (n < 64 ∨ 65536 < n)) ∨
           (64 ≤ n ∧ n ≤ 65536 ∧
             ((code = .logIndex ∧ n ≤ (anchorWord s 0x20).toNat) ∨
              ((anchorWord s 0x20).toNat < n ∧
                ((code = .region ∧ regionsOk s = false) ∨
                 (code = .commonLayout ∧ regionsOk s = true ∧ commonLayout s = none)))))))))) →
    ∃ t, exec (.anchorCheck now) s = .next t ∧
      t = { s with smp := { s.smp with dev := .faulted, fault := code, run := false, frameDue := false,
                                       events := s.smp.events ||| 0x200#10 } } ∧
      (∃ u, exec (.setRun 1) t = .next u ∧ u.smp.dev = .starting ∧ u.smp.run = true) ∧
      ∀ v : Word, ∃ u, exec (.anchorWrite v) t = .next u ∧ u.smp.anchor = v &&& 0xFFFFF000#32

/-- When every check passes, the anchor comes into force, the owners take it, bank 0 and the zone table are loaded, and
the device is RUNNING; the part-written area then reads as the state stands (R8, R10, R59, 12.3). At which frame start the
FTU reads its settings is left open, and `now` stands for either (R20 to R23, R29, log 11): read at this one, they replace the kept
ones, the enable read is the one acted on, an entry into ACQUIRING that the kept enable made at this same frame start has
not occurred when it is disabled, and the next frame start is placed with the period read. With no frame start waiting
the check does not occur (the model's choice, log 8). -/
def Obligations.SuccessfulStartRuns : Prop :=
  (∀ (now : Bool) (s : State), s.smp.frameDue = false ∨ s.smp.dev ≠ .starting →
    exec (.anchorCheck now) s = .next s) ∧
  ∀ (now : Bool) (zones : List ZoneDef) (s : State), s.smp.frameDue = true → s.smp.dev = .starting →
    startCheck s = .ok zones → s.smp.anchor.toNat % 4096 = 0 → ∃ t, exec (.anchorCheck now) s = .next t ∧
    t.smp.dev = .running ∧ t.smp.inForce = true ∧ t.smp.run = s.smp.run ∧ t.smp.fault = s.smp.fault ∧
    t.smp.missCount = 0 ∧ t.smp.lastSeen = anchorWord s 0x28 ∧ t.ciu.scan = 0 ∧ t.ciu.refusing = false ∧
    t.ciu.listOffset = anchorWord s 0x04 ∧ t.ciu.listLength = (anchorWord s 0x08).toNat ∧
    t.clo.scoreOffset = anchorWord s 0x0C ∧ t.clo.fontOffset = anchorWord s 0x10 ∧
    t.plw.logOffset = anchorWord s 0x18 ∧ t.plw.logLength = (anchorWord s 0x1C).toNat ∧
    t.sru.snapshotOffset = anchorWord s 0x24 ∧ t.cle.gate = .open_ ∧ t.msu.afterHalt = false ∧
    t.sru.afterHalt = false ∧ t.zar.selector = 0 ∧ t.zar.banks[(0 : Fin 4)] = zones ∧
    (∀ b : Fin 4, b ≠ 0 → t.zar.banks[b] = s.zar.banks[b]) ∧
    (∀ z : Fin 16, t.zar.table[z] =
      (zones.find? fun d => d.id == z).map fun d => { bank := 0, defn := d, claims := [] }) ∧
    (∀ g : Fin 8, t.sru.groups[g].zones = zoneSetOf t.zar.table g ∧
      t.sru.groups[g].enabled = s.sru.groups[g].enabled) ∧
    (∀ k : Fin 96, (partWords t)[k.val]? = some (t.mem.word (s.smp.anchor.toNat + 0x100 + 4 * k.val))) ∧
    (now = false → t.ftu = s.ftu) ∧
    ((∀ g : Fin 8, s.sru.groups[g].openSlot = none) → t.plw.writeIndex = (anchorWord s 0x20).toNat ∧
      t.plw.badIndex = none ∧ (now = false → t.smp.events = s.smp.events)) ∧
    (now = true → (∀ g : Fin 8, s.sru.groups[g].openSlot = none) →
      t.ftu.freeRun = max 416667 (min 4166667 (anchorWord s 0x30).toNat) ∧
      t.ftu.refEnable = (anchorWord s 0x34 != 0) ∧ t.ftu.phase = anchorWord s 0x38 ∧
      t.ftu.lock = (if anchorWord s 0x34 = 0 then .free else if s.ftu.lock = .free then .acquiring else s.ftu.lock) ∧
      (s.ftu.keptEntry = none ∨ anchorWord s 0x34 ≠ 0 → t.smp.events =
        s.smp.events ||| (if t.ftu.lock = s.ftu.lock then 0#10 else 0x020#10)) ∧
      (∀ was, s.ftu.keptEntry = some was → s.ftu.lock = .acquiring → anchorWord s 0x34 = 0 →
        t.smp.events = if was then s.smp.events else s.smp.events &&& ~~~0x020#10) ∧
      ((∀ x ∈ s.ftu.schedule, x.byPeriod = true) → t.ftu.lock ≠ .locked →
        s.ftu.tick ≤ s.ftu.lastStart + t.ftu.lockedPeriod.getD t.ftu.freeRun →
        t.ftu.frame = s.ftu.frame ∧
        t.ftu.schedule = [⟨s.ftu.lastStart + t.ftu.lockedPeriod.getD t.ftu.freeRun, true⟩])) ∧
    t.clo.links = s.clo.links ∧ t.ccu.channels = s.ccu.channels ∧ t.ccu.lines = s.ccu.lines ∧
    t.cle.slots = s.cle.slots ∧ t.msu.slots = s.msu.slots ∧ t.etu.entries = s.etu.entries

/-- The heartbeat watch in RUNNING and FALLBACK, case by case of R13: a changed counter clears the miss count and ends
FALLBACK with RESUMED; an unchanged one counts towards the clamped window, or not at all with window 0. In HALTED and
FAULTED it does not run. That the row changes nothing with no frame start waiting, and that in HALTED and FAULTED it takes
the one that waits, is the model's choice (log 8). -/
def Obligations.HeartbeatWatchCounts : Prop :=
  (∀ s : State, s.smp.frameDue = false ∨ s.smp.dev = .starting → exec .heartbeatWatch s = .next s) ∧
  (∀ s : State, s.smp.frameDue = true → s.smp.dev = .halted ∨ s.smp.dev = .faulted →
    exec .heartbeatWatch s = .next { s with smp := { s.smp with frameDue := false } }) ∧
  ∀ s : State, s.smp.frameDue = true → s.smp.inForce = true → s.smp.anchor.toNat % 4096 = 0 →
    s.smp.dev = .running ∨ s.smp.dev = .fallback →
    (let window := min 600 (anchorWord s 0x2C).toNat
     anchorWord s 0x28 ≠ s.smp.lastSeen ∨ window = 0 ∨ s.smp.dev = .fallback ∨ s.smp.missCount + 1 < window →
     ∃ t, exec .heartbeatWatch s = .next t ∧
      t.smp.lastSeen = anchorWord s 0x28 ∧
      t.smp.missCount =
        (if anchorWord s 0x28 ≠ s.smp.lastSeen ∨ window = 0 then 0
         else if s.smp.dev = .running then s.smp.missCount + 1 else s.smp.missCount) ∧
      t.smp.dev = (if anchorWord s 0x28 ≠ s.smp.lastSeen then .running else s.smp.dev) ∧
      t.smp.events = s.smp.events |||
        (if s.smp.dev = .fallback ∧ anchorWord s 0x28 ≠ s.smp.lastSeen then 0x010#10 else 0#10) ∧
      t.cle = (if s.smp.dev = .fallback ∧ anchorWord s 0x28 ≠ s.smp.lastSeen
        then { s.cle with gate := .open_ } else s.cle) ∧
      t.smp.inForce = true ∧ t.smp.run = s.smp.run ∧ t.smp.anchor = s.smp.anchor ∧
      ChangesOnly [.mem, .smp, .events, .due, .cle] s t ∧
      (∀ a, ¬AnchorByte s 0x100 0x108 a → t.mem.get a = s.mem.get a) ∧
      (t.smp.missCount ≠ s.smp.missCount →
        t.mem.word (s.smp.anchor.toNat + 0x104) = BitVec.ofNat 32 t.smp.missCount))

/-- An unchanged counter that brings the miss count to the window, or finds it there, enters FALLBACK, as HEARTBEAT_WATCH
and as ENTER_FALLBACK alike: FALLBACK is raised, every clip ends ABANDONED, every open slot carries FALLBACK, and
messages, clocks, the FTU and the compositor go on as they were (R13, R14, R104, R141). As a command of its own
ENTER_FALLBACK acts on no other reading: not on a changed counter, not with window 0, and not on one whose miss count
stays below the window (log 9). -/
def Obligations.LostHeartbeatFallsBack : Prop :=
  (∀ s : State, s.smp.frameDue = false ∨ s.smp.dev ≠ .running ∨ anchorWord s 0x28 ≠ s.smp.lastSeen ∨
    anchorWord s 0x2C = 0 ∨ s.smp.missCount + 1 < min 600 (anchorWord s 0x2C).toNat →
    exec .enterFallback s = .next s) ∧
  ∀ s : State, s.smp.frameDue = true → s.smp.dev = .running → anchorWord s 0x28 = s.smp.lastSeen →
    (let window := min 600 (anchorWord s 0x2C).toNat
     window ≠ 0 → window ≤ s.smp.missCount + 1 →
     ∃ t, exec .enterFallback s = .next t ∧ exec .heartbeatWatch s = .next t ∧
      t.smp.dev = .fallback ∧ t.smp.run = s.smp.run ∧ t.smp.inForce = s.smp.inForce ∧
      t.smp.missCount = (if s.smp.missCount < window then s.smp.missCount + 1 else s.smp.missCount) ∧
      pendingFlag t .fallback = true ∧ t.cle.gate = .fallback ∧
      (∀ k : Fin 8, t.cle.slots[k].working = false ∧
        (s.cle.slots[k].working = true → ∀ f, s.cle.slots[k].outstanding = some f → t.cle.slots[k] =
          { s.cle.slots[k] with state := .ending, status := some .abandoned, endFrame := s.ftu.frame,
                                holdings := 0 }) ∧
        (s.cle.slots[k].working = true → ∀ z : Fin 16, holdsIn (.clip k) (claimsAt t.zar z) = false)) ∧
      (∀ g : Fin 8, t.sru.groups[g] = { s.sru.groups[g] with
        openSlot := s.sru.groups[g].openSlot.map fun x => { x with fallback := true } }) ∧
      t.sru.entries = s.sru.entries ∧ t.sru.accounts = s.sru.accounts ∧
      ChangesOnly [.mem, .smp, .events, .due, .zar, .cle, .sru, .etu, .free] s t)

/-! ## The cue scan (chapter 3) -/

/-- A single POSTED record is taken by its kind, and the scan index moves on modulo L and is written into the anchor. The
CIU reads a record's fields at their places; an unknown kind is written DONE with BAD_KIND and an action code that the
kind has not with BAD_VALUE; every other record is taken as the command of its kind takes it, with the record's index, its
payload, and LATE when it is TIMED and its not-before frame has passed (R34 to R36, R40 to R42). A host write of EMPTY that
meets the scan at the record stops it where the write is taken first; where the scan reads the state word first, the TAKEN
or DONE that the part writes replaces the EMPTY, which stands on a record that the scan does not take (R33; that the
meeting is an input beside the table is log 10). -/
def Obligations.SingleRecordTakenByKind : Prop :=
  (∀ (i : Nat) (s : State),
    (let a := s.ciu.listOffset.toNat + 64 * i
     let r := recordAt s i
     (r.state = .posted ↔ s.mem.word a = 1) ∧ r.kind = bits (s.mem.word (a + 4)) 0 8 ∧
     r.linked = (s.mem.word (a + 4)).getLsbD 8 ∧ r.timed = (s.mem.word (a + 4)).getLsbD 9 ∧
     r.notBefore = s.mem.word (a + 8) ∧
     r.payload = ⟨s.mem.word (a + 0x0C), s.mem.word (a + 0x10), s.mem.word (a + 0x14), s.mem.word (a + 0x18),
       s.mem.word (a + 0x1C), s.mem.word (a + 0x20), s.mem.word (a + 0x24)⟩)) ∧
  ∀ (levels : BitVec 8) (s : State), ScanMade s false →
    (let r := recordAt s s.ciu.scan
     let take : CueTake := ⟨s.ciu.scan, lateAt r s.ftu.frame⟩
     let action := (bits r.payload.w0 8 8).toNat
     (r.state = .posted → r.linked = false → RecordReady r s.ftu.frame →
     (∀ status, (recordAt s (scanned s 1)).state ≠ .posted →
       (status = .badKind ∧ (r.kind.toNat = 0 ∨ 0x0E < r.kind.toNat)) ∨
       (status = .badValue ∧ ((r.kind = 0x07 ∨ r.kind = 0x08) ∧ (action = 0 ∨ 2 < action) ∨
         r.kind = 0x0B ∧ (action = 0 ∨ 4 < action))) →
       ∃ t, exec (.ciuScan levels) s = .next t ∧ ScanRefused levels s t 1 take.late status false) ∧
     ∀ work c u, workOf r.kind r.payload = some work → work.command levels take = some c →
       exec c (scanBegins levels s) = .next u → (recordAt u (scanned s 1)).state ≠ .posted →
       ∃ t, exec (.ciuScan levels) s = .next t ∧ ScanMoved 1 u t) ∧
    (r.state = .posted →
      (let here := cueOffset s s.ciu.scan
       let retracted := s.hostWrite here [0, 0, 0, 0]
       exec (.ciuScan levels) retracted = .next (scanBegins levels retracted) ∧
       scanMeetsRetract levels s.ciu.scan true s = scanBegins levels retracted ∧
       ∃ t, exec (.ciuScan levels) s = .next t ∧
        (t.mem.word here = 2 ∨ t.mem.word here = 3 → scanMeetsRetract levels s.ciu.scan false s = t) ∧
        (t.mem.word here = 1 → scanMeetsRetract levels s.ciu.scan false s = t.hostWrite here [0, 0, 0, 0]))))

/-- A scan takes at most 16 records: the scan index moves on by at most 16 modulo L, and the list stays where it is. It
stops before a record that is not POSTED or whose not-before frame is not reached, and none is made outside RUNNING:
nothing changes then but the levels that the pins show. Eight POSTED records that all carry LINK are an over-long run:
each is refused with GROUP_TOO_LONG, and the refusing-run flag stays set; under the flag the next POSTED record is refused
so too, whatever it holds, and the flag is cleared by one without LINK (R36, R37, R40, R44, R46). That a first record not
yet reached stops the scan also where its run is over-long is the model's choice (log 15). -/
def Obligations.ScanBoundedAndStops : Prop :=
  (∀ (levels : BitVec 8) (s : State), s.ciu.scan < s.ciu.listLength →
    ∃ t, exec (.ciuScan levels) s = .next t ∧
      (∃ n, n ≤ 16 ∧ t.ciu.scan = (s.ciu.scan + n) % s.ciu.listLength) ∧
      t.ciu.listOffset = s.ciu.listOffset ∧ t.ciu.listLength = s.ciu.listLength ∧ t.ciu.frameDue = false ∧
      t.ftu = s.ftu ∧ t.smp.core = s.smp.core ∧ t.plw.logOffset = s.plw.logOffset) ∧
  (∀ (levels : BitVec 8) (s : State), s.ciu.frameDue = true →
    (let head := s.mem.word (cueOffset s s.ciu.scan + 4)
     let notBefore := s.mem.word (cueOffset s s.ciu.scan + 8)
     s.smp.dev ≠ .running ∨ s.mem.word (cueOffset s s.ciu.scan) ≠ 1 ∨
       (s.ciu.refusing = false ∧ head.getLsbD 9 = true ∧ 0 < (notBefore - s.ftu.frame).toInt) →
     exec (.ciuScan levels) s = .next (scanBegins levels s))) ∧
  (∀ (levels : BitVec 8) (s : State), ScanMade s true → (recordAt s s.ciu.scan).state = .posted →
    (recordAt s (scanned s 1)).state ≠ .posted →
    ∃ t, exec (.ciuScan levels) s = .next t ∧
      ScanRefused levels s t 1 false .groupTooLong (recordAt s s.ciu.scan).linked) ∧
  ∀ (levels : BitVec 8) (s : State), ScanMade s false → RecordReady (recordAt s s.ciu.scan) s.ftu.frame →
    (∀ j, j < 8 → (recordAt s (scanned s j)).state = .posted ∧ (recordAt s (scanned s j)).linked = true) →
    (recordAt s (scanned s 8)).state ≠ .posted →
    ∃ t, exec (.ciuScan levels) s = .next t ∧ ScanRefused levels s t 8 false .groupTooLong true

/-- A linked run of two to eight POSTED records waits while it is incomplete or one of its TIMED members is not reached,
and is otherwise handled whole, the scan index moving past it (R44, R45). A run whose check fails acts on no member: the
failing member is written with its own refusal and every other with GROUP_REFUSED, and nothing changes but those records
and CUE_DONE. The member that fails is the first that its owner refuses: a member of unknown kind or action code, and one
whose command, made on the state that the earlier members leave, writes its record with a refusal; the run then fails with
that refusal. A run that passes is acted on member by member in list order, each as the command of its kind, where no
member meets a slot that an earlier one has used (R47, R48). That each record is written right after its member's act is
the model's choice (log 13), and so is that an end event which a member causes reaches the ETU before the next member acts
(log 36), and that the tag of an earlier member is free again once a SAFETY message or a SELECT_LAYOUT of the run has
ended its clip or message (log 40). -/
def Obligations.LinkedRunActedOnWholeOrNotAtAll : Prop :=
  (∀ (ms : List Member) (failing : Nat) (status : Status) (zones : ZoneMask) (s : State),
    actRun ms RunSlots.none s = .error (failing, .refused status zones) → (ms.map Member.index).Nodup →
    s.smp.inForce = true → CueListInside s → (∀ m ∈ ms, m.index < s.ciu.listLength) →
    ChangesOnly [.mem, .events] s (handleRun ms s) ∧ failing ∈ ms.map Member.index ∧
    (∀ m ∈ ms, RecordReads s (handleRun ms s) m.index
      (if m.index = failing then takenResult s.ftu.frame m.late status zones
       else takenResult s.ftu.frame m.late .groupRefused 0) 3) ∧
    (handleRun ms s).smp.events = s.smp.events ||| 0x001#10 ∧
    ∀ a, (∀ m ∈ ms, ¬ResultByte s m.index a) → (handleRun ms s).mem.get a = s.mem.get a) ∧
  (∀ (ms : List Member) (s u : State), actRun ms RunSlots.none s = .ok u → SlotsUnshared ms →
    handleRun ms s = u ∧
    ∃ cs, ms.map (Member.command s.ccu.levels) = cs.map some ∧ afterAll cs s = some u) ∧
  (∀ (pre post : List Member) (failing : Nat) (answer : Taking) (s : State),
    actRun pre RunSlots.none s = .error (failing, answer) →
    actRun (pre ++ post) RunSlots.none s = .error (failing, answer)) ∧
  (∀ (pre post : List Member) (m : Member) (s u : State), actRun pre RunSlots.none s = .ok u →
    SlotsUnshared (pre ++ [m]) →
    (Member.command s.ccu.levels m = none → actRun (pre ++ m :: post) RunSlots.none s =
      .error (m.index, .refused (if m.work = none then .badKind else .badValue) 0)) ∧
    ∀ c v, Member.command s.ccu.levels m = some c → exec c u = .next v → u.smp.inForce = true → CueListInside u →
      m.index < u.ciu.listLength →
      (∃ status zones, status.refuses ∧ RecordReads u v m.index (takenResult u.ftu.frame m.late status zones) 3 ∧
        actRun (pre ++ m :: post) RunSlots.none s = .error (m.index, .refused status zones)) ∨
      ((∀ status zones, status.refuses →
          ¬RecordReads u v m.index (takenResult u.ftu.frame m.late status zones) 3) ∧
        actRun (pre ++ [m]) RunSlots.none s = .ok v)) ∧
  (∀ (levels : BitVec 8) (n : Nat) (s : State), ScanMade s false → 2 ≤ n → n ≤ 8 →
    (∀ j, j < n → (recordAt s (scanned s j)).state = .posted ∧
      (recordAt s (scanned s j)).linked = decide (j + 1 < n)) →
    ((∃ j, j < n ∧ ¬RecordReady (recordAt s (scanned s j)) s.ftu.frame) →
      exec (.ciuScan levels) s = .next (scanBegins levels s)) ∧
    ((∀ j, j < n → RecordReady (recordAt s (scanned s j)) s.ftu.frame) →
      (let u := handleRun ((List.range n).map fun j => memberAt s (scanned s j)) (scanBegins levels s)
       (recordAt u (scanned s n)).state ≠ .posted → ∃ t, exec (.ciuScan levels) s = .next t ∧ ScanMoved n u t))) ∧
  ∀ (levels : BitVec 8) (n : Nat) (s : State), ScanMade s false → 1 ≤ n → n < 8 →
    (∀ j, j < n → (recordAt s (scanned s j)).state = .posted ∧ (recordAt s (scanned s j)).linked = true) →
    (recordAt s (scanned s n)).state ≠ .posted → exec (.ciuScan levels) s = .next (scanBegins levels s)

/-! ## PLAY_CLIP and POST_MESSAGE (chapters 4, 6 and 7) -/

/-- A PLAY_CLIP of a cue record is answered at once after a halt or in FALLBACK, and otherwise refused by the first of
values, region, tag, slot and zones that fails; a POST_MESSAGE is answered at once after a halt, and otherwise refused by
the first of values and region, and, where no SHOWING message has its tag, of slot and zones, a SAFETY one finding room in
a full zone where it evicts. A zone outside the active layout takes no claim (R70), and no zone takes one while the
device does not run (R75). A refusal changes nothing but the record and CUE_DONE (R68 to R70, R75, R92, R93, R109, R110).
Given as a command, the take is made in any device state (log 30); with no anchor in force the write is omitted (R6),
and at an index that no record of the list has (log 19). -/
def Obligations.ClipAndMessageRefusedInOrder : Prop :=
  (∀ (i : Nat) (late : Bool) (p : ClipPayload) (status : Status) (zones : ZoneMask) (s : State), CueListInside s →
    (let badValue := p.zones = 0 ∨ p.width = 0 ∨ 3840 < p.width.toNat ∨ p.height = 0 ∨ 1152 < p.height.toNat ∨
       p.count = 0 ∨ 1 < p.endBehaviour.toNat ∨ p.base.toNat % 4 ≠ 0 ∨ p.pitch.toNat % 4 ≠ 0
     let badRegion := 2 ^ 32 <
       p.base.toNat + ((p.count.toNat - 1) * p.pitch.toNat + p.width.toNat * p.height.toNat * 4)
     let tagInUse := ∃ k : Fin 8, (s.cle.slots[k].state = .playing ∨ s.cle.slots[k].state = .held) ∧
       s.cle.slots[k].tag = p.tag
     let noSlot := ∀ k : Fin 8, s.cle.slots[k].state ≠ .idle
     (s.cle.gate = .halted ∧ status = .halted ∧ zones = 0) ∨
     (s.cle.gate = .fallback ∧ status = .abandoned ∧ zones = 0) ∨
     (s.cle.gate = .open_ ∧
       ((badValue ∧ status = .badValue ∧ zones = 0) ∨
        (¬badValue ∧ badRegion ∧ status = .badRegion ∧ zones = 0) ∨
        (¬badValue ∧ ¬badRegion ∧ tagInUse ∧ status = .tagInUse ∧ zones = 0) ∨
        (¬badValue ∧ ¬badRegion ∧ ¬tagInUse ∧ noSlot ∧ status = .noSlot ∧ zones = 0) ∨
        (¬badValue ∧ ¬badRegion ∧ ¬tagInUse ∧ ¬noSlot ∧
          (∀ (z : Fin 16) (k : Fin 8), s.cle.slots[k].state = .idle → holdsIn (.clip k) (claimsAt s.zar z) = false) ∧
          (s.smp.dev.live = false ∨ ∀ z : Fin 16, p.zones.getLsbD z.val = true → ¬ZoneTakes s z) ∧
          status = .zoneFull ∧ zones = p.zones)))) →
    ∃ t, exec (.playClip ⟨.cue i, late⟩ p) s = .next t ∧ ChangesOnly [.mem, .events] s t ∧
      RecordWritten s t i (takenResult s.ftu.frame late status zones) 3) ∧
  ∀ (i : Nat) (late : Bool) (p : MessagePayload) (status : Status) (zones : ZoneMask) (s : State), CueListInside s →
    (let badValue := p.zones = 0 ∨ 1 < p.cls.toNat ∨ 1 < p.mode.toNat ∨ p.textLength = 0 ∨ 120 < p.textLength.toNat
     let badRegion := 2 ^ 32 < p.textOffset.toNat + p.textLength.toNat
     let repost := ∃ k : Fin 8, s.msu.slots[k].state = .showing ∧ s.msu.slots[k].tag = p.tag
     let noSlot := ∀ k : Fin 8, s.msu.slots[k].state ≠ .idle
     (s.msu.afterHalt = true ∧ status = .halted ∧ zones = 0) ∨
     (s.msu.afterHalt = false ∧
       ((badValue ∧ status = .badValue ∧ zones = 0) ∨
        (¬badValue ∧ badRegion ∧ status = .badRegion ∧ zones = 0) ∨
        (¬badValue ∧ ¬badRegion ∧ ¬repost ∧ noSlot ∧ status = .noSlot ∧ zones = 0) ∨
        (¬badValue ∧ ¬badRegion ∧ ¬repost ∧ ¬noSlot ∧
          (∀ (z : Fin 16) (k : Fin 8), s.msu.slots[k].state = .idle →
            holdsIn (.message k) (claimsAt s.zar z) = false) ∧
          (s.smp.dev.live = false ∨ ∀ z : Fin 16, p.zones.getLsbD z.val = true →
            ¬ZoneTakes s z ∧ (p.cls = 1 → ∀ v, ¬EvictedFrom s z v)) ∧
          status = .zoneFull ∧ zones = p.zones)))) →
    ∃ t, exec (.postMessage ⟨.cue i, late⟩ p) s = .next t ∧ ChangesOnly [.mem, .events] s t ∧
      RecordWritten s t i (takenResult s.ftu.frame late status zones) 3

/-- An accepted PLAY_CLIP takes the lowest-numbered IDLE slot, which becomes PLAYING with the clamped fields of the
payload; its claims stand, at the clamped level, in each zone of the mask that takes them, behind every claim of equal
or lower level number; the clip or message that headed a zone which this one heads now becomes PRE-EMPTED, and no other;
and the record is written TAKEN with PENDING (R65 to R68, R70, R91 to R93). Given as a
command, the take is made in any device state (log 30); with no anchor in force the write is omitted (R6), and at an
index that no record of the list has (log 19). -/
def Obligations.PlayClipAcceptedPlays : Prop :=
  ∀ (i : Nat) (late : Bool) (p : ClipPayload) (k : Fin 8) (s : State), CueListInside s → s.cle.gate = .open_ →
    p.zones ≠ 0 → 1 ≤ p.width.toNat → p.width.toNat ≤ 3840 → 1 ≤ p.height.toNat → p.height.toNat ≤ 1152 →
    p.count ≠ 0 → p.endBehaviour.toNat ≤ 1 → p.base.toNat % 4 = 0 → p.pitch.toNat % 4 = 0 →
    p.base.toNat + ((p.count.toNat - 1) * p.pitch.toNat + p.width.toNat * p.height.toNat * 4) ≤ 2 ^ 32 →
    (∀ j : Fin 8, s.cle.slots[j].state = .playing ∨ s.cle.slots[j].state = .held → s.cle.slots[j].tag ≠ p.tag) →
    s.cle.slots[k].state = .idle → (∀ j : Fin 8, j < k → s.cle.slots[j].state ≠ .idle) →
    s.smp.dev.live = true → (∀ z : Fin 16, holdsIn (.clip k) (claimsAt s.zar z) = false) →
    (∃ z : Fin 16, p.zones.getLsbD z.val = true ∧ ZoneTakes s z) →
    ∃ t, exec (.playClip ⟨.cue i, late⟩ p) s = .next t ∧
      (let c := t.cle.slots[k]
       c = { ClipSlot.cleared with
         state := .playing, origin := .cue i, tag := p.tag, level := max 1 (min 5 p.level.toNat),
         base := p.base.toNat, pitch := p.pitch.toNat, width := p.width.toNat, height := p.height.toNat,
         count := p.count.toNat, rep := max 1 (min 8 p.rep.toNat), loops := p.loops.toNat,
         holdLast := p.endBehaviour == 1, holdings := c.holdings, takeFrame := s.ftu.frame, late := late,
         refused := c.refused, epoch := s.smp.anchorEpoch } ∧
       (∀ z : Fin 16, (c.holdings.getLsbD z.val = true ↔ p.zones.getLsbD z.val = true ∧ ZoneTakes s z) ∧
         (c.refused.getLsbD z.val = true ↔ p.zones.getLsbD z.val = true ∧ ¬ZoneTakes s z) ∧
         claimsAt t.zar z =
           (if c.holdings.getLsbD z.val then withClaim ⟨.clip k, c.level⟩ (claimsAt s.zar z)
            else claimsAt s.zar z)) ∧
       RecordWritten s t i (acceptedResult s.ftu.frame late c.refused) 2) ∧
      PreemptsHeads s t (.clip k) ∧
      (∀ j : Fin 8, j ≠ k →
        { t.cle.slots[j] with preempted := s.cle.slots[j].preempted } = s.cle.slots[j]) ∧
      (∀ j : Fin 8, { t.msu.slots[j] with preempted := s.msu.slots[j].preempted } = s.msu.slots[j]) ∧
      t.cle.gate = s.cle.gate ∧ t.zar.banks = s.zar.banks ∧ t.zar.selector = s.zar.selector ∧
      ChangesOnly [.mem, .events, .zar, .cle, .msu] s t

/-- An accepted POST_MESSAGE with an unused tag takes the lowest-numbered IDLE slot, which becomes SHOWING with the content
and the life that the payload gives, in the zones that take it: an ORDINARY one at its clamped level in those with room, a
SAFETY one at level 0 also in a full one, whose last non-group claim it evicts unless that stands at level 0. The clip or
message that headed a zone which this one heads now becomes PRE-EMPTED, and no other; an evicted one goes on in the zones
that remain to it or ends EVICTED, waiting for its outstanding report or completing at once; and the record is written
TAKEN with PENDING (R65 to R70, R101, R109, R110, R115, R116, R119). Given as a command, the take is made in any device
state (log 30); with no anchor in force the write is omitted (R6), and at an index that no record of the list has
(log 19). -/
def Obligations.PostMessageAcceptedShows : Prop :=
  (∀ (i : Nat) (late : Bool) (p : MessagePayload) (k : Fin 8) (s : State), CueListInside s →
    s.msu.afterHalt = false → p.zones ≠ 0 → p.cls = 0 → p.mode.toNat ≤ 1 → 1 ≤ p.textLength.toNat →
    p.textLength.toNat ≤ 120 → p.textOffset.toNat + p.textLength.toNat ≤ 2 ^ 32 →
    (∀ j : Fin 8, s.msu.slots[j].state = .showing → s.msu.slots[j].tag ≠ p.tag) →
    s.msu.slots[k].state = .idle → (∀ j : Fin 8, j < k → s.msu.slots[j].state ≠ .idle) →
    s.smp.dev.live = true → (∀ z : Fin 16, holdsIn (.message k) (claimsAt s.zar z) = false) →
    (∃ z : Fin 16, p.zones.getLsbD z.val = true ∧ ZoneTakes s z) →
    ∃ t, exec (.postMessage ⟨.cue i, late⟩ p) s = .next t ∧
      (let m := t.msu.slots[k]
       m = postedMessage s p (.cue i) late (max 1 (min 5 p.level.toNat)) m.holdings m.refused ∧
       (∀ z : Fin 16, (m.holdings.getLsbD z.val = true ↔ p.zones.getLsbD z.val = true ∧ ZoneTakes s z) ∧
         (m.refused.getLsbD z.val = true ↔ p.zones.getLsbD z.val = true ∧ ¬ZoneTakes s z) ∧
         claimsAt t.zar z =
           (if m.holdings.getLsbD z.val then withClaim ⟨.message k, m.level⟩ (claimsAt s.zar z)
            else claimsAt s.zar z)) ∧
       RecordWritten s t i (acceptedResult s.ftu.frame late m.refused) 2) ∧
      PreemptsHeads s t (.message k) ∧
      (∀ j : Fin 8, j ≠ k →
        { t.msu.slots[j] with preempted := s.msu.slots[j].preempted } = s.msu.slots[j]) ∧
      (∀ j : Fin 8, { t.cle.slots[j] with preempted := s.cle.slots[j].preempted } = s.cle.slots[j]) ∧
      ChangesOnly [.mem, .events, .zar, .cle, .msu] s t) ∧
  ∀ (i : Nat) (late : Bool) (p : MessagePayload) (k : Fin 8) (s : State), CueListInside s → ClaimListsFormed s →
    s.msu.afterHalt = false → p.zones ≠ 0 → p.cls = 1 → p.mode.toNat ≤ 1 → 1 ≤ p.textLength.toNat →
    p.textLength.toNat ≤ 120 → p.textOffset.toNat + p.textLength.toNat ≤ 2 ^ 32 →
    (∀ j : Fin 8, s.msu.slots[j].state = .showing → s.msu.slots[j].tag ≠ p.tag) →
    s.msu.slots[k].state = .idle → (∀ j : Fin 8, j < k → s.msu.slots[j].state ≠ .idle) →
    s.smp.dev.live = true → (∀ z : Fin 16, holdsIn (.message k) (claimsAt s.zar z) = false) →
    (∃ z : Fin 16, p.zones.getLsbD z.val = true ∧ (ZoneTakes s z ∨ ∃ v, EvictedFrom s z v)) →
    ∃ t, exec (.postMessage ⟨.cue i, late⟩ p) s = .next t ∧
      (let m := t.msu.slots[k]
       let posted := postedMessage s p (.cue i) late 0 m.holdings m.refused
       m = { posted with textWidth := m.textWidth, textHeight := m.textHeight, crawlSpan := m.crawlSpan } ∧
       (∀ z : Fin 16,
         (m.holdings.getLsbD z.val = true ↔
           p.zones.getLsbD z.val = true ∧ (ZoneTakes s z ∨ ∃ v, EvictedFrom s z v)) ∧
         (m.refused.getLsbD z.val = true ↔
           p.zones.getLsbD z.val = true ∧ ¬(ZoneTakes s z ∨ ∃ v, EvictedFrom s z v)) ∧
         (m.holdings.getLsbD z.val = false → claimsAt t.zar z = claimsAt s.zar z) ∧
         (m.holdings.getLsbD z.val = true → ZoneTakes s z →
           claimsAt t.zar z = withClaim ⟨.message k, 0⟩ (claimsAt s.zar z)) ∧
         ∀ v, m.holdings.getLsbD z.val = true → EvictedFrom s z v →
           claimsAt t.zar z = withClaim ⟨.message k, 0⟩ ((claimsAt s.zar z).filter fun d => d.who != v.who)) ∧
       (s.smp.inForce = true → i < s.ciu.listLength →
         RecordReads s t i (acceptedResult s.ftu.frame late m.refused) 2) ∧
       (NoneCompletes s p.zones → m = posted ∧ RecordWritten s t i (acceptedResult s.ftu.frame late m.refused) 2 ∧
         t.etu = s.etu)) ∧
      PreemptsHeads s t (.message k) ∧ (∀ j : Fin 8, ClipEvicted s t p.zones i j) ∧
      (∀ j : Fin 8, j ≠ k → MessageEvicted s t p.zones i j) ∧
      ChangesOnly [.mem, .events, .zar, .cle, .msu, .etu] s t

/-- A POST_MESSAGE whose tag a SHOWING message holds replaces its content and restarts its life: the text with its extent
and span, the colours, the duration, the blink, the mode and the crawl speed are those of the payload; the slot keeps its
class, level, claims, holdings and outstanding frame; its old record is written DONE with REPLACED, and the new one TAKEN
with PENDING (R111, R116). The extent is measured after the old record is written; the statement gives it for a text and
a font that lie clear of the cue list. Given as a command, the take is made in any device state (log 30). -/
def Obligations.RepostReplacesMessage : Prop :=
  ∀ (i j : Nat) (late : Bool) (p : MessagePayload) (k : Fin 8) (s : State), CueListInside s →
    s.msu.afterHalt = false → p.zones ≠ 0 → p.cls.toNat ≤ 1 → p.mode.toNat ≤ 1 → 1 ≤ p.textLength.toNat →
    p.textLength.toNat ≤ 120 → p.textOffset.toNat + p.textLength.toNat ≤ 2 ^ 32 →
    s.msu.slots[k].state = .showing → s.msu.slots[k].tag = p.tag →
    (∀ l : Fin 8, l < k → s.msu.slots[l].state = .showing → s.msu.slots[l].tag ≠ p.tag) →
    s.msu.slots[k].origin = .cue j → s.msu.slots[k].epoch = s.smp.anchorEpoch → s.smp.inForce = true →
    i < s.ciu.listLength → j < s.ciu.listLength → i ≠ j →
    ∃ t, exec (.postMessage ⟨.cue i, late⟩ p) s = .next t ∧
      (let m := s.msu.slots[k]
       let n := t.msu.slots[k]
       let replaced := { postedMessage s p (.cue i) late m.level m.holdings 0 with
         safety := m.safety, outstanding := m.outstanding, status := m.status, endFrame := m.endFrame }
       n = { replaced with textWidth := n.textWidth, textHeight := n.textHeight, crawlSpan := n.crawlSpan } ∧
       (ClearOfList s p.textOffset.toNat p.textLength.toNat → ClearOfList s s.clo.fontOffset.toNat 50176 →
         n = replaced) ∧
       RecordReads s t i (acceptedResult s.ftu.frame late 0) 2 ∧
       RecordReads s t j
         { status := .replaced, late := m.late, preempted := m.preempted, refused := m.refused,
           takeFrame := m.takeFrame, firstShown := m.firstShown.getD 0, endFrame := s.ftu.frame,
           framesShown := m.framesShown, litFrames := m.litFrames } 3) ∧
      t.smp.events = s.smp.events ||| 0x001#10 ∧ t.zar = s.zar ∧
      (∀ l : Fin 8, l ≠ k → t.msu.slots[l] = s.msu.slots[l]) ∧ ChangesOnly [.mem, .events, .msu] s t ∧
      ∀ a, ¬ResultByte s i a → ¬ResultByte s j a → t.mem.get a = s.mem.get a

/-- A claim is inserted behind every claim of equal or lower level number and before every other, a safety claim in a
full zone evicts the last non-group claim unless that stands at level 0, and a request for a claimant that holds the
zone changes nothing (R66, R68, R69). That such a zone counts as taken in the answer is the model's choice (log 34). -/
def Obligations.ClaimsInsertedAndEvictedByLevel : Prop :=
  (∀ (c : Claim) (cs : List Claim), cs.Pairwise (fun d e => d.level ≤ e.level) →
    insertClaim c cs = cs.filter (fun d => d.level ≤ c.level) ++ [c] ++ cs.filter (fun d => c.level < d.level) ∧
    (insertClaim c cs).Pairwise fun d e => d.level ≤ e.level) ∧
  ∀ (c : Claim) (safety : Bool) (z : Fin 16) (e : ZoneEntry) (s : State), s.smp.dev.live = true →
    s.zar.table[z] = some e →
    (holdsIn c.who e.claims = true → claimZone c safety z s = (true, s)) ∧
    (holdsIn c.who e.claims = false → 5 ≤ (nonGroup e.claims).length → safety = false →
      claimZone c safety z s = (false, s)) ∧
    (holdsIn c.who e.claims = false → (nonGroup e.claims).length < 5 →
      (claimZone c safety z s).1 = true ∧ claimsAt (claimZone c safety z s).2.zar z = insertClaim c e.claims) ∧
    ∀ v : Claim, holdsIn c.who e.claims = false → 5 ≤ (nonGroup e.claims).length → safety = true →
      (nonGroup e.claims).getLast? = some v →
      (v.level = 0 → claimZone c safety z s = (false, s)) ∧
      (v.level ≠ 0 → (claimZone c safety z s).1 = true ∧
        claimsAt (claimZone c safety z s).2.zar z = insertClaim c (e.claims.filter fun d => d.who != v.who))

/-- A PLAY_CLIP or POST_MESSAGE that a trigger entry hands over is taken as a record's is, with the entry as origin, for
every payload, accepted, refused, SAFETY or re-post: the claims, the slots and what they hold, and the other entries, come
out the same, and the entry's report, in place of a record, gets the status and the refused zones that the record would
show, with last frames shown and last lit zone-frames 0 (R106, R112, R173). Given as commands, both are taken in any
device state (logs 29, 30). -/
def Obligations.TriggeredActionTakenAsRecord : Prop :=
  (∀ (e : Fin 8) (i : Nat) (p : ClipPayload) (s : State), ∃ t u,
    exec (.playClip ⟨.trigger e, false⟩ p) s = .next t ∧ exec (.playClip ⟨.cue i, false⟩ p) s = .next u ∧
    t.zar = u.zar ∧ t.msu = u.msu ∧ t.cle.gate = u.cle.gate ∧
    (∀ k : Fin 8, t.cle.slots[k] = u.cle.slots[k] ∨
      (t.cle.slots[k].origin = .trigger e ∧ { t.cle.slots[k] with origin := .cue i } = u.cle.slots[k])) ∧
    t.etu.entries[e].report.lastShown = 0 ∧ t.etu.entries[e].report.lastLit = 0 ∧
    (p.zones = 0 → s.cle.gate = .open_ → t.etu.entries[e].report.lastStatus = 0x21#8 ∧
      t.etu.entries[e].report.lastRefused = 0) ∧
    ((∃ k : Fin 8, u.cle.slots[k].state = .playing ∧ s.cle.slots[k].state = .idle) →
      t.etu.entries[e].report.lastStatus = 0x00#8) ∧
    TriggerOutcome s t u e i ∧
    t.smp.events = s.smp.events ∧ ChangesOnly [.mem, .zar, .cle, .msu, .etu] s t ∧
    ∀ a, ¬AnchorByte s (0x180 + 32 * e.val) (0x1A0 + 32 * e.val) a → t.mem.get a = s.mem.get a) ∧
  ∀ (e : Fin 8) (i : Nat) (p : MessagePayload) (s : State), ∃ t u,
    exec (.postMessage ⟨.trigger e, false⟩ p) s = .next t ∧ exec (.postMessage ⟨.cue i, false⟩ p) s = .next u ∧
    t.zar = u.zar ∧ t.cle = u.cle ∧ t.msu.afterHalt = u.msu.afterHalt ∧
    (∀ k : Fin 8, t.msu.slots[k] = u.msu.slots[k] ∨
      (t.msu.slots[k].origin = .trigger e ∧ { t.msu.slots[k] with origin := .cue i } = u.msu.slots[k])) ∧
    t.etu.entries[e].report.lastShown = 0 ∧ t.etu.entries[e].report.lastLit = 0 ∧ TriggerOutcome s t u e i ∧
    t.smp.events ||| 0x001#10 = s.smp.events ||| 0x001#10 ∧
    ChangesOnly [.mem, .events, .zar, .cle, .msu, .etu] s t ∧
    ((∀ k : Fin 8, s.msu.slots[k].state = .showing → s.msu.slots[k].tag ≠ p.tag) → p.cls = 0 →
      t.smp.events = s.smp.events ∧
      ∀ a, ¬AnchorByte s (0x180 + 32 * e.val) (0x1A0 + 32 * e.val) a → t.mem.get a = s.mem.get a)

/-! ## WITHDRAW (3.7) -/

/-- A WITHDRAW whose target is not found is written NOT_FOUND, and one with a target kind outside the three, or a
trigger entry above 7, BAD_VALUE; neither has another effect. One that finds a clip or message with an outstanding
frame leaves it ENDING with WITHDRAWN and without claims; one that finds an ARMED trigger entry makes it IDLE (R49,
R102, R120, R171). That a clip or message is withdrawn whatever the entry field holds, also above 7, is the model's
choice (log 24). Given as a command, the take is made in any device state (log 30); with no anchor in force the write
is omitted (R6), and at an index that no record of the list has (log 19). -/
def Obligations.WithdrawEndsItsTarget : Prop :=
  ∀ (take : CueTake) (target entry : BitVec 8) (tag : Tag) (s : State), CueListInside s →
    ∃ t, exec (.withdraw take target entry tag) s = .next t ∧
      (target.toNat = 0 ∨ 3 < target.toNat ∨ (target = 3 ∧ 7 < entry.toNat) →
        TakenDone s t take .badValue ∧ ChangesOnly [.mem, .events] s t) ∧
      ((target = 1 ∧ ∀ k : Fin 8, s.cle.slots[k].working = true → s.cle.slots[k].tag ≠ tag) ∨
        (target = 2 ∧ ∀ k : Fin 8, s.msu.slots[k].working = true → s.msu.slots[k].tag ≠ tag) ∨
        (target = 3 ∧ ∃ e : Fin 8, entry.toNat = e.val ∧ s.etu.entries[e].armed = false) →
        TakenDone s t take .notFound ∧ ChangesOnly [.mem, .events] s t) ∧
      (∀ (k : Fin 8) (f : Frame), target = 1 → s.cle.slots[k].working = true → s.cle.slots[k].tag = tag →
        (∀ j : Fin 8, j < k → s.cle.slots[j].working = true → s.cle.slots[j].tag ≠ tag) →
        s.cle.slots[k].outstanding = some f →
        TakenDone s t take .ok ∧
        t.cle = { s.cle with slots := upd s.cle.slots k fun c =>
          { c with state := .ending, status := some .withdrawn, endFrame := s.ftu.frame, holdings := 0 } } ∧
        (∀ z : Fin 16, claimsAt t.zar z = (claimsAt s.zar z).filter fun c => c.who != .clip k) ∧
        t.zar.banks = s.zar.banks ∧ t.zar.selector = s.zar.selector ∧
        ChangesOnly [.mem, .events, .zar, .cle] s t) ∧
      (∀ (k : Fin 8) (f : Frame), target = 2 → s.msu.slots[k].working = true → s.msu.slots[k].tag = tag →
        (∀ j : Fin 8, j < k → s.msu.slots[j].working = true → s.msu.slots[j].tag ≠ tag) →
        s.msu.slots[k].outstanding = some f →
        TakenDone s t take .ok ∧
        t.msu = { s.msu with slots := upd s.msu.slots k fun m =>
          { m with state := .ending, status := some .withdrawn, endFrame := s.ftu.frame, holdings := 0 } } ∧
        (∀ z : Fin 16, claimsAt t.zar z = (claimsAt s.zar z).filter fun c => c.who != .message k) ∧
        ChangesOnly [.mem, .events, .zar, .msu] s t) ∧
      (∀ e : Fin 8, target = 3 → entry.toNat = e.val → s.etu.entries[e].armed = true →
        TakenDone s t take .ok ∧
        t.etu = { s.etu with entries := upd s.etu.entries e fun x => { x with armed := false, pending := false } } ∧
        ChangesOnly [.mem, .events, .etu] s t)

/-- A clip withdrawn with no outstanding frame completes at once: its slot is IDLE, its own record reads DONE with
WITHDRAWN and its credits, and an ARMED entry whose source is the end of a clip of its tag gains a fire in RUNNING
(R101, R102, R172). That the entry field is not read for a clip is the model's choice (log 24); given as a command,
the take is made without the scan (log 30). -/
def Obligations.WithdrawnClipCompletes : Prop :=
  ∀ (take : CueTake) (entry : BitVec 8) (k : Fin 8) (j : Nat) (s : State), CueListInside s →
    s.cle.slots[k].working = true →
    (∀ l : Fin 8, l < k → s.cle.slots[l].working = true → s.cle.slots[l].tag ≠ s.cle.slots[k].tag) →
    s.cle.slots[k].outstanding = none → s.cle.slots[k].origin = .cue j → s.cle.slots[k].epoch = s.smp.anchorEpoch →
    s.smp.inForce = true → s.smp.dev = .running → s.etu.handling = false → take.index < s.ciu.listLength →
    j < s.ciu.listLength → take.index ≠ j →
    s.ciu.listOffset.toNat + 64 * s.ciu.listLength ≤ s.smp.anchor.toNat ∨
      s.smp.anchor.toNat + 4096 ≤ s.ciu.listOffset.toNat →
    ∃ t, exec (.withdraw take 1 entry s.cle.slots[k].tag) s = .next t ∧ t.cle.slots[k] = ClipSlot.cleared ∧
      (∀ l : Fin 8, l ≠ k → t.cle.slots[l] = s.cle.slots[l]) ∧
      (∀ z : Fin 16, claimsAt t.zar z = (claimsAt s.zar z).filter fun c => c.who != .clip k) ∧
      RecordReads s t take.index (takenResult s.ftu.frame take.late .ok 0) 3 ∧
      RecordReads s t j
        { status := .withdrawn, late := s.cle.slots[k].late, preempted := s.cle.slots[k].preempted,
          refused := s.cle.slots[k].refused, takeFrame := s.cle.slots[k].takeFrame,
          firstShown := s.cle.slots[k].firstShown.getD 0, endFrame := s.ftu.frame,
          framesShown := s.cle.slots[k].framesShown, litFrames := s.cle.slots[k].litFrames } 3 ∧
      (∀ e : Fin 8, t.etu.entries[e] =
        if s.etu.entries[e].armed ∧ s.etu.entries[e].source = some (.clipEnd s.cle.slots[k].tag) then
          { s.etu.entries[e] with pending := true, report :=
            { s.etu.entries[e].report with fires := s.etu.entries[e].report.fires + 1 } }
        else s.etu.entries[e]) ∧
      ChangesOnly [.mem, .events, .zar, .cle, .etu] s t ∧
      ∀ a, ¬ResultByte s take.index a → ¬ResultByte s j a → ¬AnchorByte s 0x180 0x280 a →
        t.mem.get a = s.mem.get a

/-! ## Layouts (chapter 4) -/

/-- A LOAD_LAYOUT is refused by the first of its checks that fails, and otherwise replaces the named bank whole, with
the zone table, every claim list and every zone set as they were (R57, R58). Given as a command, the take is made in
any device state (log 30); with no anchor in force the write is omitted (R6), and at an index that no record of the
list has (log 19). -/
def Obligations.LoadLayoutReplacesBankAlone : Prop :=
  ∀ (take : CueTake) (bank : BitVec 8) (offset : Word) (s : State), CueListInside s →
    ∃ t, exec (.loadLayout take bank offset) s = .next t ∧
      (bank.toNat = 0 ∨ 3 < bank.toNat → TakenDone s t take .badValue ∧ t.zar = s.zar) ∧
      (∀ b : Fin 4, bank.toNat = b.val → b ≠ 0 →
        (b = s.zar.selector → TakenDone s t take .bankInUse ∧ t.zar = s.zar) ∧
        (b ≠ s.zar.selector →
          (offset.toNat % 4 ≠ 0 → TakenDone s t take .badValue ∧ t.zar = s.zar) ∧
          (offset.toNat % 4 = 0 → 2 ^ 32 < offset.toNat + 1296 →
            TakenDone s t take .badRegion ∧ t.zar = s.zar) ∧
          (offset.toNat % 4 = 0 → offset.toNat + 1296 ≤ 2 ^ 32 →
            (readLayout s.mem offset.toNat = none → TakenDone s t take .badValue ∧ t.zar = s.zar) ∧
            ∀ zones, readLayout s.mem offset.toNat = some zones →
              (¬((zones.map ZoneDef.id).Nodup ∧ ∀ d ∈ zones, ∀ c ∈ s.zar.banks[(0 : Fin 4)], d.id ≠ c.id) →
                TakenDone s t take .zoneConflict ∧ t.zar = s.zar) ∧
              ((zones.map ZoneDef.id).Nodup → (∀ d ∈ zones, ∀ c ∈ s.zar.banks[(0 : Fin 4)], d.id ≠ c.id) →
                (¬(zones.Pairwise (fun d e => overlap d e = false) ∧
                    ∀ d ∈ zones, ∀ c ∈ s.zar.banks[(0 : Fin 4)], overlap d c = false) →
                  TakenDone s t take .zoneOverlap ∧ t.zar = s.zar) ∧
                (zones.Pairwise (fun d e => overlap d e = false) →
                  (∀ d ∈ zones, ∀ c ∈ s.zar.banks[(0 : Fin 4)], overlap d c = false) →
                  TakenDone s t take .ok ∧ t.zar.banks[b] = zones ∧
                  (∀ c : Fin 4, c ≠ b → t.zar.banks[c] = s.zar.banks[c]) ∧ t.zar.table = s.zar.table ∧
                  t.zar.selector = s.zar.selector))))) ∧
      ChangesOnly [.mem, .events, .zar] s t

/-- A SELECT_LAYOUT of the selected bank, or a refused one, changes nothing but the record; an accepted one of another
bank changes the zone table in one handling: zones of bank 0 stay with their claims and pre-empted states, every other
leaves, those of the named bank enter with at most their enabled group's claim, a clip or message left with no zone is
not PLAYING, HELD or SHOWING any more, and every group's zone set is reported (R60 to R63). Given as a command, the
take is made in any device state (log 30); with no anchor in force the write is omitted (R6), and at an index that no
record of the list has (log 19). -/
def Obligations.SelectLayoutSwitchesWhole : Prop :=
  ∀ (take : CueTake) (bank : BitVec 8) (s : State), CueListInside s →
    ∃ t, exec (.selectLayout take bank) s = .next t ∧
      (3 < bank.toNat → TakenDone s t take .badValue ∧ ChangesOnly [.mem, .events] s t) ∧
      ∀ b : Fin 4, bank.toNat = b.val →
        (let clash := b ≠ 0 ∧ ∃ d ∈ s.zar.banks[b], ∃ c ∈ s.zar.banks[(0 : Fin 4)], d.id = c.id
         let overlaps := b ≠ 0 ∧ ∃ d ∈ s.zar.banks[b], ∃ c ∈ s.zar.banks[(0 : Fin 4)], overlap d c = true
         (clash → TakenDone s t take .zoneConflict ∧ ChangesOnly [.mem, .events] s t) ∧
         (¬clash → overlaps → TakenDone s t take .zoneOverlap ∧ ChangesOnly [.mem, .events] s t) ∧
         (¬clash → ¬overlaps → b = s.zar.selector → TakenDone s t take .ok ∧ ChangesOnly [.mem, .events] s t) ∧
         (¬clash → ¬overlaps → b ≠ s.zar.selector →
          StandsDone s t take .ok ∧ t.zar.selector = b ∧ t.zar.banks = s.zar.banks ∧
          (∀ (z : Fin 16) (e : ZoneEntry), s.zar.table[z] = some e → e.bank = 0 →
            t.zar.table[z] = some e) ∧
          (∀ k : Fin 8, (t.cle.slots[k].working = true → t.cle.slots[k].preempted = s.cle.slots[k].preempted) ∧
            (t.msu.slots[k].working = true → t.msu.slots[k].preempted = s.msu.slots[k].preempted)) ∧
          (∀ z : Fin 16, (∀ e, s.zar.table[z] = some e → e.bank ≠ 0) →
            (t.zar.table[z].map fun e => (e.bank, e.defn, e.claims)) =
              (if b = 0 then none else
                (s.zar.banks[b].find? fun d => d.id == z).map fun d => (b, d,
                  match d.group with
                  | some g => if s.sru.groups[g].enabled then [⟨.group g, 6⟩] else []
                  | none => []))) ∧
          (∀ k : Fin 8, s.cle.slots[k].working = true → holdsAny s.zar (.clip k) = true →
            (∀ (z : Fin 16) (e : ZoneEntry), s.zar.table[z] = some e → holdsIn (.clip k) e.claims = true →
              e.bank ≠ 0) → t.cle.slots[k].working = false) ∧
          (∀ k : Fin 8, s.msu.slots[k].working = true → holdsAny s.zar (.message k) = true →
            (∀ (z : Fin 16) (e : ZoneEntry), s.zar.table[z] = some e → holdsIn (.message k) e.claims = true →
              e.bank ≠ 0) → t.msu.slots[k].working = false) ∧
          ((∀ g : Fin 8, s.sru.groups[g].zones = zoneSetOf s.zar.table g) →
            ∀ g : Fin 8, t.sru.groups[g].zones = zoneSetOf t.zar.table g) ∧
          ChangesOnly [.mem, .events, .zar, .cle, .msu, .sru, .plw, .etu, .free] s t))

/-! ## Sponsor entries and rotation groups (chapter 8) -/

/-- A SPONSOR_WRITE is refused by the first of its checks that fails, leaving every entry and account as it was, and
otherwise copies the definition, leaves the entry INACTIVE and sets its creative cursor to 0 in every group (R124).
Given as a command, the take is made in any device state (log 30); with no anchor in force the write is omitted (R6),
and at an index that no record of the list has (log 19). -/
def Obligations.SponsorWriteCopiesDefinition : Prop :=
  ∀ (take : CueTake) (entry : BitVec 8) (offset : Word) (s : State), CueListInside s →
    ∃ t, exec (.sponsorWrite take entry offset) s = .next t ∧
      (63 < entry.toNat → TakenDone s t take .badValue ∧ t.sru = s.sru) ∧
      (∀ i : Fin 64, entry.toNat = i.val →
        (let busy := s.sru.entries[i].active = true ∨
           ∃ (g : Fin 8) (x : Slot), s.sru.groups[g].openSlot = some x ∧ x.entry = i
         (busy → TakenDone s t take .entryBusy ∧ t.sru = s.sru) ∧
         (¬busy → offset.toNat % 4 ≠ 0 → TakenDone s t take .badValue ∧ t.sru = s.sru) ∧
         (¬busy → offset.toNat % 4 = 0 → 2 ^ 32 < offset.toNat + 168 →
           TakenDone s t take .badRegion ∧ t.sru = s.sru) ∧
         (¬busy → offset.toNat % 4 = 0 → offset.toNat + 168 ≤ 2 ^ 32 →
          (readSponsor s.mem offset.toNat = none → TakenDone s t take .badValue ∧ t.sru = s.sru) ∧
          ∀ d, readSponsor s.mem offset.toNat = some d →
            (let outside := ∃ c ∈ d.creatives,
               2 ^ 32 < c.base + ((c.count - 1) * c.pitch + c.width * c.height * 4)
             let unsettled := d.sponsorId ≠ s.sru.entries[i].sponsorId ∧
               ∃ g : Fin 8, s.sru.accounts[g][i].balance ≠ 0
             (outside → TakenDone s t take .badRegion ∧ t.sru = s.sru) ∧
             (¬outside → unsettled → TakenDone s t take .entryUnsettled ∧ t.sru = s.sru) ∧
             (¬outside → ¬unsettled → TakenDone s t take .ok ∧
               t.sru.entries = upd s.sru.entries i (fun _ => { d with active := false }) ∧
               (∀ (g : Fin 8) (j : Fin 64), t.sru.accounts[g][j] =
                 if j = i then { s.sru.accounts[g][j] with cursor := 0 } else s.sru.accounts[g][j]) ∧
               t.sru.groups = s.sru.groups ∧ t.sru.snapshotOffset = s.sru.snapshotOffset ∧
               t.sru.afterHalt = s.sru.afterHalt))))) ∧
      ChangesOnly [.mem, .events, .sru] s t

/-- ACTIVATE makes an entry ACTIVE; RETIRE makes it INACTIVE and cuts every current slot that shows it, which waits as
closing slot for the report of its outstanding frame. An entry above 63 is refused (R125, R134). Given as a command,
the take is made in any device state (log 30); with no anchor in force the write is omitted (R6), and at an index that
no record of the list has (log 19). -/
def Obligations.SponsorStateActivatesAndRetires : Prop :=
  (∀ (take : CueTake) (entry : BitVec 8) (s : State), CueListInside s →
    ∃ t, exec (.sponsorActivate take entry) s = .next t ∧
      (63 < entry.toNat → TakenDone s t take .badValue ∧ t.sru = s.sru) ∧
      (∀ i : Fin 64, entry.toNat = i.val → TakenDone s t take .ok ∧
        t.sru = { s.sru with entries := upd s.sru.entries i fun e => { e with active := true } }) ∧
      ChangesOnly [.mem, .events, .sru] s t) ∧
  ∀ (take : CueTake) (entry : BitVec 8) (s : State), CueListInside s →
    ∃ t, exec (.sponsorRetire take entry) s = .next t ∧
      (63 < entry.toNat → TakenDone s t take .badValue ∧ t.sru = s.sru) ∧
      ∀ i : Fin 64, entry.toNat = i.val →
        (s.sru.entries[i].active = false → TakenDone s t take .ok ∧ t.sru = s.sru) ∧
        t.sru.entries = upd s.sru.entries i (fun e => { e with active := false }) ∧
        (∀ (g : Fin 8) (x : Slot), s.sru.entries[i].active = true → s.sru.groups[g].openSlot = some x →
          t.sru.groups[g].openSlot =
            (if x.closing = false ∧ x.entry = i then
              (if x.outstanding = none then none else some { x with cut := true, closing := true })
             else some x)) ∧
        (∀ (g : Fin 8) (j : Fin 64), t.sru.accounts[g][j].balance = s.sru.accounts[g][j].balance ∧
          t.sru.accounts[g][j].delivered = s.sru.accounts[g][j].delivered ∧
          t.sru.accounts[g][j].plays = s.sru.accounts[g][j].plays ∧
          t.sru.accounts[g][j].cursor = s.sru.accounts[g][j].cursor) ∧
        StandsDone s t take .ok ∧ ChangesOnly [.mem, .events, .sru, .plw, .free] s t

/-- ENABLE of a DISABLED group inserts its claim last in every zone of its zone set, and changes nothing after a halt;
DISABLE removes the claim from every zone, and cuts the current slot. A group above 7 is refused (R72, R127, R134). In a
device state that does not run no claim is inserted (R75).
Given as a command, the take is made in any device state (log 30); with no anchor in force the write is omitted (R6),
and at an index that no record of the list has (log 19). -/
def Obligations.GroupSetClaimsAndReleases : Prop :=
  (∀ (take : CueTake) (group : BitVec 8) (s : State), CueListInside s →
    ∃ t, exec (.groupEnable take group) s = .next t ∧
      (7 < group.toNat → TakenDone s t take .badValue ∧ ChangesOnly [.mem, .events] s t) ∧
      (∀ g : Fin 8, group.toNat = g.val → StandsDone s t take .ok ∧
        (s.sru.groups[g].enabled = true ∨ s.sru.afterHalt = true →
          TakenDone s t take .ok ∧ ChangesOnly [.mem, .events] s t) ∧
        (s.sru.groups[g].enabled = false → s.sru.afterHalt = false →
          t.sru = { s.sru with groups := upd s.sru.groups g fun r => { r with enabled := true } } ∧
          (s.smp.dev.live = true → ∀ z : Fin 16, (∀ c ∈ claimsAt s.zar z, c.level ≤ 6) →
            claimsAt t.zar z =
              if s.sru.groups[g].zones.getLsbD z.val = true ∧ s.zar.table[z].isSome = true ∧
                  holdsIn (.group g) (claimsAt s.zar z) = false
              then claimsAt s.zar z ++ [⟨.group g, 6⟩] else claimsAt s.zar z) ∧
          (s.smp.dev.live = false → t.zar = s.zar))) ∧
      ChangesOnly [.mem, .events, .zar, .sru] s t ∧
      ∀ a, ¬ResultByte s take.index a → ¬AnchorByte s 0x128 0x130 a → t.mem.get a = s.mem.get a) ∧
  ∀ (take : CueTake) (group : BitVec 8) (s : State), CueListInside s →
    ∃ t, exec (.groupDisable take group) s = .next t ∧
      (7 < group.toNat → TakenDone s t take .badValue ∧ ChangesOnly [.mem, .events] s t) ∧
      ∀ g : Fin 8, group.toNat = g.val → StandsDone s t take .ok ∧
        (s.sru.groups[g].enabled = false → TakenDone s t take .ok ∧ ChangesOnly [.mem, .events] s t) ∧
        (s.sru.groups[g].enabled = true → t.sru.groups[g].enabled = false ∧
          (∀ z : Fin 16, claimsAt t.zar z = (claimsAt s.zar z).filter fun c => c.who != .group g) ∧
          (∀ x, s.sru.groups[g].openSlot = some x → t.sru.groups[g].openSlot =
            if x.closing then some x
            else if x.outstanding = none then none else some { x with cut := true, closing := true })) ∧
        t.sru.groups[g].saturated = s.sru.groups[g].saturated ∧
        t.sru.groups[g].slotNumber = s.sru.groups[g].slotNumber ∧
        (∀ h : Fin 8, h ≠ g → t.sru.groups[h] = s.sru.groups[h]) ∧ t.sru.entries = s.sru.entries ∧
        ChangesOnly [.mem, .events, .zar, .sru, .plw, .free] s t

/-- A GROUP_CLEAR sets B, D, P, L and U of all 64 entries of the group to 0 and keeps C, clears SATURATED, and marks
the open slot and every held record of the group PRE_CLEAR, cutting the current slot (R128, R150). Given as a command,
the take is made in any device state (log 30); with no anchor in force the write is omitted (R6), and at an index that
no record of the list has (log 19). -/
def Obligations.GroupClearZeroesAccounts : Prop :=
  ∀ (take : CueTake) (group : BitVec 8) (s : State), CueListInside s →
    ∃ t, exec (.groupClear take group) s = .next t ∧
      (7 < group.toNat → TakenDone s t take .badValue ∧ ChangesOnly [.mem, .events] s t) ∧
      ∀ g : Fin 8, group.toNat = g.val → StandsDone s t take .ok ∧
        (∀ i : Fin 64, t.sru.accounts[g][i] =
          { balance := 0, delivered := 0, plays := 0, logged := 0, unlogged := 0,
            cursor := s.sru.accounts[g][i].cursor }) ∧
        t.sru.groups[g].saturated = false ∧ t.sru.groups[g].enabled = s.sru.groups[g].enabled ∧
        t.sru.groups[g].zones = s.sru.groups[g].zones ∧
        (∀ x, s.sru.groups[g].openSlot = some x → t.sru.groups[g].openSlot =
          if x.closing then some { x with preClear := true }
          else if x.outstanding = none then none
          else some { x with preClear := true, cut := true, closing := true }) ∧
        (∀ r ∈ t.plw.hold, r.group = g → r.preClear = true) ∧
        (∀ h : Fin 8, h ≠ g → t.sru.groups[h] = s.sru.groups[h] ∧ t.sru.accounts[h] = s.sru.accounts[h]) ∧
        t.sru.entries = s.sru.entries ∧ ChangesOnly [.mem, .events, .sru, .plw, .free] s t

/-! ## Clock channels and console lines (chapter 10) -/

/-- A CLOCK_SET is refused by the first of its checks that fails; on a channel that is not RUNNING an accepted one
replaces every field it gives, loads the channel and stops it; on a RUNNING one it may change the preset alone, which
becomes the pending preset (R158, R159). Given as a command, the take is made in any device state (log 30); with no
anchor in force the write is omitted (R6), and at an index that no record of the list has (log 19). -/
def Obligations.ClockSetConfiguresChannel : Prop :=
  ∀ (take : CueTake) (p : ClockSetPayload) (s : State), CueListInside s →
    ∃ t, exec (.clockSet take p) s = .next t ∧
      (3 < p.channel.toNat ∨ 2 < p.mode.toNat ∨ 1 < p.reload.toNat ∨ 35999999 < p.preset.toNat ∨
        (p.mode = 1 ∧ (p.limit.toNat = 0 ∨ 35999999 < p.limit.toNat)) ∨
        (p.mode = 2 ∧ (p.limit.toNat = 0 ∨ 9999 < p.limit.toNat ∨ 3 < p.source.toNat ∨
          p.source.toNat = p.channel.toNat)) ∨
        p.hornLength.toNat < 100 ∨ 5000 < p.hornLength.toNat ∨
        (p.mode = 0 ∧ p.reload = 1 ∧ p.preset.toNat < 100) →
        TakenDone s t take .badValue ∧ t.ccu = s.ccu) ∧
      (∀ c : Fin 4, p.channel.toNat = c.val → p.mode.toNat ≤ 2 → p.reload.toNat ≤ 1 → p.preset.toNat ≤ 35999999 →
        (p.mode = 1 → 1 ≤ p.limit.toNat ∧ p.limit.toNat ≤ 35999999) →
        (p.mode = 2 → 1 ≤ p.limit.toNat ∧ p.limit.toNat ≤ 9999 ∧ p.source.toNat ≤ 3 ∧ p.source.toNat ≠ c.val) →
        100 ≤ p.hornLength.toNat → p.hornLength.toNat ≤ 5000 →
        (p.mode = 0 → p.reload = 1 → 100 ≤ p.preset.toNat) →
        (let mode := if p.mode = 0 then ClockMode.countDown else if p.mode = 1 then .countUp else .tally
         let x := s.ccu.channels[c]
         (x.state ≠ .running → TakenDone s t take .ok ∧
           t.ccu = { s.ccu with channels := upd s.ccu.channels c fun _ =>
             { mode := mode, auto := p.reload == 1, count := if p.mode = 0 then p.preset.toNat else 0,
               preset := p.preset.toNat, pendingPreset := none, limit := p.limit.toNat % 2 ^ 26,
               source := Fin.ofNat 4 p.source.toNat, hornEnable := p.horn != 0, hornLength := p.hornLength.toNat,
               state := .stopped, expiries := x.expiries, reqStart := x.reqStart, reqStop := x.reqStop,
               reqReset := x.reqReset } }) ∧
         (let same := x.mode = mode ∧ x.auto = (p.reload == 1) ∧ x.hornEnable = (p.horn != 0) ∧
            x.hornLength = p.hornLength.toNat ∧ (p.mode ≠ 0 → x.limit = p.limit.toNat) ∧
            (p.mode = 2 → x.source.val = p.source.toNat)
          (x.state = .running → ¬same → TakenDone s t take .channelRunning ∧ t.ccu = s.ccu) ∧
          (x.state = .running → same → TakenDone s t take .ok ∧
            t.ccu = { s.ccu with channels := upd s.ccu.channels c fun y =>
              { y with pendingPreset := some p.preset.toNat } })))) ∧
      ChangesOnly [.mem, .events, .ccu] s t

/-- START, STOP and RESET are gathered in the channel's request set at the handover, a START on a channel with nothing
to count being refused; ADJUST moves the count of a channel that is not RUNNING by its signed delta, clamped into 0 to
the ceiling, and stops it; a channel above 3 is refused (R160, R162). That the test for nothing to count is made on a
RUNNING channel too, where R160 also calls START accepted, is the model's choice (log 38). Given as a command, the take is made in any
device state (log 30); with no anchor in force the write is omitted (R6), and at an index that no record of the list
has (log 19). -/
def Obligations.ClockRunGathersAndAdjusts : Prop :=
  ∀ (take : CueTake) (channel : BitVec 8) (s : State), CueListInside s →
    (∃ t, exec (.clockRunStart take channel) s = .next t ∧
      (3 < channel.toNat → TakenDone s t take .badValue ∧ t.ccu = s.ccu) ∧
      (∀ c : Fin 4, channel.toNat = c.val →
        (let x := s.ccu.channels[c]
         let loaded := if x.mode = .countDown then x.pendingPreset.getD x.preset else 0
         let count := if x.reqReset then loaded else x.count
         let empty := (x.state = .expired ∧ x.reqReset = false) ∨ (x.mode = .countDown ∧ count = 0) ∨
           (x.mode ≠ .countDown ∧ count = x.limit)
         (empty → TakenDone s t take .channelEmpty ∧ t.ccu = s.ccu) ∧
         (¬empty → TakenDone s t take .ok ∧
           t.ccu = { s.ccu with channels := upd s.ccu.channels c fun y => { y with reqStart := true } }))) ∧
      ChangesOnly [.mem, .events, .ccu] s t) ∧
    (∃ t, exec (.clockRunStop take channel) s = .next t ∧
      (3 < channel.toNat → TakenDone s t take .badValue ∧ t.ccu = s.ccu) ∧
      (∀ c : Fin 4, channel.toNat = c.val → TakenDone s t take .ok ∧
        t.ccu = { s.ccu with channels := upd s.ccu.channels c fun y => { y with reqStop := true } }) ∧
      ChangesOnly [.mem, .events, .ccu] s t) ∧
    (∃ t, exec (.clockRunReset take channel) s = .next t ∧
      (3 < channel.toNat → TakenDone s t take .badValue ∧ t.ccu = s.ccu) ∧
      (∀ c : Fin 4, channel.toNat = c.val → TakenDone s t take .ok ∧
        t.ccu = { s.ccu with channels := upd s.ccu.channels c fun y => { y with reqReset := true } }) ∧
      ChangesOnly [.mem, .events, .ccu] s t) ∧
    ∀ delta : Word, ∃ t, exec (.clockRunAdjust take channel delta) s = .next t ∧
      (3 < channel.toNat → TakenDone s t take .badValue ∧ t.ccu = s.ccu) ∧
      (∀ c : Fin 4, channel.toNat = c.val →
        (let x := s.ccu.channels[c]
         let top : Int := if x.mode = .countDown then 35999999 else x.limit
         (x.state = .running → TakenDone s t take .channelRunning ∧ t.ccu = s.ccu) ∧
         (x.state ≠ .running → TakenDone s t take .ok ∧
           (t.ccu.channels[c].count : Int) = max 0 (min top (x.count + delta.toInt)) ∧
           t.ccu = { s.ccu with channels := upd s.ccu.channels c fun y =>
             { y with count := t.ccu.channels[c].count, state := .stopped } }))) ∧
      ChangesOnly [.mem, .events, .ccu] s t

/-- A CONSOLE_SET replaces the line's configuration, takes its present raw level as qualified under the new polarity,
cancels any qualifying and clears the horn hold; values outside the allowed ones are refused (R164). Given as a
command, the take is made in any device state (log 30); with no anchor in force the write is omitted (R6), and at an
index that no record of the list has (log 19). -/
def Obligations.ConsoleSetConfiguresLine : Prop :=
  ∀ (take : CueTake) (levels : BitVec 8) (p : ConsolePayload) (s : State), CueListInside s →
    ∃ t, exec (.consoleSet take levels p) s = .next t ∧
      (7 < p.line.toNat ∨ 1 < p.polarity.toNat ∨ 6 < p.action.toNat ∨ 3 < p.channel.toNat →
        TakenDone s t take .badValue ∧ t.ccu = { s.ccu with levels := levels }) ∧
      (∀ (n : Fin 8) (c : Fin 4), p.line.toNat = n.val → p.polarity.toNat ≤ 1 → p.action.toNat ≤ 6 →
        p.channel.toNat = c.val → TakenDone s t take .ok ∧
        (∃ act, [LineAction.none, .start, .stop, .toggle, .reset, .horn, .triggerOnly][p.action.toNat]? = some act ∧
          t.ccu = { s.ccu with
            levels := levels,
            lines := upd s.ccu.lines n fun _ =>
              { activeLow := p.polarity == 1, qualify := max 1 (min 50 p.qualify.toNat), action := act, channel := c,
                qualified := levels.getLsbD n.val != (p.polarity == 1), qualifying := none,
                hornHold := false } })) ∧
      ChangesOnly [.mem, .events, .ccu] s t

/-! ## Trigger entries (chapter 11) -/

/-- A TRIGGER_ARM is refused with BAD_VALUE for a value outside its allowed ones and with TRIGGER_BUSY on an ARMED
entry; an accepted one copies its fields, makes the entry ARMED with pending clear and its report 0, and is written
ARMED (R171). A TRIGGER_DISARM makes an ARMED entry IDLE and is written OK also on an IDLE one. Given as a command,
the take is made in any device state (log 30); with no anchor in force the write is omitted (R6), and at an index that
no record of the list has (log 19). -/
def Obligations.TriggerArmAndDisarm : Prop :=
  (∀ (take : CueTake) (p : Payload) (s : State), CueListInside s →
    ∃ t, exec (.triggerArm take p) s = .next t ∧
      (let entry := (bits p.w6 16 4).toNat
       let kind := (bits p.w6 20 4).toNat
       let value := (bits p.w6 0 16).toNat
       let action := (bits p.w6 28 4).toNat
       let bad := 7 < entry ∨ 3 < kind ∨ (kind = 0 ∧ 3 < value) ∨ (kind = 1 ∧ 7 < value) ∨ action = 0 ∨ 2 < action
       (bad → TakenDone s t take .badValue ∧ t.etu = s.etu) ∧
       ∀ e : Fin 8, entry = e.val → ¬bad →
         (s.etu.entries[e].armed = true → TakenDone s t take .triggerBusy ∧ t.etu = s.etu) ∧
         (s.etu.entries[e].armed = false → StandsDone s t take .armed ∧
           (let x := t.etu.entries[e]
            x.armed = true ∧ x.pending = false ∧ x.rearm = p.w6.getLsbD 24 ∧ x.report = TriggerReport.zero ∧
            x.action = (if action = 1 then some (.clip (clipPayload p)) else some (.message (messagePayload p))) ∧
            (kind = 0 → ∃ c : Fin 4, c.val = value ∧ x.source = some (.channelExpiry c)) ∧
            (kind = 1 → ∃ n : Fin 8, n.val = value ∧ x.source = some (.consoleLine n)) ∧
            (kind = 2 → x.source = some (.clipEnd (bits p.w6 0 16))) ∧
            (kind = 3 → x.source = some (.messageEnd (bits p.w6 0 16))) ∧
            t.etu = { s.etu with entries := upd s.etu.entries e fun _ => x }) ∧
           ∀ a, ¬ResultByte s take.index a → ¬AnchorByte s (0x180 + 32 * e.val) (0x1A0 + 32 * e.val) a →
             t.mem.get a = s.mem.get a)) ∧
      ChangesOnly [.mem, .events, .etu] s t) ∧
  ∀ (take : CueTake) (entry : BitVec 8) (s : State), CueListInside s →
    ∃ t, exec (.triggerDisarm take entry) s = .next t ∧
      (7 < entry.toNat → TakenDone s t take .badValue ∧ t.etu = s.etu) ∧
      (∀ e : Fin 8, entry.toNat = e.val → TakenDone s t take .ok ∧
        t.etu = { s.etu with entries := upd s.etu.entries e fun x =>
          { x with armed := false, pending := x.pending && !x.armed } }) ∧
      ChangesOnly [.mem, .events, .etu] s t

/-! ## Composition and the panel links (chapter 5) -/

/-- At its handling of a frame start, in RUNNING and FALLBACK, the CLO keeps the view with one entry for each zone of
the active layout, the asked set of every head and every group that holds a claim, one answer of each, and the score words
and clock channels that its boxes name, as they stand once the shown reports of the ended frame have been acted on; while
the device does not run the asked set is empty and every pixel black (R74, R79 to R82, R86, R87). A pixel of a composed
frame is black outside every zone; inside one it shows the last of the zone's boxes that is not covered and whose string
paints it, and otherwise the base that the head's answer gives (R83 to R86, R117). The model's choices in it: the row changes
nothing with no frame start waiting (log 8), and a pixel is read from show memory as it stands (log 23). -/
def Obligations.FrameStartTakesViewAndAsks : Prop :=
  (∀ s : State, s.clo.frameDue = false → exec .cloFrameStart s = .next s) ∧
  (∀ s : State, s.clo.frameDue = true → s.smp.dev = .halted ∨ s.smp.dev = .starting ∨ s.smp.dev = .faulted →
    ∃ t, exec .cloFrameStart s = .next t ∧ t.clo.asked = [] ∧ t.clo.frameDue = false ∧ t.zar = s.zar ∧
      (∀ (link : Fin 4) (x y : Nat), canvasPixel t link x y = 0) ∧
      ChangesOnly [.mem, .events, .clo, .cle, .msu, .sru, .plw, .etu, .free] s t) ∧
  (∀ s : State, s.clo.frameDue = true → s.smp.dev = .running ∨ s.smp.dev = .fallback →
    ∃ t w, exec .cloFrameStart s = .next t ∧ t.clo.work = some w ∧ t.clo.frameDue = false ∧
      w.number = s.ftu.frame ∧ w.content = true ∧
      (∀ v : ViewEntry, v ∈ w.view ↔ ∃ (z : Fin 16) (e : ZoneEntry), s.zar.table[z] = some e ∧
        v = ⟨e.defn, e.claims.head?.map Claim.who, (e.claims.head?.map Claim.level).getD 7⟩) ∧
      (∀ who : Claimant, who ∈ t.clo.asked ↔ (∃ v ∈ w.view, v.head = some who) ∨
        ∃ g : Fin 8, who = .group g ∧ holdsAny s.zar (.group g) = true) ∧
      t.clo.asked.Nodup ∧ (w.answers.map Prod.fst).Perm t.clo.asked ∧
      (∀ c : ClockSample, c ∈ w.clocks ↔ (∃ v ∈ w.view, ∃ b ∈ v.defn.boxes, ∃ f, b.source = .clock c.channel f) ∧
        c.count = s.ccu.channels[c.channel].count ∧ c.mode = s.ccu.channels[c.channel].mode ∧
        c.state = s.ccu.channels[c.channel].state) ∧
      (let reported := closeAndReport { s with clo := { s.clo with frameDue := false } }
       (∀ (f : Fin 32) (x : Word), (f, x) ∈ w.scores ↔
         (∃ v ∈ w.view, ∃ b ∈ v.defn.boxes, ∃ digits pad, b.source = .score f digits pad) ∧
         x = reported.mem.word (s.clo.scoreOffset.toNat + 4 * f.val)) ∧
       (s.smp.inForce = false ∨ (s.clo.asked = [] ∧ ∀ n : Fin 4, s.clo.links[n].up = true →
         s.clo.links[n].seen = false → s.clo.links[n].miss < 2) → reported.mem = s.mem)) ∧
      t.zar.banks = s.zar.banks ∧ t.zar.selector = s.zar.selector ∧ t.clo.scoreOffset = s.clo.scoreOffset ∧
      t.clo.fontOffset = s.clo.fontOffset ∧ t.sru.entries = s.sru.entries ∧
      ChangesOnly [.mem, .events, .zar, .clo, .cle, .msu, .sru, .plw, .etu, .free] s t) ∧
  ∀ (link : Fin 4) (x y : Nat) (w : FrameWork) (s : State), s.clo.work = some w → w.content = true →
    (let inside := fun v : ViewEntry => v.defn.link = link ∧ v.defn.x ≤ x ∧ x < v.defn.x + v.defn.width ∧
       v.defn.y ≤ y ∧ y < v.defn.y + v.defn.height
     let font := s.clo.fontOffset.toNat
     ((∀ v ∈ w.view, ¬inside v) → canvasPixel s link x y = 0) ∧
     ∀ v ∈ w.view, inside v → (∀ u ∈ w.view, inside u → u = v) →
       (let px := x - v.defn.x
        let py := y - v.defn.y
        let drawn := fun b : FieldBox => b.cover < v.level ∧
          TextPaints s.mem font b.scale (boxString w b) b.x b.y px py
        (∀ before b after, v.defn.boxes = before ++ b :: after → drawn b → (∀ c ∈ after, ¬drawn c) →
          canvasPixel s link x y = b.colour) ∧
        ((∀ b ∈ v.defn.boxes, ¬drawn b) →
          BaseShows s.mem font v.defn (v.head.bind fun who => w.answers.lookup who) px py
            (canvasPixel s link x y))))

/-- Before any report, a frame start closes the ended frame on each link by the table of R78, and LINK_STATE is raised
when a link becomes DOWN. LINK_DOWN is that close of a link whose third ended frame without an answer it is; it acts on no
other link state (log 9). -/
def Obligations.EndedFrameClosesLinks : Prop :=
  (∀ s : State, s.clo.frameDue = true → ∃ t, exec .cloFrameStart s = .next t ∧
    (∀ n : Fin 4, t.clo.links[n] =
      (let l := s.clo.links[n]
       if l.seen then { up := l.up, miss := 0, seen := false }
       else if l.up = false then { up := false, miss := 3, seen := false }
       else if l.miss = 0 ∨ l.miss = 1 then { up := true, miss := l.miss + 1, seen := false }
       else { up := false, miss := 3, seen := false })) ∧
    (pendingFlag t .linkState = true ↔ pendingFlag s .linkState = true ∨
      ∃ n : Fin 4, s.clo.links[n].up = true ∧ s.clo.links[n].seen = false ∧ 2 ≤ s.clo.links[n].miss)) ∧
  ∀ (n : Fin 4) (s : State), s.smp.anchor.toNat % 4096 = 0 → ∃ t, exec (.linkDown n) s = .next t ∧
    (s.clo.frameDue = true → s.clo.links[n].up = true → s.clo.links[n].seen = false → s.clo.links[n].miss = 2 →
      t.clo = { s.clo with links := upd s.clo.links n fun _ => { up := false, miss := 3, seen := false } } ∧
      t.smp.events = s.smp.events ||| 0x080#10 ∧ ChangesOnly [.mem, .events, .clo] s t ∧
      (s.smp.inForce = false → t.mem = s.mem) ∧
      (s.smp.inForce = true → ∀ m : Fin 4,
        (t.mem.word (s.smp.anchor.toNat + 0x124)).getLsbD m.val = (decide (m ≠ n) && s.clo.links[m].up)) ∧
      ∀ a, ¬AnchorByte s 0x124 0x128 a → t.mem.get a = s.mem.get a) ∧
    (s.clo.frameDue = false ∨ s.clo.links[n].up = false ∨ s.clo.links[n].seen = true ∨ s.clo.links[n].miss < 2 →
      t = s)

/-- An answer on a link sets its answer-seen flag; on a DOWN link it also makes it UP with miss count 0, raises LINK_STATE
and, with an anchor in force, writes the four link states; a second answer before the frame start changes nothing
(R77). -/
def Obligations.LinkAnswerBringsLinkUp : Prop :=
  ∀ (n : Fin 4) (s : State), s.smp.anchor.toNat % 4096 = 0 → ∃ t, exec (.linkAnswer n) s = .next t ∧
    exec (.linkAnswer n) t = .next t ∧
    (s.clo.links[n].up = true →
      t = { s with clo := { s.clo with links := upd s.clo.links n fun l => { l with seen := true } } }) ∧
    (s.clo.links[n].up = false →
      t.clo = { s.clo with links := upd s.clo.links n fun _ => { up := true, miss := 0, seen := true } } ∧
      t.smp.events = s.smp.events ||| 0x080#10 ∧ ChangesOnly [.mem, .events, .clo] s t ∧
      (s.smp.inForce = false → t.mem = s.mem) ∧
      (s.smp.inForce = true →
        (∀ m : Fin 4, (t.mem.word (s.smp.anchor.toNat + 0x124)).getLsbD m.val =
          (decide (m = n) || s.clo.links[m].up)) ∧
        ∀ a, ¬AnchorByte s 0x124 0x128 a → t.mem.get a = s.mem.get a))

/-- The shown report of the outstanding frame of a clip or a message adds 1 to its frames shown when it names the slot as
head with a source frame or a phase drawn, and to its lit zone-frames the zones whose link is UP after the close; the
first one sets the first shown frame (R78, R80, R100, R118). A slot that waits in ENDING for that report completes at it,
with what it credits: its origin gets the results, a message COMPLETED with no frame shown as EXPIRED_UNSHOWN, the ETU its
end event, and the slot becomes IDLE (R101, R119, R174). -/
def Obligations.ShownReportCreditsClipOrMessage : Prop :=
  (∀ (k : Fin 8) (w : FrameWork) (s : State), s.clo.frameDue = true → s.clo.work = some w →
    (let mine := fun who : Claimant => w.view.filter fun v => v.head == some who
     let lit := fun who : Claimant => ((mine who).filter fun v => s.clo.links[v.defn.link].up &&
       (s.clo.links[v.defn.link].seen || decide (s.clo.links[v.defn.link].miss < 2))).length
     (∀ offset width height idx, Claimant.clip k ∈ s.clo.asked → s.cle.slots[k].working = true →
       s.cle.slots[k].outstanding = some w.number →
       w.answers.lookup (.clip k) = some (.clip offset width height idx) →
       ∃ t, exec .cloFrameStart s = .next t ∧
        (mine (.clip k) = [] → t.cle.slots[k].framesShown = s.cle.slots[k].framesShown ∧
          t.cle.slots[k].litFrames = s.cle.slots[k].litFrames ∧
          t.cle.slots[k].firstShown = s.cle.slots[k].firstShown) ∧
        (mine (.clip k) ≠ [] →
          t.cle.slots[k].framesShown = min (s.cle.slots[k].framesShown + 1) 4294967295 ∧
          t.cle.slots[k].litFrames = min (s.cle.slots[k].litFrames + lit (.clip k)) 4294967295 ∧
          t.cle.slots[k].firstShown = some (s.cle.slots[k].firstShown.getD w.number))) ∧
     (∀ content, Claimant.message k ∈ s.clo.asked → s.msu.slots[k].working = true →
       s.msu.slots[k].outstanding = some w.number → w.answers.lookup (.message k) = some (.message content) →
       (s.msu.slots[k].counted = s.ftu.frame ∨ ∀ d, s.msu.slots[k].duration = some d → 2 ≤ d) →
       ∃ t, exec .cloFrameStart s = .next t ∧
        (mine (.message k) = [] → t.msu.slots[k].framesShown = s.msu.slots[k].framesShown ∧
          t.msu.slots[k].litFrames = s.msu.slots[k].litFrames ∧
          t.msu.slots[k].firstShown = s.msu.slots[k].firstShown) ∧
        (mine (.message k) ≠ [] →
          t.msu.slots[k].framesShown = min (s.msu.slots[k].framesShown + 1) 4294967295 ∧
          t.msu.slots[k].litFrames = min (s.msu.slots[k].litFrames + lit (.message k)) 4294967295 ∧
          t.msu.slots[k].firstShown = some (s.msu.slots[k].firstShown.getD w.number))) ∧
     (Claimant.clip k ∈ s.clo.asked → s.cle.slots[k].state = .ending →
       s.cle.slots[k].outstanding = some w.number →
       ∃ t, exec .cloFrameStart s = .next t ∧ t.cle.slots[k] = ClipSlot.cleared) ∧
     (Claimant.message k ∈ s.clo.asked → s.msu.slots[k].state = .ending →
       s.msu.slots[k].outstanding = some w.number →
       ∃ t, exec .cloFrameStart s = .next t ∧ t.msu.slots[k] = MessageSlot.cleared))) ∧
  (∀ (k : Fin 8) (f : Frame) (report : List ReportEntry) (status : Status) (s : State),
    (let c := s.cle.slots[k]
     let mine := report.filter fun e => e.head == some (.clip k) && match e.drawn with
       | .clip _ _ _ _ => true
       | _ => false
     let t := clipReport k f report s
     c.state = .ending → c.outstanding = some f → c.status = some status → c.epoch = s.smp.anchorEpoch →
     s.smp.inForce = true → CueListInside s → ListApart s → s.etu.handling = false →
     t.cle = { s.cle with slots := upd s.cle.slots k fun _ => ClipSlot.cleared } ∧
     OriginCompleted s t c.origin
      { status := status, late := c.late, preempted := c.preempted, refused := c.refused, takeFrame := c.takeFrame,
        firstShown := if mine = [] then c.firstShown.getD 0 else c.firstShown.getD f, endFrame := c.endFrame,
        framesShown := if mine = [] then c.framesShown else min (c.framesShown + 1) 4294967295,
        litFrames := if mine = [] then c.litFrames
          else min (c.litFrames + (mine.filter ReportEntry.lit).length) 4294967295 } (.clipEnd c.tag) ∧
     ChangesOnly [.mem, .events, .cle, .etu] s t)) ∧
  ∀ (k : Fin 8) (f : Frame) (report : List ReportEntry) (status : Status) (s : State),
    (let m := s.msu.slots[k]
     let mine := report.filter fun e => e.head == some (.message k) && match e.drawn with
       | .message _ => true
       | _ => false
     let shown := if mine = [] then m.framesShown else min (m.framesShown + 1) 4294967295
     let t := messageReport k f report s
     m.state = .ending → m.outstanding = some f → m.status = some status → m.epoch = s.smp.anchorEpoch →
     s.smp.inForce = true → CueListInside s → ListApart s → s.etu.handling = false →
     t.msu = { s.msu with slots := upd s.msu.slots k fun _ => MessageSlot.cleared } ∧
     OriginCompleted s t m.origin
      { status := if status = .completed ∧ shown = 0 then .expiredUnshown else status, late := m.late,
        preempted := m.preempted, refused := m.refused, takeFrame := m.takeFrame,
        firstShown := if mine = [] then m.firstShown.getD 0 else m.firstShown.getD f, endFrame := m.endFrame,
        framesShown := shown,
        litFrames := if mine = [] then m.litFrames
          else min (m.litFrames + (mine.filter ReportEntry.lit).length) 4294967295 } (.messageEnd m.tag) ∧
     ChangesOnly [.mem, .events, .msu, .etu] s t)

/-! ## Clip cursors and message counts (chapters 6 and 7) -/

/-- An asked clip answers with the source frame at its cursor, and the cursor moves on by one frame of its pass; a HELD
one answers with the last source frame, and one that is neither PLAYING nor HELD, or holds none of the zones asked for,
with nothing. An exhausted clip ends COMPLETED, releasing its claims, or is HELD (R95 to R98). As a command of its own
CLIP_EXHAUSTED is that event of a slot that stands exhausted, and acts on no other (log 9). -/
def Obligations.ClipAdvancesUntilExhausted : Prop :=
  (∀ (k : Fin 8) (f : Frame) (zones : ZoneMask) (s : State), s.cle.slots[k].state = .playing →
    s.cle.slots[k].holdings &&& zones ≠ 0 → s.cle.slots[k].repPhase < s.cle.slots[k].rep →
    s.cle.slots[k].source < s.cle.slots[k].count → s.cle.slots[k].passes < 255 →
    (let c := s.cle.slots[k]
     let r := clipRequest k f zones s
     let d := r.2.cle.slots[k]
     r.1 = .clip (c.base + c.source * c.pitch) c.width c.height c.source ∧ d.outstanding = some f ∧
     d.repPhase < c.rep ∧ d.source < c.count ∧
     (d.passes * c.count + d.source) * c.rep + d.repPhase =
       (c.passes * c.count + c.source) * c.rep + c.repPhase + 1 ∧
     d.state = (if c.loops ≠ 0 ∧ d.passes = c.loops then (if c.holdLast then .held else .ending) else .playing) ∧
     (d.state = .ending → d.status = some .completed ∧ d.endFrame = s.ftu.frame ∧ d.holdings = 0 ∧
       holdsAny r.2.zar (.clip k) = false) ∧
     (d.state ≠ .ending → d.status = c.status ∧ d.holdings = c.holdings ∧ r.2.zar = s.zar) ∧
     (∀ j : Fin 8, j ≠ k → r.2.cle.slots[j] = s.cle.slots[j]) ∧ ChangesOnly [.zar, .cle] s r.2)) ∧
  (∀ (k : Fin 8) (f : Frame) (zones : ZoneMask) (s : State),
    (let c := s.cle.slots[k]
     (c.state = .held → c.holdings &&& zones ≠ 0 → clipRequest k f zones s =
       (.clip (c.base + (c.count - 1) * c.pitch) c.width c.height (c.count - 1),
        { s with cle := { s.cle with slots := upd s.cle.slots k fun x => { x with outstanding := some f } } })) ∧
     (c.working = false ∨ c.holdings &&& zones = 0 → clipRequest k f zones s = (.nothing, s)))) ∧
  ∀ (k : Fin 8) (s : State), ∃ t, exec (.clipExhausted k) s = .next t ∧
    (let c := s.cle.slots[k]
     (c.state ≠ .playing ∨ c.loops = 0 ∨ c.passes ≠ c.loops → t = s) ∧
     (c.state = .playing → c.loops ≠ 0 → c.passes = c.loops → c.holdLast = true →
       t.cle = { s.cle with slots := upd s.cle.slots k fun x => { x with state := .held } } ∧
       ChangesOnly [.cle] s t) ∧
     ∀ f, c.state = .playing → c.loops ≠ 0 → c.passes = c.loops → c.holdLast = false → c.outstanding = some f →
       t.cle = { s.cle with slots := upd s.cle.slots k fun x =>
         { x with state := .ending, status := some .completed, endFrame := s.ftu.frame, holdings := 0 } } ∧
       (∀ z : Fin 16, claimsAt t.zar z = (claimsAt s.zar z).filter fun d => d.who != .clip k) ∧
       ChangesOnly [.zar, .cle] s t)

/-- Each SHOWING message makes one count for a frame: its duration decreases, its phase alternates, its crawl position
moves on; one whose duration runs out ends COMPLETED at the frame before. A content request is answered after that count:
a SHOWING message that holds a zone asked for answers with its text, its colours, its phase, its crawl offset in whole
pixels and its extent, and the frame becomes outstanding; any other answers with nothing. As commands of their own DURATION_RUN_OUT
and BLINK_PHASE_CHANGE are the counts that bring those events about and act on no other slot, the latter not on one
whose duration runs out (R113 to R117, R119; log 9). That MSU_FRAME_START changes nothing with no frame start waiting
is the model's choice (log 8). -/
def Obligations.MessageCountsEachFrameOnce : Prop :=
  (∀ s : State, s.msu.frameDue = false → exec .msuFrameStart s = .next s) ∧
  (∀ s : State, s.msu.frameDue = true → ∃ t, exec .msuFrameStart s = .next t ∧ t.msu.frameDue = false ∧
    (∀ k : Fin 8, (s.msu.slots[k].state ≠ .showing ∨ s.msu.slots[k].counted = s.ftu.frame →
        t.msu.slots[k] = s.msu.slots[k]) ∧
      (s.msu.slots[k].state = .showing → s.msu.slots[k].counted ≠ s.ftu.frame →
        (∀ d, s.msu.slots[k].duration = some d → 2 ≤ d) →
        s.msu.slots[k].CountedAs t.msu.slots[k] s.ftu.frame) ∧
      (∀ g, s.msu.slots[k].state = .showing → s.msu.slots[k].counted ≠ s.ftu.frame →
        s.msu.slots[k].duration = some 1 → s.msu.slots[k].outstanding = some g →
        t.msu.slots[k] = { s.msu.slots[k] with
          counted := s.ftu.frame, duration := some 0, state := .ending, status := some .completed,
          endFrame := s.ftu.frame - 1, holdings := 0 } ∧ holdsAny t.zar (.message k) = false)) ∧
    ChangesOnly [.mem, .events, .zar, .msu, .etu, .free] s t) ∧
  (∀ (k : Fin 8) (f : Frame) (zones : ZoneMask) (s : State),
    (let m := s.msu.slots[k]
     (m.state ≠ .showing → messageRequest k f zones s = (.nothing, s)) ∧
     (m.state = .showing → m.counted = f → MessageAnswers k f zones m s (messageRequest k f zones s)) ∧
     (m.state = .showing → m.counted ≠ f → (∀ d, m.duration = some d → 2 ≤ d) →
       ∃ n, m.CountedAs n f ∧ MessageAnswers k f zones n s (messageRequest k f zones s)) ∧
     (f = s.ftu.frame → m.state = .showing → m.counted ≠ f → m.duration = some 1 →
       (messageRequest k f zones s).1 = .nothing ∧
       exec (.durationRunOut k) s = .next (messageRequest k f zones s).2))) ∧
  (∀ (k : Fin 8) (s : State), ∃ t, exec (.durationRunOut k) s = .next t ∧
    (s.msu.slots[k].duration = none ∨ (∃ d, s.msu.slots[k].duration = some d ∧ 2 ≤ d) ∨
      s.msu.slots[k].state ≠ .showing ∨ s.msu.slots[k].counted = s.ftu.frame → t = s) ∧
    ∀ g, s.msu.slots[k].state = .showing → s.msu.slots[k].counted ≠ s.ftu.frame →
      s.msu.slots[k].duration = some 1 → s.msu.slots[k].outstanding = some g →
      t.msu = { s.msu with slots := upd s.msu.slots k fun m =>
        { m with counted := s.ftu.frame, duration := some 0, state := .ending, status := some .completed,
                 endFrame := s.ftu.frame - 1, holdings := 0 } } ∧
      (∀ z : Fin 16, claimsAt t.zar z = (claimsAt s.zar z).filter fun d => d.who != .message k) ∧
      ChangesOnly [.zar, .msu] s t) ∧
  ∀ (k : Fin 8) (s : State), ∃ t, exec (.blinkPhaseChange k) s = .next t ∧
    (s.msu.slots[k].blinkOn = 0 ∨ s.msu.slots[k].blinkOff = 0 ∨ 2 ≤ s.msu.slots[k].phaseLeft ∨
      s.msu.slots[k].state ≠ .showing ∨ s.msu.slots[k].counted = s.ftu.frame ∨
      (∃ d, s.msu.slots[k].duration = some d ∧ d ≤ 1) → t = s) ∧
    (s.msu.slots[k].state = .showing → s.msu.slots[k].counted ≠ s.ftu.frame → s.msu.slots[k].blinkOn ≠ 0 →
      s.msu.slots[k].blinkOff ≠ 0 → s.msu.slots[k].phaseLeft = 1 →
      (∀ d, s.msu.slots[k].duration = some d → 2 ≤ d) →
      (let m := s.msu.slots[k]
       let n := t.msu.slots[k]
       n.phase = (if m.phase = .on then .off else .on) ∧
       n.phaseLeft = (if m.phase = .on then m.blinkOff else m.blinkOn) ∧
       n = { m with counted := s.ftu.frame, duration := m.duration.map (· - 1), phase := n.phase,
                    phaseLeft := n.phaseLeft, crawlPos := n.crawlPos }) ∧
      (∀ j : Fin 8, j ≠ k → t.msu.slots[j] = s.msu.slots[j]) ∧ ChangesOnly [.msu] s t)

/-! ## Rotation and accounting (chapters 8 and 9) -/

/-- A request to an ENABLED group without an open slot selects the eligible entry with the greatest balance, a tie going
to the lowest number, and the slot answers at once; a current slot answers with the source frame that its answered frames
and the repeat give, and becomes closing when its dwell is answered; a DISABLED group, one with an empty zone set and one
with neither slot nor eligible entry answer with nothing (R132, R133). At the accounting close of an open slot its play
record is handed to the play log writer, the slot ceases to exist, and the group's section of the exposure snapshot is
written with one snapshot more, unless no anchor is in force, or a halt cut the slot and a new start has since brought
another anchor into force; it shows L of the shown entry either before or after the log has added the record (R137, R138, R142, 12.8; log 6). That it shows U with a
record dropped at that handover is the model's choice (log 37). A slot whose dwell has been answered, and one that is cut, closes so at once
when it has no outstanding frame, and is the closing slot otherwise (R133, R134). As a command of its own DWELL_END acts
on a current slot whose dwell has been answered, and on no other (log 9). -/
def Obligations.RotationSelectsAndCloses : Prop :=
  (∀ (g : Fin 8) (f : Frame) (i : Fin 64) (c : Creative) (s : State), s.sru.groups[g].enabled = true →
    s.sru.groups[g].zones ≠ 0 → s.sru.groups[g].openSlot = none → eligible s.sru g i = true →
    (∀ j : Fin 64, eligible s.sru g j = true → s.sru.accounts[g][j].balance < s.sru.accounts[g][i].balance ∨
      (s.sru.accounts[g][j].balance = s.sru.accounts[g][i].balance ∧ i ≤ j)) →
    s.sru.entries[i].creatives[s.sru.accounts[g][i].cursor]? = some c → 2 ≤ c.dwell →
    (let r := groupRequest g f s
     r.1 = .creative i (s.sru.groups[g].slotNumber + 1) c.base c.width c.height ∧
     r.2.sru.groups[g] = { s.sru.groups[g] with
       slotNumber := s.sru.groups[g].slotNumber + 1,
       openSlot := some { number := s.sru.groups[g].slotNumber + 1, entry := i,
                          sponsorId := s.sru.entries[i].sponsorId, creative := s.sru.accounts[g][i].cursor,
                          start := f, planned := c.dwell, remaining := c.dwell - 1, answered := 1,
                          outstanding := some f, running := 0, preemptedFrames := 0, cut := false,
                          preClear := false, fallback := s.smp.dev == .fallback, closing := false,
                          haltedUnder := none } } ∧
     r.2.sru.accounts[g][i] = { s.sru.accounts[g][i] with
       cursor := (s.sru.accounts[g][i].cursor + 1) % s.sru.entries[i].creatives.length,
       plays := s.sru.accounts[g][i].plays + 1 } ∧
     (∀ (h : Fin 8) (j : Fin 64), h ≠ g ∨ j ≠ i → r.2.sru.accounts[h][j] = s.sru.accounts[h][j]) ∧
     (∀ h : Fin 8, h ≠ g → r.2.sru.groups[h] = s.sru.groups[h]) ∧ r.2.sru.entries = s.sru.entries ∧
     ChangesOnly [.sru] s r.2)) ∧
  (∀ (g : Fin 8) (f : Frame) (s : State),
    (s.sru.groups[g].enabled = false ∨ s.sru.groups[g].zones = 0 ∨
      (s.sru.groups[g].openSlot = none ∧ ∀ i : Fin 64, eligible s.sru g i = false) →
      groupRequest g f s = (.nothing, s)) ∧
    ∀ (x : Slot) (c : Creative), s.sru.groups[g].enabled = true → s.sru.groups[g].zones ≠ 0 →
      s.sru.groups[g].openSlot = some x → x.closing = false → 1 ≤ x.remaining →
      s.sru.entries[x.entry].creatives[x.creative]? = some c →
      groupRequest g f s =
        (.creative x.entry x.number (c.base + (x.answered / c.rep % c.count) * c.pitch) c.width c.height,
         { s with sru := { s.sru with groups := upd s.sru.groups g fun r =>
           { r with openSlot := some { x with
             outstanding := some f, answered := x.answered + 1, remaining := x.remaining - 1,
             closing := x.remaining == 1 } } } })) ∧
  (∀ (g : Fin 8) (x : Slot) (s : State), s.sru.groups[g].openSlot = some x →
    (let u := handRecord
       { sponsorId := x.sponsorId, entry := x.entry, group := g, creative := x.creative, start := x.start,
         planned := x.planned, answered := x.answered, zoneFrames := x.running,
         preemptedFrames := x.preemptedFrames, cut := x.cut, preClear := x.preClear, fallback := x.fallback }
       { s with sru := { s.sru with groups := upd s.sru.groups g fun r => { r with openSlot := none } } }
     let t := closeSlot g s
     let o := s.sru.snapshotOffset.toNat + 2576 * g.val
     (s.smp.inForce = false ∨ (∃ e, x.haltedUnder = some e ∧ e ≠ s.smp.anchorEpoch) → t.sru = u.sru ∧ ChangesOnly [.free] u t) ∧
     (s.smp.inForce = true → (∀ e, x.haltedUnder = some e → e = s.smp.anchorEpoch) →
       s.sru.snapshotOffset.toNat + 20608 ≤ 2 ^ 32 →
       t.sru = { u.sru with groups := upd u.sru.groups g fun r => { r with snapshots := r.snapshots + 1 } } ∧
       (∃ l, (l = s.sru.accounts[g][x.entry].logged ∨ l = u.sru.accounts[g][x.entry].logged) ∧
         SectionReads t.mem o t.sru.groups[g] fun i =>
           if i = x.entry then { u.sru.accounts[g][i] with logged := l } else u.sru.accounts[g][i]) ∧
       (∀ a, ¬(o ≤ a ∧ a < o + 2576) → t.mem.get a = u.mem.get a) ∧ ChangesOnly [.mem, .sru, .free] u t))) ∧
  (∀ (g : Fin 8) (x : Slot) (s : State), s.sru.groups[g].openSlot = some x → x.closing = false →
    (let cut := { s with sru := { s.sru with groups := upd s.sru.groups g fun r =>
       { r with openSlot := some { x with cut := true, closing := true } } } }
     (x.outstanding = none → cutSlot g s = closeSlot g cut) ∧ (x.outstanding ≠ none → cutSlot g s = cut))) ∧
  ∀ (g : Fin 8) (s : State),
    ((∀ x, s.sru.groups[g].openSlot = some x → x.closing = true ∨ x.remaining ≠ 0) →
      exec (.dwellEnd g) s = .next s) ∧
    ∀ x, s.sru.groups[g].openSlot = some x → x.closing = false → x.remaining = 0 →
      (x.outstanding = none → exec (.dwellEnd g) s = .next (closeSlot g s)) ∧
      (x.outstanding ≠ none → exec (.dwellEnd g) s =
        .next { s with sru := { s.sru with groups := upd s.sru.groups g fun r =>
          { r with openSlot := some { x with closing := true } } } })

/-- The shown report of a slot's outstanding frame credits the zones that name the group as head with the slot drawn and
lit: k of them give every eligible entry its weight times k, charge the shown entry the weight sum times k, and add k to
its delivered zone-frames. A balance that would leave its range is held at the limit it would cross: SATURATED is set,
with the group status written if it was clear, and GROUP_SATURATED is raised; with no balance held, the balances of the
group keep their sum (R126, R135, R136). A closing slot is credited in the same way and then closed (R137). The model's
choices in it: the gain and the charge of the shown entry are two changes, each held at the limits (log 17), and delivered
zone-frames wrap at 2^64 (log 18). -/
def Obligations.ShownReportCreditsGroup : Prop :=
  (∀ (g : Fin 8) (f : Frame) (report : List ReportEntry) (x : Slot) (s : State),
    s.sru.groups[g].openSlot = some x → x.outstanding = some f → x.closing = false →
    (let k := (report.filter fun e => e.lit && e.head == some (.group g) &&
       match e.drawn with
       | .creative i n _ _ _ => i == x.entry && n == x.number
       | _ => false).length
     let t := groupReport g f report s
     let weight : Fin 64 → Int := fun i => if eligible s.sru g i then s.sru.entries[i].weight else 0
     let sum : Int := ((List.finRange 64).map weight).sum
     t.sru.groups[g].openSlot = some { x with
       outstanding := none, running := x.running + k,
       preemptedFrames := if k = 0 then x.preemptedFrames + 1 else x.preemptedFrames } ∧
     (x.preClear = true → t.sru.accounts = s.sru.accounts) ∧
     (x.preClear = false →
       (∀ i : Fin 64, t.sru.accounts[g][i].delivered =
           (if i = x.entry then s.sru.accounts[g][i].delivered + BitVec.ofNat 64 k
            else s.sru.accounts[g][i].delivered) ∧
         t.sru.accounts[g][i].plays = s.sru.accounts[g][i].plays ∧
         t.sru.accounts[g][i].logged = s.sru.accounts[g][i].logged ∧
         t.sru.accounts[g][i].unlogged = s.sru.accounts[g][i].unlogged ∧
         t.sru.accounts[g][i].cursor = s.sru.accounts[g][i].cursor) ∧
       ((∀ i : Fin 64, -(2 ^ 47) ≤ s.sru.accounts[g][i].balance ∧
           s.sru.accounts[g][i].balance + weight i * k ≤ 2 ^ 47 - 1) →
         -(2 ^ 47) ≤ s.sru.accounts[g][x.entry].balance + weight x.entry * k - sum * k →
         (∀ i : Fin 64, t.sru.accounts[g][i].balance =
           s.sru.accounts[g][i].balance + weight i * k - (if i = x.entry then sum * k else 0)) ∧
         ((List.finRange 64).map fun i => t.sru.accounts[g][i].balance).sum =
           ((List.finRange 64).map fun i => s.sru.accounts[g][i].balance).sum ∧
         t.sru.groups[g].saturated = s.sru.groups[g].saturated ∧ t.smp.events = s.smp.events) ∧
       (let within := fun b : Int => max (-(2 ^ 47)) (min (2 ^ 47 - 1) b)
        let gain := fun i : Fin 64 => s.sru.accounts[g][i].balance + weight i * k
        let gained := fun i : Fin 64 =>
          if eligible s.sru g i then within (gain i) else s.sru.accounts[g][i].balance
        let charged := gained x.entry - sum * k
        let held := (∃ i : Fin 64, eligible s.sru g i = true ∧ within (gain i) ≠ gain i) ∨ within charged ≠ charged
        (∀ i : Fin 64, t.sru.accounts[g][i].balance = if i = x.entry then within charged else gained i) ∧
        (held → t.sru.groups[g].saturated = true ∧ t.smp.events = s.smp.events ||| 0x100#10 ∧
          (s.sru.groups[g].saturated = true → t.mem = s.mem) ∧
          (s.sru.groups[g].saturated = false → s.smp.inForce = true → s.smp.anchor.toNat % 4096 = 0 →
            ∀ h : Fin 8, (t.mem.get (s.smp.anchor.toNat + 0x128 + h.val)).getLsbD 0 = s.sru.groups[h].enabled ∧
              (t.mem.get (s.smp.anchor.toNat + 0x128 + h.val)).getLsbD 1 =
                (decide (h = g) || s.sru.groups[h].saturated))) ∧
        (¬held → t.sru.groups[g].saturated = s.sru.groups[g].saturated ∧ t.smp.events = s.smp.events ∧
          t.mem = s.mem))) ∧
     (s.smp.inForce = false → t.mem = s.mem) ∧
     (∀ a, ¬AnchorByte s 0x128 0x130 a → t.mem.get a = s.mem.get a) ∧
     (∀ h : Fin 8, h ≠ g → t.sru.groups[h] = s.sru.groups[h] ∧ t.sru.accounts[h] = s.sru.accounts[h]) ∧
     ChangesOnly [.mem, .events, .sru] s t)) ∧
  (∀ (g : Fin 8) (f : Frame) (report : List ReportEntry) (x : Slot) (s : State),
    s.sru.groups[g].openSlot = some x → x.outstanding = some f → x.closing = true →
    groupReport g f report s = closeSlot g (groupReport g f report
      { s with sru := { s.sru with groups := upd s.sru.groups g fun r =>
        { r with openSlot := some { x with closing := false } } } })) ∧
  ∀ (g : Fin 8) (f : Frame) (report : List ReportEntry) (s : State),
    (∀ x, s.sru.groups[g].openSlot = some x → x.outstanding ≠ some f) → groupReport g f report s = s

/-- A record handed over is written, held or dropped by the table of R146: dropped with eight held, held behind others or
with no anchor in force, and otherwise written when the log has room and held when not, the read index being tested. At a
frame start with an anchor in force the oldest held record is written when the log has room, and the next one then, while
one that finds no room waits (R144, R145 to R149, 12.9). That HOLD_QUEUE_RETRY changes nothing with no frame start waiting
is the model's choice (log 8), and so is that L and U wrap at 2^64 (log 18). -/
def Obligations.LogWritesHoldsOrDrops : Prop :=
  (∀ (r : PlayRecord) (s : State),
    (let t := handRecord r s
     (8 ≤ s.plw.hold.length →
       t.plw = { s.plw with overflow := min (s.plw.overflow + 1) 4294967295 } ∧
       t.smp.events = s.smp.events ||| 0x002#10 ∧
       (∀ (g : Fin 8) (i : Fin 64), t.sru.accounts[g][i] =
         if g = r.group ∧ i = r.entry ∧ r.preClear = false then
           { s.sru.accounts[g][i] with unlogged := s.sru.accounts[g][i].unlogged + BitVec.ofNat 64 r.zoneFrames }
         else s.sru.accounts[g][i]) ∧
       (s.smp.inForce = true → s.smp.anchor.toNat % 4096 = 0 →
         t.mem.word (s.smp.anchor.toNat + 0x110) = BitVec.ofNat 32 t.plw.overflow) ∧
       (s.smp.inForce = false → t.mem = s.mem) ∧ ChangesOnly [.mem, .events, .sru, .plw] s t ∧
       ∀ a, ¬AnchorByte s 0x110 0x114 a → t.mem.get a = s.mem.get a) ∧
     (1 ≤ s.plw.hold.length → s.plw.hold.length < 8 →
       t.plw = { s.plw with hold := s.plw.hold ++ [r] } ∧ ChangesOnly [.plw] s t) ∧
     (s.plw.hold = [] → s.smp.inForce = false → t.plw = { s.plw with hold := [r] } ∧ ChangesOnly [.plw] s t) ∧
     (s.plw.hold = [] → s.smp.inForce = true → ¬LogHasRoom s →
       t.plw = { s.plw with hold := [r], badIndex := badIndexAfter s } ∧ t.smp.events = eventsAfterIndex s ∧
       ChangesOnly [.events, .plw] s t) ∧
     (s.plw.hold = [] → s.smp.inForce = true → LogHasRoom s → LogInside s → LogWritten s t r ∧
       t.plw = { s.plw with badIndex := none, writeIndex := (s.plw.writeIndex + 1) % s.plw.logLength }))) ∧
  (∀ s : State, s.plw.frameDue = false → exec .holdQueueRetry s = .next s) ∧
  (∀ s : State, s.plw.frameDue = true → s.smp.inForce = false →
    exec .holdQueueRetry s = .next { s with plw := { s.plw with frameDue := false } }) ∧
  (∀ s : State, s.plw.frameDue = true → s.smp.inForce = true → s.plw.hold = [] ∨ ¬LogHasRoom s →
    ∃ t, exec .holdQueueRetry s = .next t ∧
      t.plw = { s.plw with frameDue := false, badIndex := badIndexAfter s } ∧ t.smp.events = eventsAfterIndex s ∧
      ChangesOnly [.events, .plw] s t) ∧
  ∀ (r : PlayRecord) (rest : List PlayRecord) (s : State), s.plw.frameDue = true → s.smp.inForce = true →
    s.plw.hold = r :: rest → LogHasRoom s → LogInside s →
    ∃ t u, exec .holdQueueRetry s = .next t ∧ exec .holdQueueRetry u = .next t ∧ LogWritten s u r ∧
      u.plw = { s.plw with hold := rest, badIndex := none,
                           writeIndex := (s.plw.writeIndex + 1) % s.plw.logLength }

/-! ## Clock channels, console lines and the horn (chapter 10) -/

/-- At a millisecond boundary every RUNNING channel makes one count, a TALLY at the expiry of its source alone; a count
that brings a channel to its end expires it, the expiries raise CLOCK_EXPIRY and start the horn pulse at the longest horn
length of those that have horn enable, and every channel then applies its request set. Each console line is then sampled:
its held count grows, starts, is cancelled, or qualifies the change at the qualify time; a change to active gathers the
line's request, TOGGLE by the channel as it then stands, and each expiry and each press of a line with an action reaches
the trigger entries (R155 to R157, R161, R165 to R167, R172). A RUNNING COUNT_DOWN channel that stands at 0 stays there,
and whether it expires is left open (log 7). As a command of its own CHANNEL_EXPIRY is the last count of a COUNT_DOWN or
COUNT_UP channel and the expiry it produces, handed on to its tallies; of a tally it is that of its source; it acts on no
other channel, nor on a COUNT_DOWN channel that a RESET loaded with 0 (log 9). -/
def Obligations.ChannelsCountAndExpire : Prop :=
  (∀ (levels : BitVec 8) (s : State), ∃ t, exec (.millisecondBoundary levels) s = .next t ∧
    t.ccu.levels = levels ∧ t.ccu.frameDue = s.ccu.frameDue ∧ ChangesOnly [.mem, .events, .ccu, .etu, .free] s t ∧
    (s.smp.inForce = false → t.mem = s.mem) ∧ (∀ a, ¬AnchorByte s 0x180 0x280 a → t.mem.get a = s.mem.get a) ∧
    (∀ n : Fin 8, t.ccu.lines[n] = s.ccu.lines[n].afterSample (sampledLevel levels s n)) ∧
    t.ccu.horn = (if hornOfExpired s t = 0 then s.ccu.horn - 1 else hornOfExpired s t) ∧
    t.smp.events = s.smp.events ||| (if ∃ c, Expired s t c then 0x040#10 else 0#10) ∧
    (s.etu.handling = false → ∀ e : Fin 8, entryAfterBoundary s t
      (fun n => Pressed levels s n ∧ s.ccu.lines[n].action ≠ .none) s.etu.entries[e] t.etu.entries[e]) ∧
    ∀ c : Fin 4,
      (let x := s.ccu.channels[c]
       let y := t.ccu.channels[c]
       let counts := x.state = .running ∧ (x.mode = .tally → Expired s t x.source)
       let z := { y with reqStart := false, reqStop := false, reqReset := false }
       let pressed := fun act : LineAction => ∃ n : Fin 8, Pressed levels s n ∧ s.ccu.lines[n].channel = c ∧
         s.ccu.lines[n].action = act
       (¬counts → z = x.afterRequests) ∧
       (counts → x.mode = .countDown → x.count = 0 → z = x.afterRequests ∨ z = x.afterCount.afterRequests) ∧
       (counts → (x.mode = .countDown → x.count ≠ 0) → z = x.afterCount.afterRequests) ∧
       (y.reqStart = true ↔ pressed .start ∨ (pressed .toggle ∧ y.state ≠ .running)) ∧
       (y.reqStop = true ↔ pressed .stop ∨ (pressed .toggle ∧ y.state = .running)) ∧
       (y.reqReset = true ↔ pressed .reset))) ∧
  (∀ (c : Fin 4) (s : State), ∃ t, exec (.channelExpiry c) s = .next t ∧
    (let x := s.ccu.channels[c]
     (¬x.lastCount → t = s) ∧ (x.mode = .tally → x.lastCount → exec (.channelExpiry x.source) s = .next t) ∧
     (x.mode = .tally → ¬s.ccu.channels[x.source].lastCount → t = s))) ∧
  ∀ (c : Fin 4) (s : State), s.ccu.channels[c].lastCount → s.ccu.channels[c].mode ≠ .tally →
    ∃ t, exec (.channelExpiry c) s = .next t ∧
      (∀ d : Fin 4,
        (let x := s.ccu.channels[d]
         let counts := d = c ∨ (x.mode = .tally ∧ x.state = .running ∧ Expired s t x.source)
         (counts → t.ccu.channels[d] = x.afterCount) ∧ (¬counts → t.ccu.channels[d] = x))) ∧
      Expired s t c ∧ t.ccu.horn = (if hornOfExpired s t = 0 then s.ccu.horn else hornOfExpired s t) ∧
      t.ccu.lines = s.ccu.lines ∧ t.ccu.levels = s.ccu.levels ∧ t.smp.events = s.smp.events ||| 0x040#10 ∧
      (s.etu.handling = false → ∀ e : Fin 8,
        entryAfterBoundary s t (fun _ => False) s.etu.entries[e] t.etu.entries[e]) ∧
      ChangesOnly [.mem, .events, .ccu, .etu] s t ∧
      ∀ a, ¬AnchorByte s 0x180 0x280 a → t.mem.get a = s.mem.get a

/-- A line whose held count has reached its qualify time takes the new level: to active it does its action once and hands
a console event unless the action is NONE, to inactive it clears its horn hold alone; and a horn pulse in its last
millisecond ends (R165 to R167; log 9). -/
def Obligations.ConsolePressActsOnce : Prop :=
  (∀ (n : Fin 8) (s : State), ∃ t, exec (.consoleQualified n) s = .next t ∧
    ((∀ level held, s.ccu.lines[n].qualifying = some (level, held) → held < s.ccu.lines[n].qualify) → t = s) ∧
    (∀ held, s.ccu.lines[n].qualifying = some (false, held) → s.ccu.lines[n].qualify ≤ held →
      t = { s with ccu := { s.ccu with lines := upd s.ccu.lines n fun l =>
        { l with qualified := false, qualifying := none, hornHold := false } } }) ∧
    ∀ held, s.ccu.lines[n].qualifying = some (true, held) → s.ccu.lines[n].qualify ≤ held →
      (let l := s.ccu.lines[n]
       t.ccu.lines = upd s.ccu.lines n (fun l =>
         { l with qualified := true, qualifying := none,
                  hornHold := l.hornHold || l.action == .horn }) ∧
       (∀ c : Fin 4, c ≠ l.channel → t.ccu.channels[c] = s.ccu.channels[c]) ∧
       (let x := s.ccu.channels[l.channel]
        t.ccu.channels[l.channel] = { x with
          reqStart := x.reqStart || l.action == .start || (l.action == .toggle && x.state != .running),
          reqStop := x.reqStop || l.action == .stop || (l.action == .toggle && x.state == .running),
          reqReset := x.reqReset || l.action == .reset }) ∧
       t.ccu.horn = s.ccu.horn ∧ t.ccu.levels = s.ccu.levels ∧ ChangesOnly [.mem, .ccu, .etu] s t ∧
       (l.action = .none → t.etu = s.etu ∧ t.mem = s.mem) ∧
       (l.action ≠ .none → s.etu.handling = false → s.smp.dev = .running → ∀ e : Fin 8,
         t.etu.entries[e] =
           if s.etu.entries[e].armed ∧ s.etu.entries[e].source = some (.consoleLine n) then
             { s.etu.entries[e] with pending := true, report :=
               { s.etu.entries[e].report with fires := s.etu.entries[e].report.fires + 1 } }
           else s.etu.entries[e]))) ∧
  ∀ s : State, ∃ t, exec .hornPulseEnd s = .next t ∧
    (s.ccu.horn = 1 → t = { s with ccu := { s.ccu with horn := 0 } } ∧ (hornLine t = true ↔ hornHeld s = true)) ∧
    (s.ccu.horn ≠ 1 → t = s)

/-- At each frame start at which an anchor is in force the CCU writes each channel's count, state and expiry count
into the clock snapshot, and nothing else; with none in force the write is omitted (R163, 12.3). That the row changes
nothing with no frame start waiting is the model's choice (log 8). -/
def Obligations.ClockSnapshotShowsChannels : Prop :=
  ∀ s : State, s.smp.anchor.toNat % 4096 = 0 → ∃ t, exec .clockSnapshot s = .next t ∧
    (s.ccu.frameDue = false → t = s) ∧
    (s.ccu.frameDue = true → t.ccu = { s.ccu with frameDue := false } ∧ ChangesOnly [.mem, .ccu] s t ∧
      (s.smp.inForce = false → t.mem = s.mem) ∧
      (s.smp.inForce = true →
        (∀ c : Fin 4,
          t.mem.word (s.smp.anchor.toNat + 0x140 + 12 * c.val) = BitVec.ofNat 32 s.ccu.channels[c].count ∧
          t.mem.word (s.smp.anchor.toNat + 0x144 + 12 * c.val) =
            (match s.ccu.channels[c].state with
             | .stopped => 0
             | .running => 1
             | .expired => 2) ∧
          t.mem.word (s.smp.anchor.toNat + 0x148 + 12 * c.val) = s.ccu.channels[c].expiries) ∧
        ∀ a, ¬AnchorByte s 0x140 0x170 a → t.mem.get a = s.mem.get a))

/-! ## Trigger firing (chapter 11) -/

/-- At a frame start in RUNNING each pending entry hands its action over, its report gets the frame, and it stays ARMED
only with REARM set; outside RUNNING each pending firing is dropped and counted as suppressed. What one pending entry
hands over is its stored PLAY_CLIP or POST_MESSAGE, taken as that command with the entry as origin, and its whole report
then stands in the anchor (R173, R175). That the row changes nothing with no frame start waiting is the model's choice
(log 8), and so is the inbox, empty after the handling, of the source events that the firing itself causes (log 16). -/
def Obligations.PendingTriggersFireOrDrop : Prop :=
  (∀ s : State, s.etu.frameDue = false → exec .etuFrameStart s = .next s) ∧
  (∀ s : State, s.etu.frameDue = true → s.smp.dev ≠ .running → ∃ t, exec .etuFrameStart s = .next t ∧
    (∀ e : Fin 8, t.etu.entries[e] =
      if s.etu.entries[e].pending then
        { s.etu.entries[e] with pending := false, report :=
          { s.etu.entries[e].report with suppressed := s.etu.entries[e].report.suppressed + 1 } }
      else s.etu.entries[e]) ∧
    t.etu.frameDue = false ∧ ChangesOnly [.mem, .etu] s t ∧ (s.smp.inForce = false → t.mem = s.mem) ∧
    (∀ a, ¬AnchorByte s 0x180 0x280 a → t.mem.get a = s.mem.get a) ∧
    (s.smp.inForce = true → s.smp.anchor.toNat % 4096 = 0 → ∀ e : Fin 8, s.etu.entries[e].pending = true →
      t.mem.word (s.smp.anchor.toNat + 0x184 + 32 * e.val) = t.etu.entries[e].report.suppressed)) ∧
  (∀ s : State, s.etu.frameDue = true → s.smp.dev = .running → ∃ t, exec .etuFrameStart s = .next t ∧
    t.etu.frameDue = false ∧ t.etu.handling = false ∧ t.etu.inbox = [] ∧
    (∀ e : Fin 8,
      t.etu.entries[e].armed =
        (if s.etu.entries[e].pending then s.etu.entries[e].armed && s.etu.entries[e].rearm
         else s.etu.entries[e].armed) ∧
      t.etu.entries[e].report.lastFire =
        (if s.etu.entries[e].pending then s.ftu.frame else s.etu.entries[e].report.lastFire) ∧
      t.etu.entries[e].source = s.etu.entries[e].source ∧ t.etu.entries[e].action = s.etu.entries[e].action) ∧
    ((∀ e : Fin 8, s.etu.entries[e].pending = false) → s.etu.inbox = [] →
      t.etu = { s.etu with frameDue := false, handling := false } ∧ ChangesOnly [.etu] s t) ∧
    ChangesOnly [.mem, .events, .zar, .cle, .msu, .etu] s t) ∧
  ∀ (e : Fin 8) (s : State), s.etu.frameDue = true → s.smp.dev = .running →
    (∀ x : Fin 8, s.etu.entries[x].pending = true ↔ x = e) →
    (let fired := { s with etu := { s.etu with
       frameDue := false, handling := true,
       entries := upd s.etu.entries e fun x =>
         { x with pending := false, report := { x.report with lastFire := s.ftu.frame } } } }
     ∀ (c : Instr) (u : State),
       (∃ p, s.etu.entries[e].action = some (.clip p) ∧ c = .playClip ⟨.trigger e, false⟩ p) ∨
       (∃ p, s.etu.entries[e].action = some (.message p) ∧ c = .postMessage ⟨.trigger e, false⟩ p) →
       exec c fired = .next u → u.etu.inbox = [] →
       ∃ t, exec .etuFrameStart s = .next t ∧
        t = { u with etu := { u.etu with
          handling := false, entries := upd u.etu.entries e fun x => { x with armed := x.armed && x.rearm } } } ∧
        (s.smp.inForce = true → s.smp.anchor.toNat % 4096 = 0 →
          (let a := s.smp.anchor.toNat + 0x180 + 32 * e.val
           let r := t.etu.entries[e].report
           t.mem.word a = r.fires ∧ t.mem.word (a + 4) = r.suppressed ∧ t.mem.word (a + 8) = s.ftu.frame ∧
           (t.mem.word (a + 12)).toNat = r.lastStatus.toNat ∧ (t.mem.word (a + 16)).toNat = r.lastRefused.toNat ∧
           t.mem.word (a + 20) = BitVec.ofNat 32 r.lastShown ∧ t.mem.word (a + 24) = BitVec.ofNat 32 r.lastLit)))

/-! ## The scoreboard's strings (5.7, 5.8) -/

/-- A SCORE box with d digits, 1 to 4, shows the sampled score word, as a signed value, as a string of exactly d places, case by case of R88: nines above
range, a minus sign and nines below it, and otherwise the decimal digits with the leading places zeros or blanks and the
minus sign where the rule puts it. A CLOCK box shows the sampled count by its format and the channel's mode: minutes and
seconds, seconds with tenths below one minute, seconds, or the count as a number, rounded up for COUNT_DOWN and down for
COUNT_UP, and the count of a TALLY channel under every format (R89, R90). -/
def Obligations.BoxStringsFollowRules : Prop :=
  (∀ (d : Nat) (pad : Bool) (v : BitVec 32), 1 ≤ d → d ≤ 4 →
    (let n := v.toInt
     let m := n.natAbs
     let text := scoreString d pad n
     text.length = d ∧
     (10 ^ d - 1 < n → ∀ i, i < d → text[i]? = some 0x39) ∧
     (n < -(10 ^ (d - 1) - 1) → text[0]? = some 0x2D ∧ ∀ i, 1 ≤ i → i < d → text[i]? = some 0x39) ∧
     (0 ≤ n → n ≤ 10 ^ d - 1 → ∀ i, i < d → text[i]? = some
       (if pad = false ∧ i + 1 < d ∧ m / 10 ^ (d - 1 - i) = 0 then 0x20 else 0x30 + m / 10 ^ (d - 1 - i) % 10)) ∧
     (n < 0 → -(10 ^ (d - 1) - 1) ≤ n →
       (pad = true → text[0]? = some 0x2D ∧
         ∀ i, 1 ≤ i → i < d → text[i]? = some (0x30 + m / 10 ^ (d - 1 - i) % 10)) ∧
       (pad = false → ∀ i, i < d → text[i]? = some
         (if m / 10 ^ (d - 1 - i) ≠ 0 then 0x30 + m / 10 ^ (d - 1 - i) % 10
          else if m / 10 ^ (d - 2 - i) ≠ 0 then 0x2D else 0x20))))) ∧
  (∀ (w : FrameWork) (b : FieldBox) (f : Fin 32) (d : Nat) (pad : Bool) (v : Word), b.source = .score f d pad →
    w.scores.lookup f = some v → boxString w b = scoreString d pad v.toInt) ∧
  (∀ (w : FrameWork) (b : FieldBox) (c : Fin 4) (format : ClockFormat) (k : ClockSample), b.source = .clock c format →
    (w.clocks.find? fun k => k.channel == c) = some k → boxString w b = clockString format k.mode k.count) ∧
  ∀ (format : ClockFormat) (mode : ClockMode) (count : Nat),
    (let inUnits := fun unit : Nat => if mode = .countDown then (count + (unit - 1)) / unit else count / unit
     let seconds := inUnits 1000
     let tenths := inUnits 100
     let number := fun n : Nat => (Nat.toDigits 10 n).map Char.toNat
     let minutes := if 35999 < seconds then [0x35, 0x39, 0x39, 0x3A, 0x35, 0x39]
       else number (seconds / 60) ++ [0x3A, 0x30 + seconds % 60 / 10, 0x30 + seconds % 60 % 10]
     let text := clockString format mode count
     (mode = .tally ∨ format = .tally → text = number count) ∧
     (mode ≠ .tally → format = .mmssTenths →
       text = if 600 ≤ tenths then minutes else number (tenths / 10) ++ [0x2E, 0x30 + tenths % 10]) ∧
     (mode ≠ .tally → format = .seconds → text = number seconds) ∧
     (mode ≠ .tally → format = .mmss → text = minutes))

/-! ## Invariants that every command keeps -/

/-- RUN, the device state, the anchor in force, the fault code, the anchor offset and the miss count stay consistent
through every command (R2, R3, R4, R6, R13). -/
def Obligations.EveryCommandKeepsDeviceConsistent : Prop := Invariant SmpConsistent

/-- Show memory keeps its canonical form through every command. The form, and with it that a byte nothing has written
reads as 0, is the model's own (log 1): the spec gives show memory (R1), not how it is held. -/
def Obligations.EveryCommandKeepsMemoryCanonical : Prop := Invariant fun s => s.mem.wf

/-- Every claim list keeps its form at every moment, in every device state: at most five non-group claims and one group
claim in non-decreasing order of level, no claimant twice, every level-0 claim a message's (R60, R64, R65, R72). -/
def Obligations.EveryCommandKeepsClaimListsFormed : Prop := Invariant ClaimListsFormed

/-- Every clock channel's count stays within zero and its ceiling, and the hold queue holds at most eight records (R146,
R154, R156). -/
def Obligations.EveryCommandKeepsCountsBounded : Prop := Invariant ClockCountsBounded ∧ Invariant HoldBounded

/-- For every rotation group whose SATURATED flag is clear, the balances of its 64 entries sum to zero, and every balance
stays within its range (R136). -/
def Obligations.EveryCommandKeepsBalancesSettled : Prop := Invariant BalancesSettled

/-- The delivered zone-frames of every group and entry stay the sum of the logged, the unlogged, the held and the
running ones (R153). The counts are of 64 bits; that they wrap is the model's choice (log 18). -/
def Obligations.EveryCommandConservesDelivered : Prop := Invariant DeliveredConserved

/-- The state after a power-on reset meets every invariant, and shows nothing pending (R18). -/
def Obligations.ResetMeetsEveryInvariant : Prop :=
  SmpConsistent State.reset ∧ State.reset.mem.wf ∧ ClaimListsFormed State.reset ∧ ClockCountsBounded State.reset ∧
    HoldBounded State.reset ∧ BalancesSettled State.reset ∧ DeliveredConserved State.reset ∧
    State.reset.pending = [] ∧ interruptLine State.reset = false

/-- While no anchor is in force, no command but the anchor check that puts one in force writes a byte of show memory
(R6). That POWER_ON_RESET keeps show memory is the model's choice (log 21), not R6. -/
def Obligations.PartWritesOnlyUnderAnchor : Prop :=
  ∀ (i : Instr) (s : State), s.smp.inForce = false → (∀ now, i ≠ .anchorCheck now) →
    ∃ t, exec i s = .next t ∧ t.mem = s.mem
end

