-- ==== Sys2Proof/Laws/State.lean ====
section
/-! SUPPORT. One lemma per field per update of the state, each true by `rfl`, so that no later proof unfolds a record
update. -/

namespace Sys2Proof.Machine

variable (s : State)

/-! ## Updates of one block -/

@[simp] theorem State.onSmp_pending (f : Smp → Smp) : (s.onSmp f).pending = s.pending := rfl
@[simp] theorem State.onSmp_mem (f : Smp → Smp) : (s.onSmp f).mem = s.mem := rfl
@[simp] theorem State.onSmp_smp (f : Smp → Smp) : (s.onSmp f).smp = f s.smp := rfl
@[simp] theorem State.onSmp_ftu (f : Smp → Smp) : (s.onSmp f).ftu = s.ftu := rfl
@[simp] theorem State.onSmp_ciu (f : Smp → Smp) : (s.onSmp f).ciu = s.ciu := rfl
@[simp] theorem State.onSmp_zar (f : Smp → Smp) : (s.onSmp f).zar = s.zar := rfl
@[simp] theorem State.onSmp_clo (f : Smp → Smp) : (s.onSmp f).clo = s.clo := rfl
@[simp] theorem State.onSmp_cle (f : Smp → Smp) : (s.onSmp f).cle = s.cle := rfl
@[simp] theorem State.onSmp_msu (f : Smp → Smp) : (s.onSmp f).msu = s.msu := rfl
@[simp] theorem State.onSmp_sru (f : Smp → Smp) : (s.onSmp f).sru = s.sru := rfl
@[simp] theorem State.onSmp_plw (f : Smp → Smp) : (s.onSmp f).plw = s.plw := rfl
@[simp] theorem State.onSmp_ccu (f : Smp → Smp) : (s.onSmp f).ccu = s.ccu := rfl
@[simp] theorem State.onSmp_etu (f : Smp → Smp) : (s.onSmp f).etu = s.etu := rfl
@[simp] theorem State.onSmp_free (f : Smp → Smp) : (s.onSmp f).free = s.free := rfl

@[simp] theorem State.onFtu_pending (f : Ftu → Ftu) : (s.onFtu f).pending = s.pending := rfl
@[simp] theorem State.onFtu_mem (f : Ftu → Ftu) : (s.onFtu f).mem = s.mem := rfl
@[simp] theorem State.onFtu_smp (f : Ftu → Ftu) : (s.onFtu f).smp = s.smp := rfl
@[simp] theorem State.onFtu_ftu (f : Ftu → Ftu) : (s.onFtu f).ftu = f s.ftu := rfl
@[simp] theorem State.onFtu_ciu (f : Ftu → Ftu) : (s.onFtu f).ciu = s.ciu := rfl
@[simp] theorem State.onFtu_zar (f : Ftu → Ftu) : (s.onFtu f).zar = s.zar := rfl
@[simp] theorem State.onFtu_clo (f : Ftu → Ftu) : (s.onFtu f).clo = s.clo := rfl
@[simp] theorem State.onFtu_cle (f : Ftu → Ftu) : (s.onFtu f).cle = s.cle := rfl
@[simp] theorem State.onFtu_msu (f : Ftu → Ftu) : (s.onFtu f).msu = s.msu := rfl
@[simp] theorem State.onFtu_sru (f : Ftu → Ftu) : (s.onFtu f).sru = s.sru := rfl
@[simp] theorem State.onFtu_plw (f : Ftu → Ftu) : (s.onFtu f).plw = s.plw := rfl
@[simp] theorem State.onFtu_ccu (f : Ftu → Ftu) : (s.onFtu f).ccu = s.ccu := rfl
@[simp] theorem State.onFtu_etu (f : Ftu → Ftu) : (s.onFtu f).etu = s.etu := rfl
@[simp] theorem State.onFtu_free (f : Ftu → Ftu) : (s.onFtu f).free = s.free := rfl

@[simp] theorem State.onCiu_pending (f : Ciu → Ciu) : (s.onCiu f).pending = s.pending := rfl
@[simp] theorem State.onCiu_mem (f : Ciu → Ciu) : (s.onCiu f).mem = s.mem := rfl
@[simp] theorem State.onCiu_smp (f : Ciu → Ciu) : (s.onCiu f).smp = s.smp := rfl
@[simp] theorem State.onCiu_ftu (f : Ciu → Ciu) : (s.onCiu f).ftu = s.ftu := rfl
@[simp] theorem State.onCiu_ciu (f : Ciu → Ciu) : (s.onCiu f).ciu = f s.ciu := rfl
@[simp] theorem State.onCiu_zar (f : Ciu → Ciu) : (s.onCiu f).zar = s.zar := rfl
@[simp] theorem State.onCiu_clo (f : Ciu → Ciu) : (s.onCiu f).clo = s.clo := rfl
@[simp] theorem State.onCiu_cle (f : Ciu → Ciu) : (s.onCiu f).cle = s.cle := rfl
@[simp] theorem State.onCiu_msu (f : Ciu → Ciu) : (s.onCiu f).msu = s.msu := rfl
@[simp] theorem State.onCiu_sru (f : Ciu → Ciu) : (s.onCiu f).sru = s.sru := rfl
@[simp] theorem State.onCiu_plw (f : Ciu → Ciu) : (s.onCiu f).plw = s.plw := rfl
@[simp] theorem State.onCiu_ccu (f : Ciu → Ciu) : (s.onCiu f).ccu = s.ccu := rfl
@[simp] theorem State.onCiu_etu (f : Ciu → Ciu) : (s.onCiu f).etu = s.etu := rfl
@[simp] theorem State.onCiu_free (f : Ciu → Ciu) : (s.onCiu f).free = s.free := rfl

@[simp] theorem State.onZar_pending (f : Zar → Zar) : (s.onZar f).pending = s.pending := rfl
@[simp] theorem State.onZar_mem (f : Zar → Zar) : (s.onZar f).mem = s.mem := rfl
@[simp] theorem State.onZar_smp (f : Zar → Zar) : (s.onZar f).smp = s.smp := rfl
@[simp] theorem State.onZar_ftu (f : Zar → Zar) : (s.onZar f).ftu = s.ftu := rfl
@[simp] theorem State.onZar_ciu (f : Zar → Zar) : (s.onZar f).ciu = s.ciu := rfl
@[simp] theorem State.onZar_zar (f : Zar → Zar) : (s.onZar f).zar = f s.zar := rfl
@[simp] theorem State.onZar_clo (f : Zar → Zar) : (s.onZar f).clo = s.clo := rfl
@[simp] theorem State.onZar_cle (f : Zar → Zar) : (s.onZar f).cle = s.cle := rfl
@[simp] theorem State.onZar_msu (f : Zar → Zar) : (s.onZar f).msu = s.msu := rfl
@[simp] theorem State.onZar_sru (f : Zar → Zar) : (s.onZar f).sru = s.sru := rfl
@[simp] theorem State.onZar_plw (f : Zar → Zar) : (s.onZar f).plw = s.plw := rfl
@[simp] theorem State.onZar_ccu (f : Zar → Zar) : (s.onZar f).ccu = s.ccu := rfl
@[simp] theorem State.onZar_etu (f : Zar → Zar) : (s.onZar f).etu = s.etu := rfl
@[simp] theorem State.onZar_free (f : Zar → Zar) : (s.onZar f).free = s.free := rfl

@[simp] theorem State.onClo_pending (f : Clo → Clo) : (s.onClo f).pending = s.pending := rfl
@[simp] theorem State.onClo_mem (f : Clo → Clo) : (s.onClo f).mem = s.mem := rfl
@[simp] theorem State.onClo_smp (f : Clo → Clo) : (s.onClo f).smp = s.smp := rfl
@[simp] theorem State.onClo_ftu (f : Clo → Clo) : (s.onClo f).ftu = s.ftu := rfl
@[simp] theorem State.onClo_ciu (f : Clo → Clo) : (s.onClo f).ciu = s.ciu := rfl
@[simp] theorem State.onClo_zar (f : Clo → Clo) : (s.onClo f).zar = s.zar := rfl
@[simp] theorem State.onClo_clo (f : Clo → Clo) : (s.onClo f).clo = f s.clo := rfl
@[simp] theorem State.onClo_cle (f : Clo → Clo) : (s.onClo f).cle = s.cle := rfl
@[simp] theorem State.onClo_msu (f : Clo → Clo) : (s.onClo f).msu = s.msu := rfl
@[simp] theorem State.onClo_sru (f : Clo → Clo) : (s.onClo f).sru = s.sru := rfl
@[simp] theorem State.onClo_plw (f : Clo → Clo) : (s.onClo f).plw = s.plw := rfl
@[simp] theorem State.onClo_ccu (f : Clo → Clo) : (s.onClo f).ccu = s.ccu := rfl
@[simp] theorem State.onClo_etu (f : Clo → Clo) : (s.onClo f).etu = s.etu := rfl
@[simp] theorem State.onClo_free (f : Clo → Clo) : (s.onClo f).free = s.free := rfl

@[simp] theorem State.onCle_pending (f : Cle → Cle) : (s.onCle f).pending = s.pending := rfl
@[simp] theorem State.onCle_mem (f : Cle → Cle) : (s.onCle f).mem = s.mem := rfl
@[simp] theorem State.onCle_smp (f : Cle → Cle) : (s.onCle f).smp = s.smp := rfl
@[simp] theorem State.onCle_ftu (f : Cle → Cle) : (s.onCle f).ftu = s.ftu := rfl
@[simp] theorem State.onCle_ciu (f : Cle → Cle) : (s.onCle f).ciu = s.ciu := rfl
@[simp] theorem State.onCle_zar (f : Cle → Cle) : (s.onCle f).zar = s.zar := rfl
@[simp] theorem State.onCle_clo (f : Cle → Cle) : (s.onCle f).clo = s.clo := rfl
@[simp] theorem State.onCle_cle (f : Cle → Cle) : (s.onCle f).cle = f s.cle := rfl
@[simp] theorem State.onCle_msu (f : Cle → Cle) : (s.onCle f).msu = s.msu := rfl
@[simp] theorem State.onCle_sru (f : Cle → Cle) : (s.onCle f).sru = s.sru := rfl
@[simp] theorem State.onCle_plw (f : Cle → Cle) : (s.onCle f).plw = s.plw := rfl
@[simp] theorem State.onCle_ccu (f : Cle → Cle) : (s.onCle f).ccu = s.ccu := rfl
@[simp] theorem State.onCle_etu (f : Cle → Cle) : (s.onCle f).etu = s.etu := rfl
@[simp] theorem State.onCle_free (f : Cle → Cle) : (s.onCle f).free = s.free := rfl

@[simp] theorem State.onMsu_pending (f : Msu → Msu) : (s.onMsu f).pending = s.pending := rfl
@[simp] theorem State.onMsu_mem (f : Msu → Msu) : (s.onMsu f).mem = s.mem := rfl
@[simp] theorem State.onMsu_smp (f : Msu → Msu) : (s.onMsu f).smp = s.smp := rfl
@[simp] theorem State.onMsu_ftu (f : Msu → Msu) : (s.onMsu f).ftu = s.ftu := rfl
@[simp] theorem State.onMsu_ciu (f : Msu → Msu) : (s.onMsu f).ciu = s.ciu := rfl
@[simp] theorem State.onMsu_zar (f : Msu → Msu) : (s.onMsu f).zar = s.zar := rfl
@[simp] theorem State.onMsu_clo (f : Msu → Msu) : (s.onMsu f).clo = s.clo := rfl
@[simp] theorem State.onMsu_cle (f : Msu → Msu) : (s.onMsu f).cle = s.cle := rfl
@[simp] theorem State.onMsu_msu (f : Msu → Msu) : (s.onMsu f).msu = f s.msu := rfl
@[simp] theorem State.onMsu_sru (f : Msu → Msu) : (s.onMsu f).sru = s.sru := rfl
@[simp] theorem State.onMsu_plw (f : Msu → Msu) : (s.onMsu f).plw = s.plw := rfl
@[simp] theorem State.onMsu_ccu (f : Msu → Msu) : (s.onMsu f).ccu = s.ccu := rfl
@[simp] theorem State.onMsu_etu (f : Msu → Msu) : (s.onMsu f).etu = s.etu := rfl
@[simp] theorem State.onMsu_free (f : Msu → Msu) : (s.onMsu f).free = s.free := rfl

@[simp] theorem State.onSru_pending (f : Sru → Sru) : (s.onSru f).pending = s.pending := rfl
@[simp] theorem State.onSru_mem (f : Sru → Sru) : (s.onSru f).mem = s.mem := rfl
@[simp] theorem State.onSru_smp (f : Sru → Sru) : (s.onSru f).smp = s.smp := rfl
@[simp] theorem State.onSru_ftu (f : Sru → Sru) : (s.onSru f).ftu = s.ftu := rfl
@[simp] theorem State.onSru_ciu (f : Sru → Sru) : (s.onSru f).ciu = s.ciu := rfl
@[simp] theorem State.onSru_zar (f : Sru → Sru) : (s.onSru f).zar = s.zar := rfl
@[simp] theorem State.onSru_clo (f : Sru → Sru) : (s.onSru f).clo = s.clo := rfl
@[simp] theorem State.onSru_cle (f : Sru → Sru) : (s.onSru f).cle = s.cle := rfl
@[simp] theorem State.onSru_msu (f : Sru → Sru) : (s.onSru f).msu = s.msu := rfl
@[simp] theorem State.onSru_sru (f : Sru → Sru) : (s.onSru f).sru = f s.sru := rfl
@[simp] theorem State.onSru_plw (f : Sru → Sru) : (s.onSru f).plw = s.plw := rfl
@[simp] theorem State.onSru_ccu (f : Sru → Sru) : (s.onSru f).ccu = s.ccu := rfl
@[simp] theorem State.onSru_etu (f : Sru → Sru) : (s.onSru f).etu = s.etu := rfl
@[simp] theorem State.onSru_free (f : Sru → Sru) : (s.onSru f).free = s.free := rfl

@[simp] theorem State.onPlw_pending (f : Plw → Plw) : (s.onPlw f).pending = s.pending := rfl
@[simp] theorem State.onPlw_mem (f : Plw → Plw) : (s.onPlw f).mem = s.mem := rfl
@[simp] theorem State.onPlw_smp (f : Plw → Plw) : (s.onPlw f).smp = s.smp := rfl
@[simp] theorem State.onPlw_ftu (f : Plw → Plw) : (s.onPlw f).ftu = s.ftu := rfl
@[simp] theorem State.onPlw_ciu (f : Plw → Plw) : (s.onPlw f).ciu = s.ciu := rfl
@[simp] theorem State.onPlw_zar (f : Plw → Plw) : (s.onPlw f).zar = s.zar := rfl
@[simp] theorem State.onPlw_clo (f : Plw → Plw) : (s.onPlw f).clo = s.clo := rfl
@[simp] theorem State.onPlw_cle (f : Plw → Plw) : (s.onPlw f).cle = s.cle := rfl
@[simp] theorem State.onPlw_msu (f : Plw → Plw) : (s.onPlw f).msu = s.msu := rfl
@[simp] theorem State.onPlw_sru (f : Plw → Plw) : (s.onPlw f).sru = s.sru := rfl
@[simp] theorem State.onPlw_plw (f : Plw → Plw) : (s.onPlw f).plw = f s.plw := rfl
@[simp] theorem State.onPlw_ccu (f : Plw → Plw) : (s.onPlw f).ccu = s.ccu := rfl
@[simp] theorem State.onPlw_etu (f : Plw → Plw) : (s.onPlw f).etu = s.etu := rfl
@[simp] theorem State.onPlw_free (f : Plw → Plw) : (s.onPlw f).free = s.free := rfl

@[simp] theorem State.onCcu_pending (f : Ccu → Ccu) : (s.onCcu f).pending = s.pending := rfl
@[simp] theorem State.onCcu_mem (f : Ccu → Ccu) : (s.onCcu f).mem = s.mem := rfl
@[simp] theorem State.onCcu_smp (f : Ccu → Ccu) : (s.onCcu f).smp = s.smp := rfl
@[simp] theorem State.onCcu_ftu (f : Ccu → Ccu) : (s.onCcu f).ftu = s.ftu := rfl
@[simp] theorem State.onCcu_ciu (f : Ccu → Ccu) : (s.onCcu f).ciu = s.ciu := rfl
@[simp] theorem State.onCcu_zar (f : Ccu → Ccu) : (s.onCcu f).zar = s.zar := rfl
@[simp] theorem State.onCcu_clo (f : Ccu → Ccu) : (s.onCcu f).clo = s.clo := rfl
@[simp] theorem State.onCcu_cle (f : Ccu → Ccu) : (s.onCcu f).cle = s.cle := rfl
@[simp] theorem State.onCcu_msu (f : Ccu → Ccu) : (s.onCcu f).msu = s.msu := rfl
@[simp] theorem State.onCcu_sru (f : Ccu → Ccu) : (s.onCcu f).sru = s.sru := rfl
@[simp] theorem State.onCcu_plw (f : Ccu → Ccu) : (s.onCcu f).plw = s.plw := rfl
@[simp] theorem State.onCcu_ccu (f : Ccu → Ccu) : (s.onCcu f).ccu = f s.ccu := rfl
@[simp] theorem State.onCcu_etu (f : Ccu → Ccu) : (s.onCcu f).etu = s.etu := rfl
@[simp] theorem State.onCcu_free (f : Ccu → Ccu) : (s.onCcu f).free = s.free := rfl

@[simp] theorem State.onEtu_pending (f : Etu → Etu) : (s.onEtu f).pending = s.pending := rfl
@[simp] theorem State.onEtu_mem (f : Etu → Etu) : (s.onEtu f).mem = s.mem := rfl
@[simp] theorem State.onEtu_smp (f : Etu → Etu) : (s.onEtu f).smp = s.smp := rfl
@[simp] theorem State.onEtu_ftu (f : Etu → Etu) : (s.onEtu f).ftu = s.ftu := rfl
@[simp] theorem State.onEtu_ciu (f : Etu → Etu) : (s.onEtu f).ciu = s.ciu := rfl
@[simp] theorem State.onEtu_zar (f : Etu → Etu) : (s.onEtu f).zar = s.zar := rfl
@[simp] theorem State.onEtu_clo (f : Etu → Etu) : (s.onEtu f).clo = s.clo := rfl
@[simp] theorem State.onEtu_cle (f : Etu → Etu) : (s.onEtu f).cle = s.cle := rfl
@[simp] theorem State.onEtu_msu (f : Etu → Etu) : (s.onEtu f).msu = s.msu := rfl
@[simp] theorem State.onEtu_sru (f : Etu → Etu) : (s.onEtu f).sru = s.sru := rfl
@[simp] theorem State.onEtu_plw (f : Etu → Etu) : (s.onEtu f).plw = s.plw := rfl
@[simp] theorem State.onEtu_ccu (f : Etu → Etu) : (s.onEtu f).ccu = s.ccu := rfl
@[simp] theorem State.onEtu_etu (f : Etu → Etu) : (s.onEtu f).etu = f s.etu := rfl
@[simp] theorem State.onEtu_free (f : Etu → Etu) : (s.onEtu f).free = s.free := rfl

@[simp] theorem State.withPending_pending (q : List Instr) : (s.withPending q).pending = q := rfl
@[simp] theorem State.withPending_mem (q : List Instr) : (s.withPending q).mem = s.mem := rfl
@[simp] theorem State.withPending_smp (q : List Instr) : (s.withPending q).smp = s.smp := rfl
@[simp] theorem State.withPending_ftu (q : List Instr) : (s.withPending q).ftu = s.ftu := rfl
@[simp] theorem State.withPending_ciu (q : List Instr) : (s.withPending q).ciu = s.ciu := rfl
@[simp] theorem State.withPending_zar (q : List Instr) : (s.withPending q).zar = s.zar := rfl
@[simp] theorem State.withPending_clo (q : List Instr) : (s.withPending q).clo = s.clo := rfl
@[simp] theorem State.withPending_cle (q : List Instr) : (s.withPending q).cle = s.cle := rfl
@[simp] theorem State.withPending_msu (q : List Instr) : (s.withPending q).msu = s.msu := rfl
@[simp] theorem State.withPending_sru (q : List Instr) : (s.withPending q).sru = s.sru := rfl
@[simp] theorem State.withPending_plw (q : List Instr) : (s.withPending q).plw = s.plw := rfl
@[simp] theorem State.withPending_ccu (q : List Instr) : (s.withPending q).ccu = s.ccu := rfl
@[simp] theorem State.withPending_etu (q : List Instr) : (s.withPending q).etu = s.etu := rfl
@[simp] theorem State.withPending_free (q : List Instr) : (s.withPending q).free = s.free := rfl

@[simp] theorem State.withMem_pending (m : Memory) : (s.withMem m).pending = s.pending := rfl
@[simp] theorem State.withMem_mem (m : Memory) : (s.withMem m).mem = m := rfl
@[simp] theorem State.withMem_smp (m : Memory) : (s.withMem m).smp = s.smp := rfl
@[simp] theorem State.withMem_ftu (m : Memory) : (s.withMem m).ftu = s.ftu := rfl
@[simp] theorem State.withMem_ciu (m : Memory) : (s.withMem m).ciu = s.ciu := rfl
@[simp] theorem State.withMem_zar (m : Memory) : (s.withMem m).zar = s.zar := rfl
@[simp] theorem State.withMem_clo (m : Memory) : (s.withMem m).clo = s.clo := rfl
@[simp] theorem State.withMem_cle (m : Memory) : (s.withMem m).cle = s.cle := rfl
@[simp] theorem State.withMem_msu (m : Memory) : (s.withMem m).msu = s.msu := rfl
@[simp] theorem State.withMem_sru (m : Memory) : (s.withMem m).sru = s.sru := rfl
@[simp] theorem State.withMem_plw (m : Memory) : (s.withMem m).plw = s.plw := rfl
@[simp] theorem State.withMem_ccu (m : Memory) : (s.withMem m).ccu = s.ccu := rfl
@[simp] theorem State.withMem_etu (m : Memory) : (s.withMem m).etu = s.etu := rfl
@[simp] theorem State.withMem_free (m : Memory) : (s.withMem m).free = s.free := rfl

@[simp] theorem State.nextFree_pending : s.nextFree.pending = s.pending := rfl
@[simp] theorem State.nextFree_mem : s.nextFree.mem = s.mem := rfl
@[simp] theorem State.nextFree_smp : s.nextFree.smp = s.smp := rfl
@[simp] theorem State.nextFree_ftu : s.nextFree.ftu = s.ftu := rfl
@[simp] theorem State.nextFree_ciu : s.nextFree.ciu = s.ciu := rfl
@[simp] theorem State.nextFree_zar : s.nextFree.zar = s.zar := rfl
@[simp] theorem State.nextFree_clo : s.nextFree.clo = s.clo := rfl
@[simp] theorem State.nextFree_cle : s.nextFree.cle = s.cle := rfl
@[simp] theorem State.nextFree_msu : s.nextFree.msu = s.msu := rfl
@[simp] theorem State.nextFree_sru : s.nextFree.sru = s.sru := rfl
@[simp] theorem State.nextFree_plw : s.nextFree.plw = s.plw := rfl
@[simp] theorem State.nextFree_ccu : s.nextFree.ccu = s.ccu := rfl
@[simp] theorem State.nextFree_etu : s.nextFree.etu = s.etu := rfl
@[simp] theorem State.nextFree_free : s.nextFree.free = s.free + 1 := rfl

/-! ## Updates of one member of a block -/

@[simp] theorem onClip_pending (k : Fin 8) (f : ClipSlot → ClipSlot) : (onClip k f s).pending = s.pending := rfl
@[simp] theorem onClip_mem (k : Fin 8) (f : ClipSlot → ClipSlot) : (onClip k f s).mem = s.mem := rfl
@[simp] theorem onClip_smp (k : Fin 8) (f : ClipSlot → ClipSlot) : (onClip k f s).smp = s.smp := rfl
@[simp] theorem onClip_ftu (k : Fin 8) (f : ClipSlot → ClipSlot) : (onClip k f s).ftu = s.ftu := rfl
@[simp] theorem onClip_ciu (k : Fin 8) (f : ClipSlot → ClipSlot) : (onClip k f s).ciu = s.ciu := rfl
@[simp] theorem onClip_zar (k : Fin 8) (f : ClipSlot → ClipSlot) : (onClip k f s).zar = s.zar := rfl
@[simp] theorem onClip_clo (k : Fin 8) (f : ClipSlot → ClipSlot) : (onClip k f s).clo = s.clo := rfl
@[simp] theorem onClip_cle (k : Fin 8) (f : ClipSlot → ClipSlot) : (onClip k f s).cle = { s.cle with slots := upd s.cle.slots k f } := rfl
@[simp] theorem onClip_msu (k : Fin 8) (f : ClipSlot → ClipSlot) : (onClip k f s).msu = s.msu := rfl
@[simp] theorem onClip_sru (k : Fin 8) (f : ClipSlot → ClipSlot) : (onClip k f s).sru = s.sru := rfl
@[simp] theorem onClip_plw (k : Fin 8) (f : ClipSlot → ClipSlot) : (onClip k f s).plw = s.plw := rfl
@[simp] theorem onClip_ccu (k : Fin 8) (f : ClipSlot → ClipSlot) : (onClip k f s).ccu = s.ccu := rfl
@[simp] theorem onClip_etu (k : Fin 8) (f : ClipSlot → ClipSlot) : (onClip k f s).etu = s.etu := rfl
@[simp] theorem onClip_free (k : Fin 8) (f : ClipSlot → ClipSlot) : (onClip k f s).free = s.free := rfl

@[simp] theorem onMessage_pending (k : Fin 8) (f : MessageSlot → MessageSlot) : (onMessage k f s).pending = s.pending := rfl
@[simp] theorem onMessage_mem (k : Fin 8) (f : MessageSlot → MessageSlot) : (onMessage k f s).mem = s.mem := rfl
@[simp] theorem onMessage_smp (k : Fin 8) (f : MessageSlot → MessageSlot) : (onMessage k f s).smp = s.smp := rfl
@[simp] theorem onMessage_ftu (k : Fin 8) (f : MessageSlot → MessageSlot) : (onMessage k f s).ftu = s.ftu := rfl
@[simp] theorem onMessage_ciu (k : Fin 8) (f : MessageSlot → MessageSlot) : (onMessage k f s).ciu = s.ciu := rfl
@[simp] theorem onMessage_zar (k : Fin 8) (f : MessageSlot → MessageSlot) : (onMessage k f s).zar = s.zar := rfl
@[simp] theorem onMessage_clo (k : Fin 8) (f : MessageSlot → MessageSlot) : (onMessage k f s).clo = s.clo := rfl
@[simp] theorem onMessage_cle (k : Fin 8) (f : MessageSlot → MessageSlot) : (onMessage k f s).cle = s.cle := rfl
@[simp] theorem onMessage_msu (k : Fin 8) (f : MessageSlot → MessageSlot) : (onMessage k f s).msu = { s.msu with slots := upd s.msu.slots k f } := rfl
@[simp] theorem onMessage_sru (k : Fin 8) (f : MessageSlot → MessageSlot) : (onMessage k f s).sru = s.sru := rfl
@[simp] theorem onMessage_plw (k : Fin 8) (f : MessageSlot → MessageSlot) : (onMessage k f s).plw = s.plw := rfl
@[simp] theorem onMessage_ccu (k : Fin 8) (f : MessageSlot → MessageSlot) : (onMessage k f s).ccu = s.ccu := rfl
@[simp] theorem onMessage_etu (k : Fin 8) (f : MessageSlot → MessageSlot) : (onMessage k f s).etu = s.etu := rfl
@[simp] theorem onMessage_free (k : Fin 8) (f : MessageSlot → MessageSlot) : (onMessage k f s).free = s.free := rfl

@[simp] theorem onGroup_pending (g : Fin 8) (f : RotationGroup → RotationGroup) : (onGroup g f s).pending = s.pending := rfl
@[simp] theorem onGroup_mem (g : Fin 8) (f : RotationGroup → RotationGroup) : (onGroup g f s).mem = s.mem := rfl
@[simp] theorem onGroup_smp (g : Fin 8) (f : RotationGroup → RotationGroup) : (onGroup g f s).smp = s.smp := rfl
@[simp] theorem onGroup_ftu (g : Fin 8) (f : RotationGroup → RotationGroup) : (onGroup g f s).ftu = s.ftu := rfl
@[simp] theorem onGroup_ciu (g : Fin 8) (f : RotationGroup → RotationGroup) : (onGroup g f s).ciu = s.ciu := rfl
@[simp] theorem onGroup_zar (g : Fin 8) (f : RotationGroup → RotationGroup) : (onGroup g f s).zar = s.zar := rfl
@[simp] theorem onGroup_clo (g : Fin 8) (f : RotationGroup → RotationGroup) : (onGroup g f s).clo = s.clo := rfl
@[simp] theorem onGroup_cle (g : Fin 8) (f : RotationGroup → RotationGroup) : (onGroup g f s).cle = s.cle := rfl
@[simp] theorem onGroup_msu (g : Fin 8) (f : RotationGroup → RotationGroup) : (onGroup g f s).msu = s.msu := rfl
@[simp] theorem onGroup_sru (g : Fin 8) (f : RotationGroup → RotationGroup) : (onGroup g f s).sru = { s.sru with groups := upd s.sru.groups g f } := rfl
@[simp] theorem onGroup_plw (g : Fin 8) (f : RotationGroup → RotationGroup) : (onGroup g f s).plw = s.plw := rfl
@[simp] theorem onGroup_ccu (g : Fin 8) (f : RotationGroup → RotationGroup) : (onGroup g f s).ccu = s.ccu := rfl
@[simp] theorem onGroup_etu (g : Fin 8) (f : RotationGroup → RotationGroup) : (onGroup g f s).etu = s.etu := rfl
@[simp] theorem onGroup_free (g : Fin 8) (f : RotationGroup → RotationGroup) : (onGroup g f s).free = s.free := rfl

@[simp] theorem onChannel_pending (c : Fin 4) (f : Channel → Channel) : (onChannel c f s).pending = s.pending := rfl
@[simp] theorem onChannel_mem (c : Fin 4) (f : Channel → Channel) : (onChannel c f s).mem = s.mem := rfl
@[simp] theorem onChannel_smp (c : Fin 4) (f : Channel → Channel) : (onChannel c f s).smp = s.smp := rfl
@[simp] theorem onChannel_ftu (c : Fin 4) (f : Channel → Channel) : (onChannel c f s).ftu = s.ftu := rfl
@[simp] theorem onChannel_ciu (c : Fin 4) (f : Channel → Channel) : (onChannel c f s).ciu = s.ciu := rfl
@[simp] theorem onChannel_zar (c : Fin 4) (f : Channel → Channel) : (onChannel c f s).zar = s.zar := rfl
@[simp] theorem onChannel_clo (c : Fin 4) (f : Channel → Channel) : (onChannel c f s).clo = s.clo := rfl
@[simp] theorem onChannel_cle (c : Fin 4) (f : Channel → Channel) : (onChannel c f s).cle = s.cle := rfl
@[simp] theorem onChannel_msu (c : Fin 4) (f : Channel → Channel) : (onChannel c f s).msu = s.msu := rfl
@[simp] theorem onChannel_sru (c : Fin 4) (f : Channel → Channel) : (onChannel c f s).sru = s.sru := rfl
@[simp] theorem onChannel_plw (c : Fin 4) (f : Channel → Channel) : (onChannel c f s).plw = s.plw := rfl
@[simp] theorem onChannel_ccu (c : Fin 4) (f : Channel → Channel) : (onChannel c f s).ccu = { s.ccu with channels := upd s.ccu.channels c f } := rfl
@[simp] theorem onChannel_etu (c : Fin 4) (f : Channel → Channel) : (onChannel c f s).etu = s.etu := rfl
@[simp] theorem onChannel_free (c : Fin 4) (f : Channel → Channel) : (onChannel c f s).free = s.free := rfl

@[simp] theorem onLine_pending (n : Fin 8) (f : ConsoleLine → ConsoleLine) : (onLine n f s).pending = s.pending := rfl
@[simp] theorem onLine_mem (n : Fin 8) (f : ConsoleLine → ConsoleLine) : (onLine n f s).mem = s.mem := rfl
@[simp] theorem onLine_smp (n : Fin 8) (f : ConsoleLine → ConsoleLine) : (onLine n f s).smp = s.smp := rfl
@[simp] theorem onLine_ftu (n : Fin 8) (f : ConsoleLine → ConsoleLine) : (onLine n f s).ftu = s.ftu := rfl
@[simp] theorem onLine_ciu (n : Fin 8) (f : ConsoleLine → ConsoleLine) : (onLine n f s).ciu = s.ciu := rfl
@[simp] theorem onLine_zar (n : Fin 8) (f : ConsoleLine → ConsoleLine) : (onLine n f s).zar = s.zar := rfl
@[simp] theorem onLine_clo (n : Fin 8) (f : ConsoleLine → ConsoleLine) : (onLine n f s).clo = s.clo := rfl
@[simp] theorem onLine_cle (n : Fin 8) (f : ConsoleLine → ConsoleLine) : (onLine n f s).cle = s.cle := rfl
@[simp] theorem onLine_msu (n : Fin 8) (f : ConsoleLine → ConsoleLine) : (onLine n f s).msu = s.msu := rfl
@[simp] theorem onLine_sru (n : Fin 8) (f : ConsoleLine → ConsoleLine) : (onLine n f s).sru = s.sru := rfl
@[simp] theorem onLine_plw (n : Fin 8) (f : ConsoleLine → ConsoleLine) : (onLine n f s).plw = s.plw := rfl
@[simp] theorem onLine_ccu (n : Fin 8) (f : ConsoleLine → ConsoleLine) : (onLine n f s).ccu = { s.ccu with lines := upd s.ccu.lines n f } := rfl
@[simp] theorem onLine_etu (n : Fin 8) (f : ConsoleLine → ConsoleLine) : (onLine n f s).etu = s.etu := rfl
@[simp] theorem onLine_free (n : Fin 8) (f : ConsoleLine → ConsoleLine) : (onLine n f s).free = s.free := rfl

@[simp] theorem onTrigger_pending (e : Fin 8) (f : TriggerEntry → TriggerEntry) : (onTrigger e f s).pending = s.pending := rfl
@[simp] theorem onTrigger_mem (e : Fin 8) (f : TriggerEntry → TriggerEntry) : (onTrigger e f s).mem = s.mem := rfl
@[simp] theorem onTrigger_smp (e : Fin 8) (f : TriggerEntry → TriggerEntry) : (onTrigger e f s).smp = s.smp := rfl
@[simp] theorem onTrigger_ftu (e : Fin 8) (f : TriggerEntry → TriggerEntry) : (onTrigger e f s).ftu = s.ftu := rfl
@[simp] theorem onTrigger_ciu (e : Fin 8) (f : TriggerEntry → TriggerEntry) : (onTrigger e f s).ciu = s.ciu := rfl
@[simp] theorem onTrigger_zar (e : Fin 8) (f : TriggerEntry → TriggerEntry) : (onTrigger e f s).zar = s.zar := rfl
@[simp] theorem onTrigger_clo (e : Fin 8) (f : TriggerEntry → TriggerEntry) : (onTrigger e f s).clo = s.clo := rfl
@[simp] theorem onTrigger_cle (e : Fin 8) (f : TriggerEntry → TriggerEntry) : (onTrigger e f s).cle = s.cle := rfl
@[simp] theorem onTrigger_msu (e : Fin 8) (f : TriggerEntry → TriggerEntry) : (onTrigger e f s).msu = s.msu := rfl
@[simp] theorem onTrigger_sru (e : Fin 8) (f : TriggerEntry → TriggerEntry) : (onTrigger e f s).sru = s.sru := rfl
@[simp] theorem onTrigger_plw (e : Fin 8) (f : TriggerEntry → TriggerEntry) : (onTrigger e f s).plw = s.plw := rfl
@[simp] theorem onTrigger_ccu (e : Fin 8) (f : TriggerEntry → TriggerEntry) : (onTrigger e f s).ccu = s.ccu := rfl
@[simp] theorem onTrigger_etu (e : Fin 8) (f : TriggerEntry → TriggerEntry) : (onTrigger e f s).etu = { s.etu with entries := upd s.etu.entries e f } := rfl
@[simp] theorem onTrigger_free (e : Fin 8) (f : TriggerEntry → TriggerEntry) : (onTrigger e f s).free = s.free := rfl

@[simp] theorem onLink_pending (n : Fin 4) (f : PanelLink → PanelLink) : (onLink n f s).pending = s.pending := rfl
@[simp] theorem onLink_mem (n : Fin 4) (f : PanelLink → PanelLink) : (onLink n f s).mem = s.mem := rfl
@[simp] theorem onLink_smp (n : Fin 4) (f : PanelLink → PanelLink) : (onLink n f s).smp = s.smp := rfl
@[simp] theorem onLink_ftu (n : Fin 4) (f : PanelLink → PanelLink) : (onLink n f s).ftu = s.ftu := rfl
@[simp] theorem onLink_ciu (n : Fin 4) (f : PanelLink → PanelLink) : (onLink n f s).ciu = s.ciu := rfl
@[simp] theorem onLink_zar (n : Fin 4) (f : PanelLink → PanelLink) : (onLink n f s).zar = s.zar := rfl
@[simp] theorem onLink_clo (n : Fin 4) (f : PanelLink → PanelLink) : (onLink n f s).clo = { s.clo with links := upd s.clo.links n f } := rfl
@[simp] theorem onLink_cle (n : Fin 4) (f : PanelLink → PanelLink) : (onLink n f s).cle = s.cle := rfl
@[simp] theorem onLink_msu (n : Fin 4) (f : PanelLink → PanelLink) : (onLink n f s).msu = s.msu := rfl
@[simp] theorem onLink_sru (n : Fin 4) (f : PanelLink → PanelLink) : (onLink n f s).sru = s.sru := rfl
@[simp] theorem onLink_plw (n : Fin 4) (f : PanelLink → PanelLink) : (onLink n f s).plw = s.plw := rfl
@[simp] theorem onLink_ccu (n : Fin 4) (f : PanelLink → PanelLink) : (onLink n f s).ccu = s.ccu := rfl
@[simp] theorem onLink_etu (n : Fin 4) (f : PanelLink → PanelLink) : (onLink n f s).etu = s.etu := rfl
@[simp] theorem onLink_free (n : Fin 4) (f : PanelLink → PanelLink) : (onLink n f s).free = s.free := rfl

@[simp] theorem onAccount_pending (g : Fin 8) (i : Fin 64) (f : Account → Account) :
    (onAccount g i f s).pending = s.pending := rfl
@[simp] theorem onAccount_mem (g : Fin 8) (i : Fin 64) (f : Account → Account) :
    (onAccount g i f s).mem = s.mem := rfl
@[simp] theorem onAccount_smp (g : Fin 8) (i : Fin 64) (f : Account → Account) :
    (onAccount g i f s).smp = s.smp := rfl
@[simp] theorem onAccount_ftu (g : Fin 8) (i : Fin 64) (f : Account → Account) :
    (onAccount g i f s).ftu = s.ftu := rfl
@[simp] theorem onAccount_ciu (g : Fin 8) (i : Fin 64) (f : Account → Account) :
    (onAccount g i f s).ciu = s.ciu := rfl
@[simp] theorem onAccount_zar (g : Fin 8) (i : Fin 64) (f : Account → Account) :
    (onAccount g i f s).zar = s.zar := rfl
@[simp] theorem onAccount_clo (g : Fin 8) (i : Fin 64) (f : Account → Account) :
    (onAccount g i f s).clo = s.clo := rfl
@[simp] theorem onAccount_cle (g : Fin 8) (i : Fin 64) (f : Account → Account) :
    (onAccount g i f s).cle = s.cle := rfl
@[simp] theorem onAccount_msu (g : Fin 8) (i : Fin 64) (f : Account → Account) :
    (onAccount g i f s).msu = s.msu := rfl
@[simp] theorem onAccount_sru (g : Fin 8) (i : Fin 64) (f : Account → Account) :
    (onAccount g i f s).sru = { s.sru with accounts := upd s.sru.accounts g fun a => upd a i f } := rfl
@[simp] theorem onAccount_plw (g : Fin 8) (i : Fin 64) (f : Account → Account) :
    (onAccount g i f s).plw = s.plw := rfl
@[simp] theorem onAccount_ccu (g : Fin 8) (i : Fin 64) (f : Account → Account) :
    (onAccount g i f s).ccu = s.ccu := rfl
@[simp] theorem onAccount_etu (g : Fin 8) (i : Fin 64) (f : Account → Account) :
    (onAccount g i f s).etu = s.etu := rfl
@[simp] theorem onAccount_free (g : Fin 8) (i : Fin 64) (f : Account → Account) :
    (onAccount g i f s).free = s.free := rfl

/-! ## Raising an event and entering a device state -/

@[simp] theorem raise_pending (e : Event) : (raise e s).pending = s.pending := rfl
@[simp] theorem raise_mem (e : Event) : (raise e s).mem = s.mem := rfl
@[simp] theorem raise_smp (e : Event) : (raise e s).smp = { s.smp with events := s.smp.events ||| (1#10 <<< e.bit) } := rfl
@[simp] theorem raise_ftu (e : Event) : (raise e s).ftu = s.ftu := rfl
@[simp] theorem raise_ciu (e : Event) : (raise e s).ciu = s.ciu := rfl
@[simp] theorem raise_zar (e : Event) : (raise e s).zar = s.zar := rfl
@[simp] theorem raise_clo (e : Event) : (raise e s).clo = s.clo := rfl
@[simp] theorem raise_cle (e : Event) : (raise e s).cle = s.cle := rfl
@[simp] theorem raise_msu (e : Event) : (raise e s).msu = s.msu := rfl
@[simp] theorem raise_sru (e : Event) : (raise e s).sru = s.sru := rfl
@[simp] theorem raise_plw (e : Event) : (raise e s).plw = s.plw := rfl
@[simp] theorem raise_ccu (e : Event) : (raise e s).ccu = s.ccu := rfl
@[simp] theorem raise_etu (e : Event) : (raise e s).etu = s.etu := rfl
@[simp] theorem raise_free (e : Event) : (raise e s).free = s.free := rfl

/-! ## Writes of the part-written area change show memory alone -/

@[simp] theorem anchorWrite_pending (o : Nat) (ws : List Word) : (anchorWrite o ws s).pending = s.pending := by
  unfold anchorWrite; split <;> rfl
@[simp] theorem anchorWrite_smp (o : Nat) (ws : List Word) : (anchorWrite o ws s).smp = s.smp := by
  unfold anchorWrite; split <;> rfl
@[simp] theorem anchorWrite_ftu (o : Nat) (ws : List Word) : (anchorWrite o ws s).ftu = s.ftu := by
  unfold anchorWrite; split <;> rfl
@[simp] theorem anchorWrite_ciu (o : Nat) (ws : List Word) : (anchorWrite o ws s).ciu = s.ciu := by
  unfold anchorWrite; split <;> rfl
@[simp] theorem anchorWrite_zar (o : Nat) (ws : List Word) : (anchorWrite o ws s).zar = s.zar := by
  unfold anchorWrite; split <;> rfl
@[simp] theorem anchorWrite_clo (o : Nat) (ws : List Word) : (anchorWrite o ws s).clo = s.clo := by
  unfold anchorWrite; split <;> rfl
@[simp] theorem anchorWrite_cle (o : Nat) (ws : List Word) : (anchorWrite o ws s).cle = s.cle := by
  unfold anchorWrite; split <;> rfl
@[simp] theorem anchorWrite_msu (o : Nat) (ws : List Word) : (anchorWrite o ws s).msu = s.msu := by
  unfold anchorWrite; split <;> rfl
@[simp] theorem anchorWrite_sru (o : Nat) (ws : List Word) : (anchorWrite o ws s).sru = s.sru := by
  unfold anchorWrite; split <;> rfl
@[simp] theorem anchorWrite_plw (o : Nat) (ws : List Word) : (anchorWrite o ws s).plw = s.plw := by
  unfold anchorWrite; split <;> rfl
@[simp] theorem anchorWrite_ccu (o : Nat) (ws : List Word) : (anchorWrite o ws s).ccu = s.ccu := by
  unfold anchorWrite; split <;> rfl
@[simp] theorem anchorWrite_etu (o : Nat) (ws : List Word) : (anchorWrite o ws s).etu = s.etu := by
  unfold anchorWrite; split <;> rfl
@[simp] theorem anchorWrite_free (o : Nat) (ws : List Word) : (anchorWrite o ws s).free = s.free := by
  unfold anchorWrite; split <;> rfl

/-- What a write of the part-written area does to show memory (R6, R8). -/
theorem anchorWrite_mem (o : Nat) (ws : List Word) : (anchorWrite o ws s).mem =
    if s.smp.inForce then s.mem.storeWords (s.smp.anchor.toNat + o) ws else s.mem := by
  unfold anchorWrite; split <;> rfl

@[simp] theorem setDev_pending (d : DevState) : (setDev d s).pending = s.pending := by simp [setDev]
@[simp] theorem setDev_ftu (d : DevState) : (setDev d s).ftu = s.ftu := by simp [setDev]
@[simp] theorem setDev_ciu (d : DevState) : (setDev d s).ciu = s.ciu := by simp [setDev]
@[simp] theorem setDev_zar (d : DevState) : (setDev d s).zar = s.zar := by simp [setDev]
@[simp] theorem setDev_clo (d : DevState) : (setDev d s).clo = s.clo := by simp [setDev]
@[simp] theorem setDev_cle (d : DevState) : (setDev d s).cle = s.cle := by simp [setDev]
@[simp] theorem setDev_msu (d : DevState) : (setDev d s).msu = s.msu := by simp [setDev]
@[simp] theorem setDev_sru (d : DevState) : (setDev d s).sru = s.sru := by simp [setDev]
@[simp] theorem setDev_plw (d : DevState) : (setDev d s).plw = s.plw := by simp [setDev]
@[simp] theorem setDev_ccu (d : DevState) : (setDev d s).ccu = s.ccu := by simp [setDev]
@[simp] theorem setDev_etu (d : DevState) : (setDev d s).etu = s.etu := by simp [setDev]
@[simp] theorem setDev_free (d : DevState) : (setDev d s).free = s.free := by simp [setDev]
@[simp] theorem setDev_smp (d : DevState) : (setDev d s).smp = { s.smp with dev := d } := by simp [setDev]

/-! ## Writes of a cue record change show memory, and a DONE write the events -/

@[simp] theorem writeCue_pending (i : Nat) (r : CueResult) (c : Word) : (writeCue i r c s).pending = s.pending := by
  unfold writeCue; split <;> rfl
@[simp] theorem writeCue_smp (i : Nat) (r : CueResult) (c : Word) : (writeCue i r c s).smp = s.smp := by
  unfold writeCue; split <;> rfl
@[simp] theorem writeCue_ftu (i : Nat) (r : CueResult) (c : Word) : (writeCue i r c s).ftu = s.ftu := by
  unfold writeCue; split <;> rfl
@[simp] theorem writeCue_ciu (i : Nat) (r : CueResult) (c : Word) : (writeCue i r c s).ciu = s.ciu := by
  unfold writeCue; split <;> rfl
@[simp] theorem writeCue_zar (i : Nat) (r : CueResult) (c : Word) : (writeCue i r c s).zar = s.zar := by
  unfold writeCue; split <;> rfl
@[simp] theorem writeCue_clo (i : Nat) (r : CueResult) (c : Word) : (writeCue i r c s).clo = s.clo := by
  unfold writeCue; split <;> rfl
@[simp] theorem writeCue_cle (i : Nat) (r : CueResult) (c : Word) : (writeCue i r c s).cle = s.cle := by
  unfold writeCue; split <;> rfl
@[simp] theorem writeCue_msu (i : Nat) (r : CueResult) (c : Word) : (writeCue i r c s).msu = s.msu := by
  unfold writeCue; split <;> rfl
@[simp] theorem writeCue_sru (i : Nat) (r : CueResult) (c : Word) : (writeCue i r c s).sru = s.sru := by
  unfold writeCue; split <;> rfl
@[simp] theorem writeCue_plw (i : Nat) (r : CueResult) (c : Word) : (writeCue i r c s).plw = s.plw := by
  unfold writeCue; split <;> rfl
@[simp] theorem writeCue_ccu (i : Nat) (r : CueResult) (c : Word) : (writeCue i r c s).ccu = s.ccu := by
  unfold writeCue; split <;> rfl
@[simp] theorem writeCue_etu (i : Nat) (r : CueResult) (c : Word) : (writeCue i r c s).etu = s.etu := by
  unfold writeCue; split <;> rfl
@[simp] theorem writeCue_free (i : Nat) (r : CueResult) (c : Word) : (writeCue i r c s).free = s.free := by
  unfold writeCue; split <;> rfl
@[simp] theorem writeDone_pending (i : Nat) (r : CueResult) : (writeDone i r s).pending = s.pending := by
  unfold writeDone; split <;> simp
@[simp] theorem writeDone_ftu (i : Nat) (r : CueResult) : (writeDone i r s).ftu = s.ftu := by
  unfold writeDone; split <;> simp
@[simp] theorem writeDone_ciu (i : Nat) (r : CueResult) : (writeDone i r s).ciu = s.ciu := by
  unfold writeDone; split <;> simp
@[simp] theorem writeDone_zar (i : Nat) (r : CueResult) : (writeDone i r s).zar = s.zar := by
  unfold writeDone; split <;> simp
@[simp] theorem writeDone_clo (i : Nat) (r : CueResult) : (writeDone i r s).clo = s.clo := by
  unfold writeDone; split <;> simp
@[simp] theorem writeDone_cle (i : Nat) (r : CueResult) : (writeDone i r s).cle = s.cle := by
  unfold writeDone; split <;> simp
@[simp] theorem writeDone_msu (i : Nat) (r : CueResult) : (writeDone i r s).msu = s.msu := by
  unfold writeDone; split <;> simp
@[simp] theorem writeDone_sru (i : Nat) (r : CueResult) : (writeDone i r s).sru = s.sru := by
  unfold writeDone; split <;> simp
@[simp] theorem writeDone_plw (i : Nat) (r : CueResult) : (writeDone i r s).plw = s.plw := by
  unfold writeDone; split <;> simp
@[simp] theorem writeDone_ccu (i : Nat) (r : CueResult) : (writeDone i r s).ccu = s.ccu := by
  unfold writeDone; split <;> simp
@[simp] theorem writeDone_etu (i : Nat) (r : CueResult) : (writeDone i r s).etu = s.etu := by
  unfold writeDone; split <;> simp
@[simp] theorem writeDone_free (i : Nat) (r : CueResult) : (writeDone i r s).free = s.free := by
  unfold writeDone; split <;> simp
@[simp] theorem completeCue_pending (e i : Nat) (r : CueResult) : (completeCue e i r s).pending = s.pending := by
  unfold completeCue; split <;> simp
@[simp] theorem completeCue_ftu (e i : Nat) (r : CueResult) : (completeCue e i r s).ftu = s.ftu := by
  unfold completeCue; split <;> simp
@[simp] theorem completeCue_ciu (e i : Nat) (r : CueResult) : (completeCue e i r s).ciu = s.ciu := by
  unfold completeCue; split <;> simp
@[simp] theorem completeCue_zar (e i : Nat) (r : CueResult) : (completeCue e i r s).zar = s.zar := by
  unfold completeCue; split <;> simp
@[simp] theorem completeCue_clo (e i : Nat) (r : CueResult) : (completeCue e i r s).clo = s.clo := by
  unfold completeCue; split <;> simp
@[simp] theorem completeCue_cle (e i : Nat) (r : CueResult) : (completeCue e i r s).cle = s.cle := by
  unfold completeCue; split <;> simp
@[simp] theorem completeCue_msu (e i : Nat) (r : CueResult) : (completeCue e i r s).msu = s.msu := by
  unfold completeCue; split <;> simp
@[simp] theorem completeCue_sru (e i : Nat) (r : CueResult) : (completeCue e i r s).sru = s.sru := by
  unfold completeCue; split <;> simp
@[simp] theorem completeCue_plw (e i : Nat) (r : CueResult) : (completeCue e i r s).plw = s.plw := by
  unfold completeCue; split <;> simp
@[simp] theorem completeCue_ccu (e i : Nat) (r : CueResult) : (completeCue e i r s).ccu = s.ccu := by
  unfold completeCue; split <;> simp
@[simp] theorem completeCue_etu (e i : Nat) (r : CueResult) : (completeCue e i r s).etu = s.etu := by
  unfold completeCue; split <;> simp
@[simp] theorem completeCue_free (e i : Nat) (r : CueResult) : (completeCue e i r s).free = s.free := by
  unfold completeCue; split <;> simp

end Sys2Proof.Machine
end

