-- ==== Sys2Proof/Laws/Order.lean ====
section
/-! SUPPORT. Handling the members of a list: in the list's order, and in the free order, which is an arrangement of the
same members. -/

namespace Sys2Proof.Machine

theorem freeOrderFuel_perm {α : Type} (seed : Nat) : ∀ (k : Nat) (l : List α), (freeOrderFuel seed k l).Perm l
  | 0, l => List.Perm.refl l
  | k + 1, [] => List.Perm.refl []
  | k + 1, [x] => List.Perm.refl [x]
  | k + 1, x :: y :: ys => by
    have hi : Config.freePick seed k % (x :: y :: ys).length < (x :: y :: ys).length :=
      Nat.mod_lt _ (by simp)
    have ih := freeOrderFuel_perm seed k ((x :: y :: ys).eraseIdx (Config.freePick seed k % (x :: y :: ys).length))
    unfold freeOrderFuel
    simp only [List.getElem?_eq_getElem hi, Option.toList_some, List.singleton_append]
    exact (List.Perm.cons _ ih).trans (List.getElem_cons_eraseIdx_perm hi)

/-- The free order arranges the same members (log 5). -/
theorem freeOrder_perm {α : Type} (seed : Nat) (l : List α) : (freeOrder seed l).Perm l := freeOrderFuel_perm _ _ _

@[simp] theorem freeOrder_mem {α : Type} (seed : Nat) (l : List α) (x : α) : x ∈ freeOrder seed l ↔ x ∈ l :=
  (freeOrder_perm seed l).mem_iff

@[simp] theorem freeOrder_nil {α : Type} (seed : Nat) : freeOrder seed ([] : List α) = [] := rfl

/-- A relation that holds from the start, and that the handling of each member extends, holds at the end. -/
theorem inOrder_induct {α : Type} {l : List α} {f : α → State → State} {s : State} {P : State → Prop} (h0 : P s)
    (hf : ∀ x ∈ l, ∀ t, P t → P (f x t)) : P (inOrder l f s) := by
  unfold inOrder
  induction l generalizing s with
  | nil => exact h0
  | cons x xs ih => exact ih (hf x (by simp) s h0) (fun y hy => hf y (by simp [hy]))

/-- The same of the free order: the counter of free values moves on first. -/
theorem inFreeOrder_induct {α : Type} {l : List α} {f : α → State → State} {s : State} {P : State → Prop}
    (h0 : P s.nextFree) (hf : ∀ x ∈ l, ∀ t, P t → P (f x t)) : P (inFreeOrder l f s) := by
  have : inFreeOrder l f s = inOrder (freeOrder s.free l) f s.nextFree := rfl
  rw [this]
  exact inOrder_induct h0 fun x hx => hf x ((freeOrder_mem _ _ _).1 hx)

@[simp] theorem inOrder_nil {α : Type} (f : α → State → State) (s : State) : inOrder [] f s = s := rfl

@[simp] theorem inFreeOrder_nil {α : Type} (f : α → State → State) (s : State) : inFreeOrder [] f s = s.nextFree := rfl

end Sys2Proof.Machine
end

