-- ==== Sys2Proof/Laws/Frame.lean ====
section
/-! SUPPORT. What each operation can touch: one lemma per operation, in the form in which the lemmas chain. From a change
that touches only some parts, the operation makes a change that touches only those, when its own parts are among them. -/

namespace Sys2Proof.Machine

/-- Every part of the first list is in the second. -/
def sub (a b : List Part) : Bool := a.all fun p => b.contains p

theorem ChangesOnly.refl (ps : List Part) (s : State) : ChangesOnly ps s s := fun p _ => by cases p <;> rfl

theorem Same.trans {p : Part} {s t u : State} (h : Same p s t) (k : Same p t u) : Same p s u := by
  cases p <;> exact Eq.trans k h

theorem ChangesOnly.trans {ps : List Part} {s t u : State} (h : ChangesOnly ps s t) (k : ChangesOnly ps t u) :
    ChangesOnly ps s u := fun p hp => (h p hp).trans (k p hp)

theorem sub_contains {a b : List Part} (h : sub a b = true) {p : Part} (hp : b.contains p = false) :
    a.contains p = false := by
  by_contra hc
  have ha : p ∈ a := List.contains_iff_mem.1 (by simpa using hc)
  have := List.all_eq_true.1 h p ha
  rw [hp] at this; cases this

theorem ChangesOnly.mono {a b : List Part} {s t : State} (k : ChangesOnly a s t) (h : sub a b = true) :
    ChangesOnly b s t := fun p hp => k p (sub_contains h hp)

/-- A change of some parts carries a chain on. -/
theorem ChangesOnly.chain {a ps : List Part} {s t u : State} (k : ChangesOnly a t u) (H : ChangesOnly ps s t)
    (h : sub a ps = true) : ChangesOnly ps s u := H.trans (k.mono h)

variable {ps : List Part} {s t : State}

theorem inOrder_then {α : Type} {l : List α} {f : α → State → State} (H : ChangesOnly ps s t)
    (hf : ∀ x u, ChangesOnly ps s u → ChangesOnly ps s (f x u)) : ChangesOnly ps s (inOrder l f t) :=
  inOrder_induct H fun x _ u hu => hf x u hu

/-! ## The updates themselves -/

theorem onFtu_then (f : Ftu → Ftu) (H : ChangesOnly ps s t) (h : sub [.ftu] ps = true) :
    ChangesOnly ps s (t.onFtu f) :=
  .chain (a := [.ftu]) (fun p hp => by cases p <;> first | rfl | cases hp) H h
theorem onCiu_then (f : Ciu → Ciu) (H : ChangesOnly ps s t) (h : sub [.ciu] ps = true) :
    ChangesOnly ps s (t.onCiu f) :=
  .chain (a := [.ciu]) (fun p hp => by cases p <;> first | rfl | cases hp) H h
theorem onZar_then (f : Zar → Zar) (H : ChangesOnly ps s t) (h : sub [.zar] ps = true) :
    ChangesOnly ps s (t.onZar f) :=
  .chain (a := [.zar]) (fun p hp => by cases p <;> first | rfl | cases hp) H h
theorem onClo_then (f : Clo → Clo) (H : ChangesOnly ps s t) (h : sub [.clo] ps = true) :
    ChangesOnly ps s (t.onClo f) :=
  .chain (a := [.clo]) (fun p hp => by cases p <;> first | rfl | cases hp) H h
theorem onCle_then (f : Cle → Cle) (H : ChangesOnly ps s t) (h : sub [.cle] ps = true) :
    ChangesOnly ps s (t.onCle f) :=
  .chain (a := [.cle]) (fun p hp => by cases p <;> first | rfl | cases hp) H h
theorem onMsu_then (f : Msu → Msu) (H : ChangesOnly ps s t) (h : sub [.msu] ps = true) :
    ChangesOnly ps s (t.onMsu f) :=
  .chain (a := [.msu]) (fun p hp => by cases p <;> first | rfl | cases hp) H h
theorem onSru_then (f : Sru → Sru) (H : ChangesOnly ps s t) (h : sub [.sru] ps = true) :
    ChangesOnly ps s (t.onSru f) :=
  .chain (a := [.sru]) (fun p hp => by cases p <;> first | rfl | cases hp) H h
theorem onPlw_then (f : Plw → Plw) (H : ChangesOnly ps s t) (h : sub [.plw] ps = true) :
    ChangesOnly ps s (t.onPlw f) :=
  .chain (a := [.plw]) (fun p hp => by cases p <;> first | rfl | cases hp) H h
theorem onCcu_then (f : Ccu → Ccu) (H : ChangesOnly ps s t) (h : sub [.ccu] ps = true) :
    ChangesOnly ps s (t.onCcu f) :=
  .chain (a := [.ccu]) (fun p hp => by cases p <;> first | rfl | cases hp) H h
theorem onEtu_then (f : Etu → Etu) (H : ChangesOnly ps s t) (h : sub [.etu] ps = true) :
    ChangesOnly ps s (t.onEtu f) :=
  .chain (a := [.etu]) (fun p hp => by cases p <;> first | rfl | cases hp) H h
theorem onSmp_then (f : Smp → Smp) (H : ChangesOnly ps s t) (h : sub [.smp, .events, .due] ps = true) :
    ChangesOnly ps s (t.onSmp f) :=
  .chain (a := [.smp, .events, .due]) (fun p hp => by cases p <;> first | rfl | cases hp) H h
theorem onSmp_core_then (f : Smp → Smp) (hf : ∀ m, (f m).events = m.events ∧ (f m).frameDue = m.frameDue)
    (H : ChangesOnly ps s t) (h : sub [.smp] ps = true) : ChangesOnly ps s (t.onSmp f) :=
  .chain (a := [.smp]) (fun p hp => by
    cases p <;> first | rfl | exact (hf _).1 | exact (hf _).2 | cases hp) H h
theorem withMem_then (m : Memory) (H : ChangesOnly ps s t) (h : sub [.mem] ps = true) : ChangesOnly ps s (t.withMem m) :=
  .chain (a := [.mem]) (fun p hp => by cases p <;> first | rfl | cases hp) H h
theorem nextFree_then (H : ChangesOnly ps s t) (h : sub [.free] ps = true) : ChangesOnly ps s t.nextFree :=
  .chain (a := [.free]) (fun p hp => by cases p <;> first | rfl | cases hp) H h

theorem inFreeOrder_then {α : Type} {l : List α} {f : α → State → State} (H : ChangesOnly ps s t)
    (h : sub [.free] ps = true) (hf : ∀ x u, ChangesOnly ps s u → ChangesOnly ps s (f x u)) :
    ChangesOnly ps s (inFreeOrder l f t) :=
  inFreeOrder_induct (nextFree_then H h) fun x _ u hu => hf x u hu

/-! ## The shared operations of every block -/

theorem onClip_then (k : Fin 8) (f : ClipSlot → ClipSlot) (H : ChangesOnly ps s t)
    (h : sub [.cle] ps = true) : ChangesOnly ps s (onClip k f t) := onCle_then _ H h
theorem onMessage_then (k : Fin 8) (f : MessageSlot → MessageSlot) (H : ChangesOnly ps s t)
    (h : sub [.msu] ps = true) : ChangesOnly ps s (onMessage k f t) := onMsu_then _ H h
theorem onGroup_then (g : Fin 8) (f : RotationGroup → RotationGroup) (H : ChangesOnly ps s t)
    (h : sub [.sru] ps = true) : ChangesOnly ps s (onGroup g f t) := onSru_then _ H h
theorem onAccount_then (g : Fin 8) (i : Fin 64) (f : Account → Account) (H : ChangesOnly ps s t)
    (h : sub [.sru] ps = true) : ChangesOnly ps s (onAccount g i f t) := onSru_then _ H h
theorem onChannel_then (c : Fin 4) (f : Channel → Channel) (H : ChangesOnly ps s t)
    (h : sub [.ccu] ps = true) : ChangesOnly ps s (onChannel c f t) := onCcu_then _ H h
theorem onLine_then (n : Fin 8) (f : ConsoleLine → ConsoleLine) (H : ChangesOnly ps s t)
    (h : sub [.ccu] ps = true) : ChangesOnly ps s (onLine n f t) := onCcu_then _ H h
theorem onTrigger_then (e : Fin 8) (f : TriggerEntry → TriggerEntry) (H : ChangesOnly ps s t)
    (h : sub [.etu] ps = true) : ChangesOnly ps s (onTrigger e f t) := onEtu_then _ H h
theorem onLink_then (n : Fin 4) (f : PanelLink → PanelLink) (H : ChangesOnly ps s t)
    (h : sub [.clo] ps = true) : ChangesOnly ps s (onLink n f t) := onClo_then _ H h
theorem raise_then (e : Event) (H : ChangesOnly ps s t) (h : sub [.events] ps = true) : ChangesOnly ps s (raise e t) :=
  .chain (a := [.events]) (fun p hp => by cases p <;> first | rfl | cases hp) H h
theorem anchorWrite_then (o : Nat) (ws : List Word) (H : ChangesOnly ps s t) (h : sub [.mem] ps = true) :
    ChangesOnly ps s (anchorWrite o ws t) := by
  unfold anchorWrite; split
  · exact withMem_then _ H h
  · exact H
theorem setDev_then (d : DevState) (H : ChangesOnly ps s t) (h : sub [.mem, .smp] ps = true) :
    ChangesOnly ps s (setDev d t) :=
  .chain (a := [.mem, .smp]) (anchorWrite_then _ _ (fun p hp => by cases p <;> first | rfl | cases hp) rfl) H h
theorem writeCue_then (i : Nat) (r : CueResult) (c : Word) (H : ChangesOnly ps s t) (h : sub [.mem] ps = true) :
    ChangesOnly ps s (writeCue i r c t) := by
  unfold writeCue; split
  · exact withMem_then _ H h
  · exact H
theorem writeDone_then (i : Nat) (r : CueResult) (H : ChangesOnly ps s t) (h : sub [.mem, .events] ps = true) :
    ChangesOnly ps s (writeDone i r t) :=
  .chain (a := [.mem, .events]) (by
    unfold writeDone; split
    · exact raise_then _ (writeCue_then _ _ _ (.refl _ _) rfl) rfl
    · exact .refl _ _) H h
theorem completeCue_then (e i : Nat) (r : CueResult) (H : ChangesOnly ps s t) (h : sub [.mem, .events] ps = true) :
    ChangesOnly ps s (completeCue e i r t) := by
  unfold completeCue; split
  · exact writeDone_then _ _ H h
  · exact H

/-! ## Source events and trigger results (R172, R174) -/

theorem writeReport_then (e : Fin 8) (H : ChangesOnly ps s t)
    (h : sub [.mem] ps = true) : ChangesOnly ps s (writeReport e t) :=
  .chain (a := [.mem]) (by
    unfold writeReport
    repeat' first | with_reducible first | exact ChangesOnly.refl _ _ | assumption | apply anchorWrite_then | intro _ _ _ | split | dsimp only
    all_goals rfl) H h
theorem takeSource_then (ev : TriggerSource) (H : ChangesOnly ps s t)
    (h : sub [.etu, .mem] ps = true) : ChangesOnly ps s (takeSource ev t) :=
  .chain (a := [.etu, .mem]) (by
    unfold takeSource
    repeat' first | with_reducible first | exact ChangesOnly.refl _ _ | assumption | apply inOrder_then | apply onTrigger_then | apply writeReport_then | intro _ _ _ | split | dsimp only
    all_goals rfl) H h
theorem sourceEvent_then (ev : TriggerSource) (H : ChangesOnly ps s t)
    (h : sub [.etu, .mem] ps = true) : ChangesOnly ps s (sourceEvent ev t) :=
  .chain (a := [.etu, .mem]) (by
    unfold sourceEvent
    repeat' first | with_reducible first | exact ChangesOnly.refl _ _ | assumption | apply onEtu_then | apply takeSource_then | intro _ _ _ | split | dsimp only
    all_goals rfl) H h
theorem triggerResult_then (e : Fin 8) (st : Status) (a b : Nat) (H : ChangesOnly ps s t)
    (h : sub [.etu, .mem] ps = true) : ChangesOnly ps s (triggerResult e st a b t) :=
  .chain (a := [.etu, .mem]) (by
    unfold triggerResult
    repeat' first | with_reducible first | exact ChangesOnly.refl _ _ | assumption | apply onTrigger_then | apply writeReport_then | intro _ _ _ | split | dsimp only
    all_goals rfl) H h
/-! ## Play log writer (chapter 9) -/

theorem addLogged_then (g : Fin 8) (i : Fin 64) (n : Nat) (H : ChangesOnly ps s t)
    (h : sub [.sru] ps = true) : ChangesOnly ps s (addLogged g i n t) :=
  .chain (a := [.sru]) (by
    unfold addLogged
    repeat' first | with_reducible first | exact ChangesOnly.refl _ _ | assumption | apply onAccount_then | intro _ _ _ | split | dsimp only
    all_goals rfl) H h
theorem addUnlogged_then (g : Fin 8) (i : Fin 64) (n : Nat) (H : ChangesOnly ps s t)
    (h : sub [.sru] ps = true) : ChangesOnly ps s (addUnlogged g i n t) :=
  .chain (a := [.sru]) (by
    unfold addUnlogged
    repeat' first | with_reducible first | exact ChangesOnly.refl _ _ | assumption | apply onAccount_then | intro _ _ _ | split | dsimp only
    all_goals rfl) H h
theorem testReadIndex_then (H : ChangesOnly ps s t)
    (h : sub [.plw, .events] ps = true) : ChangesOnly ps s (testReadIndex t) :=
  .chain (a := [.plw, .events]) (by
    unfold testReadIndex
    repeat' first | with_reducible first | exact ChangesOnly.refl _ _ | assumption | apply onPlw_then | apply raise_then | intro _ _ _ | split | dsimp only
    all_goals rfl) H h
theorem writeRecord_then (r : PlayRecord) (H : ChangesOnly ps s t)
    (h : sub [.mem, .plw, .sru] ps = true) : ChangesOnly ps s (writeRecord r t) :=
  .chain (a := [.mem, .plw, .sru]) (by
    unfold writeRecord
    repeat' first | with_reducible first | exact ChangesOnly.refl _ _ | assumption | apply addLogged_then | apply anchorWrite_then | apply onPlw_then | apply withMem_then | intro _ _ _ | split | dsimp only
    all_goals rfl) H h
theorem holdRecord_then (r : PlayRecord) (H : ChangesOnly ps s t)
    (h : sub [.plw] ps = true) : ChangesOnly ps s (holdRecord r t) :=
  .chain (a := [.plw]) (by
    unfold holdRecord
    repeat' first | with_reducible first | exact ChangesOnly.refl _ _ | assumption | apply onPlw_then | intro _ _ _ | split | dsimp only
    all_goals rfl) H h
theorem dropRecord_then (r : PlayRecord) (H : ChangesOnly ps s t)
    (h : sub [.sru, .plw, .events, .mem] ps = true) : ChangesOnly ps s (dropRecord r t) :=
  .chain (a := [.sru, .plw, .events, .mem]) (by
    unfold dropRecord
    repeat' first | with_reducible first | exact ChangesOnly.refl _ _ | assumption | apply addUnlogged_then | apply anchorWrite_then | apply onPlw_then | apply raise_then | intro _ _ _ | split | dsimp only
    all_goals rfl) H h
theorem handRecord_then (r : PlayRecord) (H : ChangesOnly ps s t)
    (h : sub [.mem, .plw, .sru, .events] ps = true) : ChangesOnly ps s (handRecord r t) :=
  .chain (a := [.mem, .plw, .sru, .events]) (by
    unfold handRecord
    repeat' first | with_reducible first | exact ChangesOnly.refl _ _ | assumption | apply dropRecord_then | apply holdRecord_then | apply testReadIndex_then | apply writeRecord_then | intro _ _ _ | split | dsimp only
    all_goals rfl) H h
theorem retryFuel_only (n : Nat) (t : State) :
    ChangesOnly [.mem, .plw, .sru, .events] t (retryFuel n t) := by
  induction n generalizing t with
  | zero => exact .refl _ _
  | succ n ih =>
    unfold retryFuel
    repeat' first | with_reducible first | exact ChangesOnly.refl _ _ | apply testReadIndex_then | split | dsimp only
    all_goals first | rfl | refine ChangesOnly.trans ?_ (ih _)
    exact writeRecord_then _ (onPlw_then _ (testReadIndex_then (.refl _ _) rfl) rfl) rfl
theorem retryFuel_then (n : Nat) (H : ChangesOnly ps s t)
    (h : sub [.mem, .plw, .sru, .events] ps = true) : ChangesOnly ps s (retryFuel n t) :=
  .chain (a := [.mem, .plw, .sru, .events]) (retryFuel_only n t) H h
theorem plwFrameStart_then (H : ChangesOnly ps s t)
    (h : sub [.mem, .plw, .sru, .events] ps = true) : ChangesOnly ps s (plwFrameStart t) :=
  .chain (a := [.mem, .plw, .sru, .events]) (by
    unfold plwFrameStart
    repeat' first | with_reducible first | exact ChangesOnly.refl _ _ | assumption | apply retryFuel_then | apply testReadIndex_then | intro _ _ _ | split | dsimp only
    all_goals rfl) H h
theorem markHold_then (g : Fin 8) (H : ChangesOnly ps s t)
    (h : sub [.plw] ps = true) : ChangesOnly ps s (markHold g t) :=
  .chain (a := [.plw]) (by
    unfold markHold
    repeat' first | with_reducible first | exact ChangesOnly.refl _ _ | assumption | apply onPlw_then | intro _ _ _ | split | dsimp only
    all_goals rfl) H h
theorem plwReset_then (H : ChangesOnly ps s t)
    (h : sub [.sru, .plw] ps = true) : ChangesOnly ps s (plwReset t) :=
  .chain (a := [.sru, .plw]) (by
    unfold plwReset
    repeat' first | with_reducible first | exact ChangesOnly.refl _ _ | assumption | apply addUnlogged_then | apply inOrder_then | apply onPlw_then | intro _ _ _ | split | dsimp only
    all_goals rfl) H h
/-! ## Claims that no owner is told of (R71, R72, R75) -/

theorem releaseClaims_then (w : Claimant) (H : ChangesOnly ps s t)
    (h : sub [.zar] ps = true) : ChangesOnly ps s (releaseClaims w t) :=
  .chain (a := [.zar]) (by
    unfold releaseClaims
    repeat' first | with_reducible first | exact ChangesOnly.refl _ _ | assumption | apply onZar_then | intro _ _ _ | split | dsimp only
    all_goals rfl) H h
theorem removeAllClaims_then (H : ChangesOnly ps s t)
    (h : sub [.zar] ps = true) : ChangesOnly ps s (removeAllClaims t) :=
  .chain (a := [.zar]) (by
    unfold removeAllClaims
    repeat' first | with_reducible first | exact ChangesOnly.refl _ _ | assumption | apply onZar_then | intro _ _ _ | split | dsimp only
    all_goals rfl) H h
theorem insertGroupClaims_then (g : Fin 8) (z : ZoneMask) (H : ChangesOnly ps s t)
    (h : sub [.zar] ps = true) : ChangesOnly ps s (insertGroupClaims g z t) :=
  .chain (a := [.zar]) (by
    unfold insertGroupClaims
    repeat' first | with_reducible first | exact ChangesOnly.refl _ _ | assumption | apply onZar_then | intro _ _ _ | split | dsimp only
    all_goals rfl) H h
theorem setBank_then (b : Fin 4) (zs : List ZoneDef) (H : ChangesOnly ps s t)
    (h : sub [.zar] ps = true) : ChangesOnly ps s (setBank b zs t) :=
  .chain (a := [.zar]) (by
    unfold setBank
    repeat' first | with_reducible first | exact ChangesOnly.refl _ _ | assumption | apply onZar_then | intro _ _ _ | split | dsimp only
    all_goals rfl) H h
theorem switchTable_then (b : Fin 4) (H : ChangesOnly ps s t)
    (h : sub [.zar] ps = true) : ChangesOnly ps s (switchTable b t) :=
  .chain (a := [.zar]) (by
    unfold switchTable
    repeat' first | with_reducible first | exact ChangesOnly.refl _ _ | assumption | apply onZar_then | intro _ _ _ | split | dsimp only
    all_goals rfl) H h
/-! ## Sponsor rotation (chapter 8) -/

theorem writeGroupStatus_then (H : ChangesOnly ps s t)
    (h : sub [.mem] ps = true) : ChangesOnly ps s (writeGroupStatus t) :=
  .chain (a := [.mem]) (by
    unfold writeGroupStatus
    repeat' first | with_reducible first | exact ChangesOnly.refl _ _ | assumption | apply anchorWrite_then | intro _ _ _ | split | dsimp only
    all_goals rfl) H h
theorem writeSnapshot_then (g : Fin 8) (a : Vector Account 64) (H : ChangesOnly ps s t)
    (h : sub [.sru, .mem] ps = true) : ChangesOnly ps s (writeSnapshot g a t) :=
  .chain (a := [.sru, .mem]) (by
    unfold writeSnapshot
    repeat' first | with_reducible first | exact ChangesOnly.refl _ _ | assumption | apply onGroup_then | apply withMem_then | intro _ _ _ | split | dsimp only
    all_goals rfl) H h
theorem closeSlot_then (g : Fin 8) (H : ChangesOnly ps s t)
    (h : sub [.sru, .plw, .events, .mem, .free] ps = true) : ChangesOnly ps s (closeSlot g t) :=
  .chain (a := [.sru, .plw, .events, .mem, .free]) (by
    unfold closeSlot
    repeat' first | with_reducible first | exact ChangesOnly.refl _ _ | assumption | apply handRecord_then | apply nextFree_then | apply onGroup_then | apply writeSnapshot_then | intro _ _ _ | split | dsimp only
    all_goals rfl) H h
theorem cutSlot_then (g : Fin 8) (H : ChangesOnly ps s t)
    (h : sub [.sru, .plw, .events, .mem, .free] ps = true) : ChangesOnly ps s (cutSlot g t) :=
  .chain (a := [.sru, .plw, .events, .mem, .free]) (by
    unfold cutSlot
    repeat' first | with_reducible first | exact ChangesOnly.refl _ _ | assumption | apply closeSlot_then | apply onGroup_then | intro _ _ _ | split | dsimp only
    all_goals rfl) H h
theorem takeZoneSet_then (g : Fin 8) (z : ZoneMask) (H : ChangesOnly ps s t)
    (h : sub [.sru, .plw, .events, .mem, .free] ps = true) : ChangesOnly ps s (takeZoneSet g z t) :=
  .chain (a := [.sru, .plw, .events, .mem, .free]) (by
    unfold takeZoneSet
    repeat' first | with_reducible first | exact ChangesOnly.refl _ _ | assumption | apply cutSlot_then | apply onGroup_then | intro _ _ _ | split | dsimp only
    all_goals rfl) H h
theorem enableGroup_then (g : Fin 8) (H : ChangesOnly ps s t)
    (h : sub [.sru, .zar, .mem] ps = true) : ChangesOnly ps s (enableGroup g t) :=
  .chain (a := [.sru, .zar, .mem]) (by
    unfold enableGroup
    repeat' first | with_reducible first | exact ChangesOnly.refl _ _ | assumption | apply insertGroupClaims_then | apply onGroup_then | apply writeGroupStatus_then | intro _ _ _ | split | dsimp only
    all_goals rfl) H h
theorem disableGroup_then (g : Fin 8) (H : ChangesOnly ps s t)
    (h : sub [.sru, .plw, .events, .mem, .free, .zar] ps = true) : ChangesOnly ps s (disableGroup g t) :=
  .chain (a := [.sru, .plw, .events, .mem, .free, .zar]) (by
    unfold disableGroup
    repeat' first | with_reducible first | exact ChangesOnly.refl _ _ | assumption | apply cutSlot_then | apply onGroup_then | apply releaseClaims_then | apply writeGroupStatus_then | intro _ _ _ | split | dsimp only
    all_goals rfl) H h
theorem clearGroup_then (g : Fin 8) (H : ChangesOnly ps s t)
    (h : sub [.sru, .plw, .events, .mem, .free] ps = true) : ChangesOnly ps s (clearGroup g t) :=
  .chain (a := [.sru, .plw, .events, .mem, .free]) (by
    unfold clearGroup
    repeat' first | with_reducible first | exact ChangesOnly.refl _ _ | assumption | apply cutSlot_then | apply markHold_then | apply onGroup_then | apply onSru_then | apply writeGroupStatus_then | apply writeSnapshot_then | intro _ _ _ | split | dsimp only
    all_goals rfl) H h
theorem selectSlot_then (g : Fin 8) (f : Frame) (H : ChangesOnly ps s t)
    (h : sub [.sru] ps = true) : ChangesOnly ps s (selectSlot g f t) :=
  .chain (a := [.sru]) (by
    unfold selectSlot
    repeat' first | with_reducible first | exact ChangesOnly.refl _ _ | assumption | apply onAccount_then | apply onGroup_then | intro _ _ _ | split | dsimp only
    all_goals rfl) H h
theorem dwellEnd_then (g : Fin 8) (H : ChangesOnly ps s t)
    (h : sub [.sru, .plw, .events, .mem, .free] ps = true) : ChangesOnly ps s (dwellEnd g t) :=
  .chain (a := [.sru, .plw, .events, .mem, .free]) (by
    unfold dwellEnd
    repeat' first | with_reducible first | exact ChangesOnly.refl _ _ | assumption | apply closeSlot_then | apply onGroup_then | intro _ _ _ | split | dsimp only
    all_goals rfl) H h
theorem answerSlot_then (g : Fin 8) (f : Frame) (H : ChangesOnly ps s t)
    (h : sub [.sru, .plw, .events, .mem, .free] ps = true) : ChangesOnly ps s (answerSlot g f t).2 :=
  .chain (a := [.sru, .plw, .events, .mem, .free]) (by
    unfold answerSlot
    repeat' first | with_reducible first | exact ChangesOnly.refl _ _ | assumption | apply dwellEnd_then | apply onGroup_then | intro _ _ _ | split | dsimp only
    all_goals rfl) H h
theorem groupRequest_then (g : Fin 8) (f : Frame) (H : ChangesOnly ps s t)
    (h : sub [.sru, .plw, .events, .mem, .free] ps = true) : ChangesOnly ps s (groupRequest g f t).2 :=
  .chain (a := [.sru, .plw, .events, .mem, .free]) (by
    unfold groupRequest
    repeat' first | with_reducible first | exact ChangesOnly.refl _ _ | assumption | apply answerSlot_then | apply selectSlot_then | intro _ _ _ | split | dsimp only
    all_goals rfl) H h
theorem creditGroup_then (g : Fin 8) (k : Nat) (i : Fin 64) (H : ChangesOnly ps s t)
    (h : sub [.sru, .events, .mem] ps = true) : ChangesOnly ps s (creditGroup g k i t) :=
  .chain (a := [.sru, .events, .mem]) (by
    unfold creditGroup
    repeat' first | with_reducible first | exact ChangesOnly.refl _ _ | assumption | apply onGroup_then | apply onSru_then | apply raise_then | apply writeGroupStatus_then | intro _ _ _ | split | dsimp only
    all_goals rfl) H h
theorem groupReport_then (g : Fin 8) (f : Frame) (r : List ReportEntry) (H : ChangesOnly ps s t)
    (h : sub [.sru, .plw, .events, .mem, .free] ps = true) : ChangesOnly ps s (groupReport g f r t) :=
  .chain (a := [.sru, .plw, .events, .mem, .free]) (by
    unfold groupReport
    repeat' first | with_reducible first | exact ChangesOnly.refl _ _ | assumption | apply closeSlot_then | apply creditGroup_then | apply onGroup_then | intro _ _ _ | split | dsimp only
    all_goals rfl) H h
theorem writeEntry_then (i : Fin 64) (d : Entry) (H : ChangesOnly ps s t)
    (h : sub [.sru] ps = true) : ChangesOnly ps s (writeEntry i d t) :=
  .chain (a := [.sru]) (by
    unfold writeEntry
    repeat' first | with_reducible first | exact ChangesOnly.refl _ _ | assumption | apply onSru_then | intro _ _ _ | split | dsimp only
    all_goals rfl) H h
theorem activateEntry_then (i : Fin 64) (H : ChangesOnly ps s t)
    (h : sub [.sru] ps = true) : ChangesOnly ps s (activateEntry i t) :=
  .chain (a := [.sru]) (by
    unfold activateEntry
    repeat' first | with_reducible first | exact ChangesOnly.refl _ _ | assumption | apply onSru_then | intro _ _ _ | split | dsimp only
    all_goals rfl) H h
theorem retireEntry_then (i : Fin 64) (H : ChangesOnly ps s t)
    (h : sub [.sru, .plw, .events, .mem, .free] ps = true) : ChangesOnly ps s (retireEntry i t) :=
  .chain (a := [.sru, .plw, .events, .mem, .free]) (by
    unfold retireEntry
    repeat' first | with_reducible first | exact ChangesOnly.refl _ _ | assumption | apply cutSlot_then | apply inFreeOrder_then | apply onSru_then | intro _ _ _ | split | dsimp only
    all_goals rfl) H h
theorem sruFallback_then (H : ChangesOnly ps s t)
    (h : sub [.sru] ps = true) : ChangesOnly ps s (sruFallback t) :=
  .chain (a := [.sru]) (by
    unfold sruFallback
    repeat' first | with_reducible first | exact ChangesOnly.refl _ _ | assumption | apply onSru_then | intro _ _ _ | split | dsimp only
    all_goals rfl) H h
theorem markHaltCuts_then (H : ChangesOnly ps s t)
    (h : sub [.sru] ps = true) : ChangesOnly ps s (markHaltCuts t) :=
  .chain (a := [.sru]) (by
    unfold markHaltCuts
    repeat' first | with_reducible first | exact ChangesOnly.refl _ _ | assumption | apply onSru_then | intro _ _ _ | split | dsimp only
    all_goals rfl) H h
theorem sruHalt_then (H : ChangesOnly ps s t)
    (h : sub [.sru, .plw, .events, .mem, .free, .zar] ps = true) : ChangesOnly ps s (sruHalt t) :=
  .chain (a := [.sru, .plw, .events, .mem, .free, .zar]) (by
    unfold sruHalt
    repeat' first | with_reducible first | exact ChangesOnly.refl _ _ | assumption | apply disableGroup_then | apply inFreeOrder_then | apply inOrder_then | apply onSru_then | apply markHaltCuts_then | intro _ _ _ | split | dsimp only
    all_goals rfl) H h
theorem resetSlot_then (g : Fin 8) (H : ChangesOnly ps s t)
    (h : sub [.sru] ps = true) : ChangesOnly ps s (resetSlot g t) :=
  .chain (a := [.sru]) (by
    unfold resetSlot
    repeat' first | with_reducible first | exact ChangesOnly.refl _ _ | assumption | apply addUnlogged_then | intro _ _ _ | split | dsimp only
    all_goals rfl) H h
theorem sruReset_then (H : ChangesOnly ps s t)
    (h : sub [.sru] ps = true) : ChangesOnly ps s (sruReset t) :=
  .chain (a := [.sru]) (by
    unfold sruReset
    repeat' first | with_reducible first | exact ChangesOnly.refl _ _ | assumption | apply inOrder_then | apply onSru_then | apply resetSlot_then | intro _ _ _ | split | dsimp only
    all_goals rfl) H h
/-! ## Clip engine (chapter 6) -/

theorem completeClip_then (k : Fin 8) (H : ChangesOnly ps s t)
    (h : sub [.cle, .mem, .events, .etu] ps = true) : ChangesOnly ps s (completeClip k t) :=
  .chain (a := [.cle, .mem, .events, .etu]) (by
    unfold completeClip
    repeat' first | with_reducible first | exact ChangesOnly.refl _ _ | assumption | apply completeCue_then | apply onClip_then | apply sourceEvent_then | apply triggerResult_then | intro _ _ _ | split | dsimp only
    all_goals rfl) H h
theorem endClip_then (st : Status) (k : Fin 8) (H : ChangesOnly ps s t)
    (h : sub [.cle, .mem, .events, .etu, .zar] ps = true) : ChangesOnly ps s (endClip st k t) :=
  .chain (a := [.cle, .mem, .events, .etu, .zar]) (by
    unfold endClip
    repeat' first | with_reducible first | exact ChangesOnly.refl _ _ | assumption | apply completeClip_then | apply onClip_then | apply releaseClaims_then | intro _ _ _ | split | dsimp only
    all_goals rfl) H h
theorem preemptClip_then (k : Fin 8) (H : ChangesOnly ps s t)
    (h : sub [.cle] ps = true) : ChangesOnly ps s (preemptClip k t) :=
  .chain (a := [.cle]) (by
    unfold preemptClip
    repeat' first | with_reducible first | exact ChangesOnly.refl _ _ | assumption | apply onClip_then | intro _ _ _ | split | dsimp only
    all_goals rfl) H h
theorem loseClip_then (st : Status) (k : Fin 8) (z : ZoneMask) (H : ChangesOnly ps s t)
    (h : sub [.cle, .mem, .events, .etu, .zar] ps = true) : ChangesOnly ps s (loseClip st k z t) :=
  .chain (a := [.cle, .mem, .events, .etu, .zar]) (by
    unfold loseClip
    repeat' first | with_reducible first | exact ChangesOnly.refl _ _ | assumption | apply endClip_then | apply onClip_then | intro _ _ _ | split | dsimp only
    all_goals rfl) H h
theorem exhaustClip_then (k : Fin 8) (H : ChangesOnly ps s t)
    (h : sub [.cle, .mem, .events, .etu, .zar] ps = true) : ChangesOnly ps s (exhaustClip k t) :=
  .chain (a := [.cle, .mem, .events, .etu, .zar]) (by
    unfold exhaustClip
    repeat' first | with_reducible first | exact ChangesOnly.refl _ _ | assumption | apply endClip_then | apply onClip_then | intro _ _ _ | split | dsimp only
    all_goals rfl) H h
theorem clipRequest_then (k : Fin 8) (f : Frame) (z : ZoneMask) (H : ChangesOnly ps s t)
    (h : sub [.cle, .mem, .events, .etu, .zar] ps = true) : ChangesOnly ps s (clipRequest k f z t).2 :=
  .chain (a := [.cle, .mem, .events, .etu, .zar]) (by
    unfold clipRequest
    repeat' first | with_reducible first | exact ChangesOnly.refl _ _ | assumption | apply exhaustClip_then | apply onClip_then | intro _ _ _ | split | dsimp only
    all_goals rfl) H h
theorem clipReport_then (k : Fin 8) (f : Frame) (r : List ReportEntry) (H : ChangesOnly ps s t)
    (h : sub [.cle, .mem, .events, .etu] ps = true) : ChangesOnly ps s (clipReport k f r t) :=
  .chain (a := [.cle, .mem, .events, .etu]) (by
    unfold clipReport
    repeat' first | with_reducible first | exact ChangesOnly.refl _ _ | assumption | apply completeClip_then | apply onClip_then | intro _ _ _ | split | dsimp only
    all_goals rfl) H h
theorem cleFallback_then (H : ChangesOnly ps s t)
    (h : sub [.cle, .mem, .events, .etu, .zar, .free] ps = true) : ChangesOnly ps s (cleFallback t) :=
  .chain (a := [.cle, .mem, .events, .etu, .zar, .free]) (by
    unfold cleFallback
    repeat' first | with_reducible first | exact ChangesOnly.refl _ _ | assumption | apply endClip_then | apply inFreeOrder_then | apply onCle_then | intro _ _ _ | split | dsimp only
    all_goals rfl) H h
theorem cleHalt_then (H : ChangesOnly ps s t)
    (h : sub [.cle, .mem, .events, .etu, .zar, .free] ps = true) : ChangesOnly ps s (cleHalt t) :=
  .chain (a := [.cle, .mem, .events, .etu, .zar, .free]) (by
    unfold cleHalt
    repeat' first | with_reducible first | exact ChangesOnly.refl _ _ | assumption | apply endClip_then | apply inFreeOrder_then | apply onCle_then | intro _ _ _ | split | dsimp only
    all_goals rfl) H h
theorem cleReset_then (H : ChangesOnly ps s t)
    (h : sub [.cle] ps = true) : ChangesOnly ps s (cleReset t) :=
  .chain (a := [.cle]) (by
    unfold cleReset
    repeat' first | with_reducible first | exact ChangesOnly.refl _ _ | assumption | apply onCle_then | intro _ _ _ | split | dsimp only
    all_goals rfl) H h
/-! ## Message unit (chapter 7) -/

theorem completeOrigin_then (m : MessageSlot) (st : Status) (f : Frame) (H : ChangesOnly ps s t)
    (h : sub [.mem, .events, .etu] ps = true) : ChangesOnly ps s (completeOrigin m st f t) :=
  .chain (a := [.mem, .events, .etu]) (by
    unfold completeOrigin
    repeat' first | with_reducible first | exact ChangesOnly.refl _ _ | assumption | apply completeCue_then | apply triggerResult_then | intro _ _ _ | split | dsimp only
    all_goals rfl) H h
theorem completeMessage_then (k : Fin 8) (H : ChangesOnly ps s t)
    (h : sub [.msu, .mem, .events, .etu] ps = true) : ChangesOnly ps s (completeMessage k t) :=
  .chain (a := [.msu, .mem, .events, .etu]) (by
    unfold completeMessage
    repeat' first | with_reducible first | exact ChangesOnly.refl _ _ | assumption | apply completeOrigin_then | apply onMessage_then | apply sourceEvent_then | intro _ _ _ | split | dsimp only
    all_goals rfl) H h
theorem endMessageAt_then (st : Status) (f : Frame) (k : Fin 8) (H : ChangesOnly ps s t)
    (h : sub [.msu, .mem, .events, .etu, .zar] ps = true) : ChangesOnly ps s (endMessageAt st f k t) :=
  .chain (a := [.msu, .mem, .events, .etu, .zar]) (by
    unfold endMessageAt
    repeat' first | with_reducible first | exact ChangesOnly.refl _ _ | assumption | apply completeMessage_then | apply onMessage_then | apply releaseClaims_then | intro _ _ _ | split | dsimp only
    all_goals rfl) H h
theorem endMessage_then (st : Status) (k : Fin 8) (H : ChangesOnly ps s t)
    (h : sub [.msu, .mem, .events, .etu, .zar] ps = true) : ChangesOnly ps s (endMessage st k t) :=
  .chain (a := [.msu, .mem, .events, .etu, .zar]) (by
    unfold endMessage
    repeat' first | with_reducible first | exact ChangesOnly.refl _ _ | assumption | apply endMessageAt_then | intro _ _ _ | split | dsimp only
    all_goals rfl) H h
theorem preemptMessage_then (k : Fin 8) (H : ChangesOnly ps s t)
    (h : sub [.msu] ps = true) : ChangesOnly ps s (preemptMessage k t) :=
  .chain (a := [.msu]) (by
    unfold preemptMessage
    repeat' first | with_reducible first | exact ChangesOnly.refl _ _ | assumption | apply onMessage_then | intro _ _ _ | split | dsimp only
    all_goals rfl) H h
theorem loseMessage_then (st : Status) (k : Fin 8) (z : ZoneMask) (H : ChangesOnly ps s t)
    (h : sub [.msu, .mem, .events, .etu, .zar] ps = true) : ChangesOnly ps s (loseMessage st k z t) :=
  .chain (a := [.msu, .mem, .events, .etu, .zar]) (by
    unfold loseMessage
    repeat' first | with_reducible first | exact ChangesOnly.refl _ _ | assumption | apply endMessage_then | apply onMessage_then | intro _ _ _ | split | dsimp only
    all_goals rfl) H h
theorem runOut_then (k : Fin 8) (f : Frame) (H : ChangesOnly ps s t)
    (h : sub [.msu, .mem, .events, .etu, .zar] ps = true) : ChangesOnly ps s (runOut k f t) :=
  .chain (a := [.msu, .mem, .events, .etu, .zar]) (by
    unfold runOut
    repeat' first | with_reducible first | exact ChangesOnly.refl _ _ | assumption | apply endMessageAt_then | apply onMessage_then | intro _ _ _ | split | dsimp only
    all_goals rfl) H h
theorem countMessage_then (f : Frame) (k : Fin 8) (H : ChangesOnly ps s t)
    (h : sub [.msu, .mem, .events, .etu, .zar] ps = true) : ChangesOnly ps s (countMessage f k t) :=
  .chain (a := [.msu, .mem, .events, .etu, .zar]) (by
    unfold countMessage
    repeat' first | with_reducible first | exact ChangesOnly.refl _ _ | assumption | apply onMessage_then | apply runOut_then | intro _ _ _ | split | dsimp only
    all_goals rfl) H h
theorem msuFrameStart_then (f : Frame) (H : ChangesOnly ps s t)
    (h : sub [.msu, .mem, .events, .etu, .zar, .free] ps = true) : ChangesOnly ps s (msuFrameStart f t) :=
  .chain (a := [.msu, .mem, .events, .etu, .zar, .free]) (by
    unfold msuFrameStart
    repeat' first | with_reducible first | exact ChangesOnly.refl _ _ | assumption | apply countMessage_then | apply inFreeOrder_then | intro _ _ _ | split | dsimp only
    all_goals rfl) H h
theorem messageRequest_then (k : Fin 8) (f : Frame) (z : ZoneMask) (H : ChangesOnly ps s t)
    (h : sub [.msu, .mem, .events, .etu, .zar] ps = true) : ChangesOnly ps s (messageRequest k f z t).2 :=
  .chain (a := [.msu, .mem, .events, .etu, .zar]) (by
    unfold messageRequest
    repeat' first | with_reducible first | exact ChangesOnly.refl _ _ | assumption | apply countMessage_then | apply onMessage_then | intro _ _ _ | split | dsimp only
    all_goals rfl) H h
theorem messageReport_then (k : Fin 8) (f : Frame) (r : List ReportEntry) (H : ChangesOnly ps s t)
    (h : sub [.msu, .mem, .events, .etu] ps = true) : ChangesOnly ps s (messageReport k f r t) :=
  .chain (a := [.msu, .mem, .events, .etu]) (by
    unfold messageReport
    repeat' first | with_reducible first | exact ChangesOnly.refl _ _ | assumption | apply completeMessage_then | apply onMessage_then | intro _ _ _ | split | dsimp only
    all_goals rfl) H h
theorem msuHalt_then (H : ChangesOnly ps s t)
    (h : sub [.msu, .mem, .events, .etu, .zar, .free] ps = true) : ChangesOnly ps s (msuHalt t) :=
  .chain (a := [.msu, .mem, .events, .etu, .zar, .free]) (by
    unfold msuHalt
    repeat' first | with_reducible first | exact ChangesOnly.refl _ _ | assumption | apply endMessage_then | apply inFreeOrder_then | apply onMsu_then | intro _ _ _ | split | dsimp only
    all_goals rfl) H h
theorem msuReset_then (H : ChangesOnly ps s t)
    (h : sub [.msu] ps = true) : ChangesOnly ps s (msuReset t) :=
  .chain (a := [.msu]) (by
    unfold msuReset
    repeat' first | with_reducible first | exact ChangesOnly.refl _ _ | assumption | apply onMsu_then | intro _ _ _ | split | dsimp only
    all_goals rfl) H h
/-! ## Claim requests and layout switches (chapter 4) -/

theorem reportPreempted_then (w : Option Claimant) (H : ChangesOnly ps s t)
    (h : sub [.cle, .msu] ps = true) : ChangesOnly ps s (reportPreempted w t) :=
  .chain (a := [.cle, .msu]) (by
    unfold reportPreempted
    repeat' first | with_reducible first | exact ChangesOnly.refl _ _ | assumption | apply preemptClip_then | apply preemptMessage_then | intro _ _ _ | split | dsimp only
    all_goals rfl) H h
theorem reportLost_then (st : Status) (w : Claimant) (z : ZoneMask) (H : ChangesOnly ps s t)
    (h : sub [.cle, .msu, .zar, .mem, .events, .etu] ps = true) : ChangesOnly ps s (reportLost st w z t) :=
  .chain (a := [.cle, .msu, .zar, .mem, .events, .etu]) (by
    unfold reportLost
    repeat' first | with_reducible first | exact ChangesOnly.refl _ _ | assumption | apply loseClip_then | apply loseMessage_then | intro _ _ _ | split | dsimp only
    all_goals rfl) H h
theorem placeClaim_then (z : Fin 16) (c : Claim) (H : ChangesOnly ps s t)
    (h : sub [.zar, .cle, .msu] ps = true) : ChangesOnly ps s (placeClaim z c t) :=
  .chain (a := [.zar, .cle, .msu]) (by
    unfold placeClaim
    repeat' first | with_reducible first | exact ChangesOnly.refl _ _ | assumption | apply onZar_then | apply reportPreempted_then | intro _ _ _ | split | dsimp only
    all_goals rfl) H h
theorem evictAndPlace_then (z : Fin 16) (v c : Claim) (H : ChangesOnly ps s t)
    (h : sub [.cle, .msu, .zar, .mem, .events, .etu] ps = true) : ChangesOnly ps s (evictAndPlace z v c t) :=
  .chain (a := [.cle, .msu, .zar, .mem, .events, .etu]) (by
    unfold evictAndPlace
    repeat' first | with_reducible first | exact ChangesOnly.refl _ _ | assumption | apply onZar_then | apply placeClaim_then | apply reportLost_then | intro _ _ _ | split | dsimp only
    all_goals rfl) H h
theorem claimZone_then (c : Claim) (b : Bool) (z : Fin 16) (H : ChangesOnly ps s t)
    (h : sub [.cle, .msu, .zar, .mem, .events, .etu] ps = true) : ChangesOnly ps s (claimZone c b z t).2 :=
  .chain (a := [.cle, .msu, .zar, .mem, .events, .etu]) (by
    unfold claimZone
    repeat' first | with_reducible first | exact ChangesOnly.refl _ _ | assumption | apply evictAndPlace_then | apply placeClaim_then | intro _ _ _ | split | dsimp only
    all_goals rfl) H h
theorem claimZones_only (c : Claim) (b : Bool) (zs : List (Fin 16)) (t : State) :
    ChangesOnly [.cle, .msu, .zar, .mem, .events, .etu] t (claimZones c b zs t).2 := by
  unfold claimZones
  refine List.foldlRecOn zs _ (motive := fun (acc : ClaimAnswer × State) => ChangesOnly [.cle, .msu, .zar, .mem, .events, .etu] t acc.2)
    (.refl _ _) fun acc hacc z _ => ?_
  exact claimZone_then c b z hacc rfl
theorem claimZones_then (c : Claim) (b : Bool) (zs : List (Fin 16)) (H : ChangesOnly ps s t)
    (h : sub [.cle, .msu, .zar, .mem, .events, .etu] ps = true) : ChangesOnly ps s (claimZones c b zs t).2 :=
  .chain (a := [.cle, .msu, .zar, .mem, .events, .etu]) (claimZones_only c b zs t) H h
theorem claimRequest_then (w : Claimant) (l : Nat) (b : Bool) (z : ZoneMask) (H : ChangesOnly ps s t)
    (h : sub [.cle, .msu, .zar, .mem, .events, .etu] ps = true) : ChangesOnly ps s (claimRequest w l b z t).2 :=
  .chain (a := [.cle, .msu, .zar, .mem, .events, .etu]) (by
    unfold claimRequest
    repeat' first | with_reducible first | exact ChangesOnly.refl _ _ | assumption | apply claimZones_then | intro _ _ _ | split | dsimp only
    all_goals rfl) H h
theorem reportZoneSet_then (g : Fin 8) (H : ChangesOnly ps s t)
    (h : sub [.sru, .plw, .events, .mem, .free] ps = true) : ChangesOnly ps s (reportZoneSet g t) :=
  .chain (a := [.sru, .plw, .events, .mem, .free]) (by
    unfold reportZoneSet
    repeat' first | with_reducible first | exact ChangesOnly.refl _ _ | assumption | apply takeZoneSet_then | intro _ _ _ | split | dsimp only
    all_goals rfl) H h
theorem reportZoneSets_then (gs : List (Fin 8)) (H : ChangesOnly ps s t)
    (h : sub [.sru, .plw, .events, .mem, .free] ps = true) : ChangesOnly ps s (reportZoneSets gs t) :=
  .chain (a := [.sru, .plw, .events, .mem, .free]) (by
    unfold reportZoneSets
    repeat' first | with_reducible first | exact ChangesOnly.refl _ _ | assumption | apply inFreeOrder_then | apply inOrder_then | apply reportZoneSet_then | intro _ _ _ | split | dsimp only
    all_goals rfl) H h
theorem switchLayout_then (b : Fin 4) (H : ChangesOnly ps s t)
    (h : sub [.cle, .msu, .zar, .mem, .events, .etu, .sru, .plw, .free] ps = true) : ChangesOnly ps s (switchLayout b t) :=
  .chain (a := [.cle, .msu, .zar, .mem, .events, .etu, .sru, .plw, .free]) (by
    unfold switchLayout
    repeat' first | with_reducible first | exact ChangesOnly.refl _ _ | assumption | apply inFreeOrder_then | apply reportLost_then | apply reportZoneSets_then | apply switchTable_then | intro _ _ _ | split | dsimp only
    all_goals rfl) H h
theorem loadCommon_then (zs : List ZoneDef) (H : ChangesOnly ps s t)
    (h : sub [.sru, .plw, .events, .mem, .free, .zar] ps = true) : ChangesOnly ps s (loadCommon zs t) :=
  .chain (a := [.sru, .plw, .events, .mem, .free, .zar]) (by
    unfold loadCommon
    repeat' first | with_reducible first | exact ChangesOnly.refl _ _ | assumption | apply onZar_then | apply reportZoneSets_then | apply setBank_then | intro _ _ _ | split | dsimp only
    all_goals rfl) H h
/-! ## Taking and withdrawing (chapters 6 and 7) -/

theorem takeClip_then (ho : Handover) (r : RunSlots) (p : ClipPayload) (H : ChangesOnly ps s t)
    (h : sub [.cle, .msu, .zar, .mem, .events, .etu] ps = true) : ChangesOnly ps s (takeClip ho r p t).2 :=
  .chain (a := [.cle, .msu, .zar, .mem, .events, .etu]) (by
    unfold takeClip
    repeat' first | with_reducible first | exact ChangesOnly.refl _ _ | assumption | apply claimRequest_then | apply onClip_then | intro _ _ _ | split | dsimp only
    all_goals rfl) H h
theorem repost_then (k : Fin 8) (ho : Handover) (p : MessagePayload) (H : ChangesOnly ps s t)
    (h : sub [.msu, .mem, .events, .etu] ps = true) : ChangesOnly ps s (repost k ho p t) :=
  .chain (a := [.msu, .mem, .events, .etu]) (by
    unfold repost
    repeat' first | with_reducible first | exact ChangesOnly.refl _ _ | assumption | apply completeOrigin_then | apply onMessage_then | intro _ _ _ | split | dsimp only
    all_goals rfl) H h
theorem takeMessage_then (ho : Handover) (r : RunSlots) (p : MessagePayload) (H : ChangesOnly ps s t)
    (h : sub [.cle, .msu, .zar, .mem, .events, .etu] ps = true) : ChangesOnly ps s (takeMessage ho r p t).2 :=
  .chain (a := [.cle, .msu, .zar, .mem, .events, .etu]) (by
    unfold takeMessage
    repeat' first | with_reducible first | exact ChangesOnly.refl _ _ | assumption | apply claimRequest_then | apply onMessage_then | apply repost_then | intro _ _ _ | split | dsimp only
    all_goals rfl) H h
theorem withdrawClip_then (tag : Tag) (r : RunSlots) (H : ChangesOnly ps s t)
    (h : sub [.cle, .mem, .events, .etu, .zar] ps = true) : ChangesOnly ps s (withdrawClip tag r t).2.2 :=
  .chain (a := [.cle, .mem, .events, .etu, .zar]) (by
    unfold withdrawClip
    repeat' first | with_reducible first | exact ChangesOnly.refl _ _ | assumption | apply endClip_then | intro _ _ _ | split | dsimp only
    all_goals rfl) H h
theorem withdrawMessage_then (tag : Tag) (r : RunSlots) (H : ChangesOnly ps s t)
    (h : sub [.msu, .mem, .events, .etu, .zar] ps = true) : ChangesOnly ps s (withdrawMessage tag r t).2.2 :=
  .chain (a := [.msu, .mem, .events, .etu, .zar]) (by
    unfold withdrawMessage
    repeat' first | with_reducible first | exact ChangesOnly.refl _ _ | assumption | apply endMessage_then | intro _ _ _ | split | dsimp only
    all_goals rfl) H h
/-! ## Event triggers (chapter 11) -/

theorem recordTaking_then (e : Fin 8) (tk : Taking) (H : ChangesOnly ps s t)
    (h : sub [.etu, .mem] ps = true) : ChangesOnly ps s (recordTaking e tk t) :=
  .chain (a := [.etu, .mem]) (by
    unfold recordTaking
    repeat' first | with_reducible first | exact ChangesOnly.refl _ _ | assumption | apply onTrigger_then | apply writeReport_then | intro _ _ _ | split | dsimp only
    all_goals rfl) H h
theorem armTrigger_then (e : Fin 8) (c : TriggerSource) (b : Bool) (a : TriggerAction) (H : ChangesOnly ps s t)
    (h : sub [.etu, .mem] ps = true) : ChangesOnly ps s (armTrigger e c b a t) :=
  .chain (a := [.etu, .mem]) (by
    unfold armTrigger
    repeat' first | with_reducible first | exact ChangesOnly.refl _ _ | assumption | apply onTrigger_then | apply writeReport_then | intro _ _ _ | split | dsimp only
    all_goals rfl) H h
theorem disarmTrigger_then (e : Fin 8) (H : ChangesOnly ps s t)
    (h : sub [.etu] ps = true) : ChangesOnly ps s (disarmTrigger e t) :=
  .chain (a := [.etu]) (by
    unfold disarmTrigger
    repeat' first | with_reducible first | exact ChangesOnly.refl _ _ | assumption | apply onTrigger_then | intro _ _ _ | split | dsimp only
    all_goals rfl) H h
theorem handAction_then (e : Fin 8) (H : ChangesOnly ps s t)
    (h : sub [.cle, .msu, .zar, .mem, .events, .etu] ps = true) : ChangesOnly ps s (handAction e t).2 :=
  .chain (a := [.cle, .msu, .zar, .mem, .events, .etu]) (by
    unfold handAction
    repeat' first | with_reducible first | exact ChangesOnly.refl _ _ | assumption | apply takeClip_then | apply takeMessage_then | intro _ _ _ | split | dsimp only
    all_goals rfl) H h
theorem fireTrigger_then (f : Frame) (e : Fin 8) (H : ChangesOnly ps s t)
    (h : sub [.cle, .msu, .zar, .mem, .events, .etu] ps = true) : ChangesOnly ps s (fireTrigger f e t) :=
  .chain (a := [.cle, .msu, .zar, .mem, .events, .etu]) (by
    unfold fireTrigger
    repeat' first | with_reducible first | exact ChangesOnly.refl _ _ | assumption | apply handAction_then | apply onTrigger_then | apply recordTaking_then | intro _ _ _ | split | dsimp only
    all_goals rfl) H h
theorem dropFiring_then (e : Fin 8) (H : ChangesOnly ps s t)
    (h : sub [.etu, .mem] ps = true) : ChangesOnly ps s (dropFiring e t) :=
  .chain (a := [.etu, .mem]) (by
    unfold dropFiring
    repeat' first | with_reducible first | exact ChangesOnly.refl _ _ | assumption | apply onTrigger_then | apply writeReport_then | intro _ _ _ | split | dsimp only
    all_goals rfl) H h
theorem takeInbox_then (H : ChangesOnly ps s t)
    (h : sub [.etu, .mem] ps = true) : ChangesOnly ps s (takeInbox t) :=
  .chain (a := [.etu, .mem]) (by
    unfold takeInbox
    repeat' first | with_reducible first | exact ChangesOnly.refl _ _ | assumption | apply inOrder_then | apply onEtu_then | apply takeSource_then | intro _ _ _ | split | dsimp only
    all_goals rfl) H h
theorem etuFrameStart_then (f : Frame) (H : ChangesOnly ps s t)
    (h : sub [.cle, .msu, .zar, .mem, .events, .etu] ps = true) : ChangesOnly ps s (etuFrameStart f t) :=
  .chain (a := [.cle, .msu, .zar, .mem, .events, .etu]) (by
    unfold etuFrameStart
    repeat' first | with_reducible first | exact ChangesOnly.refl _ _ | assumption | apply dropFiring_then | apply fireTrigger_then | apply inOrder_then | apply onEtu_then | apply takeInbox_then | intro _ _ _ | split | dsimp only
    all_goals rfl) H h
theorem etuReset_then (H : ChangesOnly ps s t)
    (h : sub [.etu] ps = true) : ChangesOnly ps s (etuReset t) :=
  .chain (a := [.etu]) (by
    unfold etuReset
    repeat' first | with_reducible first | exact ChangesOnly.refl _ _ | assumption | apply onEtu_then | intro _ _ _ | split | dsimp only
    all_goals rfl) H h
/-! ## Clock channels (chapter 10) -/

theorem expireChannel_then (c : Fin 4) (H : ChangesOnly ps s t)
    (h : sub [.ccu, .events, .etu, .mem] ps = true) : ChangesOnly ps s (expireChannel c t) :=
  .chain (a := [.ccu, .events, .etu, .mem]) (by
    unfold expireChannel
    repeat' first | with_reducible first | exact ChangesOnly.refl _ _ | assumption | apply onCcu_then | apply onChannel_then | apply raise_then | apply sourceEvent_then | intro _ _ _ | split | dsimp only
    all_goals rfl) H h
theorem expireChain_only (n : Nat) (c : Fin 4) (t : State) :
    ChangesOnly [.ccu, .events, .etu, .mem] t (expireChain n c t) := by
  induction n generalizing c t with
  | zero => exact expireChannel_then _ (.refl _ _) rfl
  | succ n ih =>
    unfold expireChain
    refine inOrder_then (expireChannel_then _ (.refl _ _) rfl) fun x u hu => ?_
    dsimp only
    (repeat' split) <;> first
      | exact hu
      | exact onChannel_then _ _ hu rfl
      | exact (onChannel_then _ _ hu rfl).trans (ih _ _)
theorem expireChain_then (n : Nat) (c : Fin 4) (H : ChangesOnly ps s t)
    (h : sub [.ccu, .events, .etu, .mem] ps = true) : ChangesOnly ps s (expireChain n c t) :=
  .chain (a := [.ccu, .events, .etu, .mem]) (expireChain_only n c t) H h
theorem countChannel_then (c : Fin 4) (H : ChangesOnly ps s t)
    (h : sub [.ccu, .events, .etu, .mem, .free] ps = true) : ChangesOnly ps s (countChannel c t) :=
  .chain (a := [.ccu, .events, .etu, .mem, .free]) (by
    unfold countChannel
    repeat' first | with_reducible first | exact ChangesOnly.refl _ _ | assumption | apply expireChain_then | apply nextFree_then | apply onChannel_then | intro _ _ _ | split | dsimp only
    all_goals rfl) H h
theorem pressLine_then (n : Fin 8) (H : ChangesOnly ps s t)
    (h : sub [.ccu] ps = true) : ChangesOnly ps s (pressLine n t) :=
  .chain (a := [.ccu]) (by
    unfold pressLine
    repeat' first | with_reducible first | exact ChangesOnly.refl _ _ | assumption | apply onChannel_then | apply onLine_then | intro _ _ _ | split | dsimp only
    all_goals rfl) H h
theorem qualifyLine_then (n : Fin 8) (H : ChangesOnly ps s t)
    (h : sub [.ccu, .etu, .mem] ps = true) : ChangesOnly ps s (qualifyLine n t) :=
  .chain (a := [.ccu, .etu, .mem]) (by
    unfold qualifyLine
    repeat' first | with_reducible first | exact ChangesOnly.refl _ _ | assumption | apply onLine_then | apply pressLine_then | apply sourceEvent_then | intro _ _ _ | split | dsimp only
    all_goals rfl) H h
theorem sampleLine_then (n : Fin 8) (H : ChangesOnly ps s t)
    (h : sub [.ccu, .etu, .mem] ps = true) : ChangesOnly ps s (sampleLine n t) :=
  .chain (a := [.ccu, .etu, .mem]) (by
    unfold sampleLine
    repeat' first | with_reducible first | exact ChangesOnly.refl _ _ | assumption | apply onLine_then | apply qualifyLine_then | intro _ _ _ | split | dsimp only
    all_goals rfl) H h
theorem millisecond_then (H : ChangesOnly ps s t)
    (h : sub [.ccu, .events, .etu, .mem, .free] ps = true) : ChangesOnly ps s (millisecond t) :=
  .chain (a := [.ccu, .events, .etu, .mem, .free]) (by
    unfold millisecond withHorn
    repeat' first | with_reducible first | exact ChangesOnly.refl _ _ | assumption | apply countChannel_then | apply inOrder_then | apply onCcu_then | apply sampleLine_then | intro _ _ _ | split | dsimp only
    all_goals rfl) H h
theorem writeClockSnapshot_then (H : ChangesOnly ps s t)
    (h : sub [.mem] ps = true) : ChangesOnly ps s (writeClockSnapshot t) :=
  .chain (a := [.mem]) (by
    unfold writeClockSnapshot
    repeat' first | with_reducible first | exact ChangesOnly.refl _ _ | assumption | apply anchorWrite_then | intro _ _ _ | split | dsimp only
    all_goals rfl) H h
theorem setClock_then (p : ClockSetPayload) (H : ChangesOnly ps s t)
    (h : sub [.ccu] ps = true) : ChangesOnly ps s (setClock p t).2 :=
  .chain (a := [.ccu]) (by
    unfold setClock
    repeat' first | with_reducible first | exact ChangesOnly.refl _ _ | assumption | apply onChannel_then | intro _ _ _ | split | dsimp only
    all_goals rfl) H h
theorem runStart_then (c : Fin 4) (H : ChangesOnly ps s t)
    (h : sub [.ccu] ps = true) : ChangesOnly ps s (runStart c t).2 :=
  .chain (a := [.ccu]) (by
    unfold runStart
    repeat' first | with_reducible first | exact ChangesOnly.refl _ _ | assumption | apply onChannel_then | intro _ _ _ | split | dsimp only
    all_goals rfl) H h
theorem runAdjust_then (c : Fin 4) (d : Int) (H : ChangesOnly ps s t)
    (h : sub [.ccu] ps = true) : ChangesOnly ps s (runAdjust c d t).2 :=
  .chain (a := [.ccu]) (by
    unfold runAdjust
    repeat' first | with_reducible first | exact ChangesOnly.refl _ _ | assumption | apply onChannel_then | intro _ _ _ | split | dsimp only
    all_goals rfl) H h
theorem runClock_then (c a : BitVec 8) (d : Word) (H : ChangesOnly ps s t)
    (h : sub [.ccu] ps = true) : ChangesOnly ps s (runClock c a d t).2 :=
  .chain (a := [.ccu]) (by
    unfold runClock
    repeat' first | with_reducible first | exact ChangesOnly.refl _ _ | assumption | apply onChannel_then | apply runAdjust_then | apply runStart_then | intro _ _ _ | split | dsimp only
    all_goals rfl) H h
theorem setConsole_then (p : ConsolePayload) (H : ChangesOnly ps s t)
    (h : sub [.ccu] ps = true) : ChangesOnly ps s (setConsole p t).2 :=
  .chain (a := [.ccu]) (by
    unfold setConsole
    repeat' first | with_reducible first | exact ChangesOnly.refl _ _ | assumption | apply onLine_then | intro _ _ _ | split | dsimp only
    all_goals rfl) H h
theorem setLevels_then (l : BitVec 8) (H : ChangesOnly ps s t)
    (h : sub [.ccu] ps = true) : ChangesOnly ps s (setLevels l t) :=
  .chain (a := [.ccu]) (by
    unfold setLevels
    repeat' first | with_reducible first | exact ChangesOnly.refl _ _ | assumption | apply onCcu_then | intro _ _ _ | split | dsimp only
    all_goals rfl) H h
/-! ## Cue intake (chapter 3) -/

theorem withdrawTrigger_then (e : BitVec 8) (H : ChangesOnly ps s t)
    (h : sub [.etu] ps = true) : ChangesOnly ps s (withdrawTrigger e t).2 :=
  .chain (a := [.etu]) (by
    unfold withdrawTrigger
    repeat' first | with_reducible first | exact ChangesOnly.refl _ _ | assumption | apply disarmTrigger_then | intro _ _ _ | split | dsimp only
    all_goals rfl) H h
theorem takeWithdraw_then (tgt e : BitVec 8) (g : Tag) (r : RunSlots) (H : ChangesOnly ps s t)
    (h : sub [.cle, .msu, .zar, .mem, .events, .etu] ps = true) : ChangesOnly ps s (takeWithdraw tgt e g r t).2.2 :=
  .chain (a := [.cle, .msu, .zar, .mem, .events, .etu]) (by
    unfold takeWithdraw
    repeat' first | with_reducible first | exact ChangesOnly.refl _ _ | assumption | apply withdrawClip_then | apply withdrawMessage_then | apply withdrawTrigger_then | intro _ _ _ | split | dsimp only
    all_goals rfl) H h
theorem takeLoadLayout_then (b : BitVec 8) (o : Word) (H : ChangesOnly ps s t)
    (h : sub [.zar] ps = true) : ChangesOnly ps s (takeLoadLayout b o t).2 :=
  .chain (a := [.zar]) (by
    unfold takeLoadLayout takeChecked
    repeat' first | with_reducible first | exact ChangesOnly.refl _ _ | assumption | apply setBank_then | intro _ _ _ | split | dsimp only
    all_goals rfl) H h
theorem takeSelectLayout_then (b : BitVec 8) (H : ChangesOnly ps s t)
    (h : sub [.cle, .msu, .zar, .mem, .events, .etu, .sru, .plw, .free] ps = true) : ChangesOnly ps s (takeSelectLayout b t).2 :=
  .chain (a := [.cle, .msu, .zar, .mem, .events, .etu, .sru, .plw, .free]) (by
    unfold takeSelectLayout takeChecked
    repeat' first | with_reducible first | exact ChangesOnly.refl _ _ | assumption | apply switchLayout_then | intro _ _ _ | split | dsimp only
    all_goals rfl) H h
theorem takeSponsorWrite_then (e : BitVec 8) (o : Word) (H : ChangesOnly ps s t)
    (h : sub [.sru] ps = true) : ChangesOnly ps s (takeSponsorWrite e o t).2 :=
  .chain (a := [.sru]) (by
    unfold takeSponsorWrite takeChecked
    repeat' first | with_reducible first | exact ChangesOnly.refl _ _ | assumption | apply writeEntry_then | intro _ _ _ | split | dsimp only
    all_goals rfl) H h
theorem takeActivate_then (e : BitVec 8) (H : ChangesOnly ps s t)
    (h : sub [.sru] ps = true) : ChangesOnly ps s (takeActivate e t).2 :=
  .chain (a := [.sru]) (by
    unfold takeActivate takeChecked
    repeat' first | with_reducible first | exact ChangesOnly.refl _ _ | assumption | apply activateEntry_then | intro _ _ _ | split | dsimp only
    all_goals rfl) H h
theorem takeRetire_then (e : BitVec 8) (H : ChangesOnly ps s t)
    (h : sub [.sru, .plw, .events, .mem, .free] ps = true) : ChangesOnly ps s (takeRetire e t).2 :=
  .chain (a := [.sru, .plw, .events, .mem, .free]) (by
    unfold takeRetire takeChecked
    repeat' first | with_reducible first | exact ChangesOnly.refl _ _ | assumption | apply retireEntry_then | intro _ _ _ | split | dsimp only
    all_goals rfl) H h
theorem takeSponsorState_then (e a : BitVec 8) (H : ChangesOnly ps s t)
    (h : sub [.sru, .plw, .events, .mem, .free] ps = true) : ChangesOnly ps s (takeSponsorState e a t).2 :=
  .chain (a := [.sru, .plw, .events, .mem, .free]) (by
    unfold takeSponsorState
    repeat' first | with_reducible first | exact ChangesOnly.refl _ _ | assumption | apply takeActivate_then | apply takeRetire_then | intro _ _ _ | split | dsimp only
    all_goals rfl) H h
theorem takeEnable_then (g : BitVec 8) (H : ChangesOnly ps s t)
    (h : sub [.sru, .zar, .mem] ps = true) : ChangesOnly ps s (takeEnable g t).2 :=
  .chain (a := [.sru, .zar, .mem]) (by
    unfold takeEnable takeChecked
    repeat' first | with_reducible first | exact ChangesOnly.refl _ _ | assumption | apply enableGroup_then | intro _ _ _ | split | dsimp only
    all_goals rfl) H h
theorem takeDisable_then (g : BitVec 8) (H : ChangesOnly ps s t)
    (h : sub [.sru, .plw, .events, .mem, .free, .zar] ps = true) : ChangesOnly ps s (takeDisable g t).2 :=
  .chain (a := [.sru, .plw, .events, .mem, .free, .zar]) (by
    unfold takeDisable takeChecked
    repeat' first | with_reducible first | exact ChangesOnly.refl _ _ | assumption | apply disableGroup_then | intro _ _ _ | split | dsimp only
    all_goals rfl) H h
theorem takeGroupSet_then (g a : BitVec 8) (H : ChangesOnly ps s t)
    (h : sub [.sru, .plw, .events, .mem, .free, .zar] ps = true) : ChangesOnly ps s (takeGroupSet g a t).2 :=
  .chain (a := [.sru, .plw, .events, .mem, .free, .zar]) (by
    unfold takeGroupSet
    repeat' first | with_reducible first | exact ChangesOnly.refl _ _ | assumption | apply takeDisable_then | apply takeEnable_then | intro _ _ _ | split | dsimp only
    all_goals rfl) H h
theorem takeGroupClear_then (g : BitVec 8) (H : ChangesOnly ps s t)
    (h : sub [.sru, .plw, .events, .mem, .free] ps = true) : ChangesOnly ps s (takeGroupClear g t).2 :=
  .chain (a := [.sru, .plw, .events, .mem, .free]) (by
    unfold takeGroupClear takeChecked
    repeat' first | with_reducible first | exact ChangesOnly.refl _ _ | assumption | apply clearGroup_then | intro _ _ _ | split | dsimp only
    all_goals rfl) H h
theorem takeTriggerArm_then (p : Payload) (H : ChangesOnly ps s t)
    (h : sub [.etu, .mem] ps = true) : ChangesOnly ps s (takeTriggerArm p t).2 :=
  .chain (a := [.etu, .mem]) (by
    unfold takeTriggerArm takeChecked
    repeat' first | with_reducible first | exact ChangesOnly.refl _ _ | assumption | apply armTrigger_then | intro _ _ _ | split | dsimp only
    all_goals rfl) H h
theorem takeTriggerDisarm_then (e : BitVec 8) (H : ChangesOnly ps s t)
    (h : sub [.etu] ps = true) : ChangesOnly ps s (takeTriggerDisarm e t).2 :=
  .chain (a := [.etu]) (by
    unfold takeTriggerDisarm takeChecked
    repeat' first | with_reducible first | exact ChangesOnly.refl _ _ | assumption | apply disarmTrigger_then | intro _ _ _ | split | dsimp only
    all_goals rfl) H h
theorem writeTaking_then (i : Nat) (l : Bool) (tk : Taking) (H : ChangesOnly ps s t)
    (h : sub [.mem, .events] ps = true) : ChangesOnly ps s (writeTaking i l tk t) :=
  .chain (a := [.mem, .events]) (by
    unfold writeTaking
    repeat' first | with_reducible first | exact ChangesOnly.refl _ _ | assumption | apply writeCue_then | apply writeDone_then | intro _ _ _ | split | dsimp only
    all_goals rfl) H h
theorem actMember_then (m : Member) (r : RunSlots) (H : ChangesOnly ps s t)
    (h : sub [.cle, .msu, .zar, .mem, .events, .etu, .sru, .plw, .ccu, .free] ps = true) : ChangesOnly ps s (actMember m r t).2.2 :=
  .chain (a := [.cle, .msu, .zar, .mem, .events, .etu, .sru, .plw, .ccu, .free]) (by
    unfold actMember takeStatus
    repeat' first | with_reducible first | exact ChangesOnly.refl _ _ | assumption | apply runClock_then | apply setClock_then | apply setConsole_then | apply takeClip_then | apply takeGroupClear_then | apply takeGroupSet_then | apply takeLoadLayout_then | apply takeMessage_then | apply takeSelectLayout_then | apply takeSponsorState_then | apply takeSponsorWrite_then | apply takeTriggerArm_then | apply takeTriggerDisarm_then | apply takeWithdraw_then | intro _ _ _ | split | dsimp only
    all_goals rfl) H h
theorem takeSingle_then (m : Member) (H : ChangesOnly ps s t)
    (h : sub [.cle, .msu, .zar, .mem, .events, .etu, .sru, .plw, .ccu, .free] ps = true) : ChangesOnly ps s (takeSingle m t) :=
  .chain (a := [.cle, .msu, .zar, .mem, .events, .etu, .sru, .plw, .ccu, .free]) (by
    unfold takeSingle
    repeat' first | with_reducible first | exact ChangesOnly.refl _ _ | assumption | apply actMember_then | apply writeTaking_then | intro _ _ _ | split | dsimp only
    all_goals rfl) H h
theorem writeRefusedRun_then (ms : List Member) (i : Nat) (tk : Taking) (H : ChangesOnly ps s t)
    (h : sub [.mem, .events] ps = true) : ChangesOnly ps s (writeRefusedRun ms i tk t) :=
  .chain (a := [.mem, .events]) (by
    unfold writeRefusedRun
    repeat' first | with_reducible first | exact ChangesOnly.refl _ _ | assumption | apply inOrder_then | apply writeTaking_then | intro _ _ _ | split | dsimp only
    all_goals rfl) H h
theorem actRun_only (ms : List Member) (r : RunSlots) {s u : State} (h : actRun ms r s = .ok u) :
    ChangesOnly [.cle, .msu, .zar, .mem, .events, .etu, .sru, .plw, .ccu, .free] s u := by
  induction ms generalizing r s with
  | nil => simp only [actRun, Except.ok.injEq] at h; rw [h]; exact .refl _ _
  | cons m ms ih =>
    unfold actRun at h; dsimp only at h; split at h
    · exact absurd h (by simp)
    · exact (writeTaking_then _ _ _ (actMember_then m r (.refl _ _) rfl) rfl).trans (ih _ h)

theorem handleRun_only (ms : List Member) (t : State) :
    ChangesOnly [.cle, .msu, .zar, .mem, .events, .etu, .sru, .plw, .ccu, .free] t (handleRun ms t) := by
  unfold handleRun; split
  · rename_i u h; exact actRun_only ms _ h
  · exact writeRefusedRun_then _ _ _ (.refl _ _) rfl
theorem handleRun_then (ms : List Member) (H : ChangesOnly ps s t)
    (h : sub [.cle, .msu, .zar, .mem, .events, .etu, .sru, .plw, .ccu, .free] ps = true) : ChangesOnly ps s (handleRun ms t) :=
  .chain (a := [.cle, .msu, .zar, .mem, .events, .etu, .sru, .plw, .ccu, .free]) (handleRun_only ms t) H h
theorem moveScan_then (n : Nat) (H : ChangesOnly ps s t)
    (h : sub [.ciu] ps = true) : ChangesOnly ps s (moveScan n t) :=
  .chain (a := [.ciu]) (by
    unfold moveScan
    repeat' first | with_reducible first | exact ChangesOnly.refl _ _ | assumption | apply onCiu_then | intro _ _ _ | split | dsimp only
    all_goals rfl) H h
theorem setRefusing_then (b : Bool) (H : ChangesOnly ps s t)
    (h : sub [.ciu] ps = true) : ChangesOnly ps s (setRefusing b t) :=
  .chain (a := [.ciu]) (by
    unfold setRefusing
    repeat' first | with_reducible first | exact ChangesOnly.refl _ _ | assumption | apply onCiu_then | intro _ _ _ | split | dsimp only
    all_goals rfl) H h
theorem refuseTooLong_then (i : Nat) (r : CueRecord) (H : ChangesOnly ps s t)
    (h : sub [.mem, .events, .ciu] ps = true) : ChangesOnly ps s (refuseTooLong i r t) :=
  .chain (a := [.mem, .events, .ciu]) (by
    unfold refuseTooLong
    repeat' first | with_reducible first | exact ChangesOnly.refl _ _ | assumption | apply moveScan_then | apply setRefusing_then | apply writeTaking_then | intro _ _ _ | split | dsimp only
    all_goals rfl) H h
theorem scanStep_only (b : Nat) (r : Nat × State) {s : State} (h : scanStep b s = some r) :
    ChangesOnly [.cle, .msu, .zar, .mem, .events, .etu, .sru, .plw, .ccu, .free, .ciu] s r.2 := by
  unfold scanStep at h; dsimp only at h
  (repeat' split at h) <;> cases h <;> (repeat' first | with_reducible first | exact ChangesOnly.refl _ _ | apply refuseTooLong_then | apply setRefusing_then | apply moveScan_then | apply handleRun_then | apply takeSingle_then | split | dsimp only) <;> rfl

theorem scanFuel_only (n b : Nat) (t : State) :
    ChangesOnly [.cle, .msu, .zar, .mem, .events, .etu, .sru, .plw, .ccu, .free, .ciu] t (scanFuel n b t).2 := by
  induction n generalizing t b with
  | zero => exact .refl _ _
  | succ n ih =>
    unfold scanFuel; split
    · exact .refl _ _
    · rename_i r h; exact (scanStep_only b r h).trans (ih _ _)
theorem scanFuel_then (n b : Nat) (H : ChangesOnly ps s t)
    (h : sub [.cle, .msu, .zar, .mem, .events, .etu, .sru, .plw, .ccu, .free, .ciu] ps = true) : ChangesOnly ps s (scanFuel n b t).2 :=
  .chain (a := [.cle, .msu, .zar, .mem, .events, .etu, .sru, .plw, .ccu, .free, .ciu]) (scanFuel_only n b t) H h
theorem scan_then (H : ChangesOnly ps s t)
    (h : sub [.cle, .msu, .zar, .mem, .events, .etu, .sru, .plw, .ccu, .free, .ciu] ps = true) : ChangesOnly ps s (scan t) :=
  .chain (a := [.cle, .msu, .zar, .mem, .events, .etu, .sru, .plw, .ccu, .free, .ciu]) (by
    unfold scan
    repeat' first | with_reducible first | exact ChangesOnly.refl _ _ | assumption | apply anchorWrite_then | apply scanFuel_then | intro _ _ _ | split | dsimp only
    all_goals rfl) H h
theorem ciuFrameStart_then (H : ChangesOnly ps s t)
    (h : sub [.cle, .msu, .zar, .mem, .events, .etu, .sru, .plw, .ccu, .free, .ciu] ps = true) : ChangesOnly ps s (ciuFrameStart t) :=
  .chain (a := [.cle, .msu, .zar, .mem, .events, .etu, .sru, .plw, .ccu, .free, .ciu]) (by
    unfold ciuFrameStart
    repeat' first | with_reducible first | exact ChangesOnly.refl _ _ | assumption | apply scan_then | intro _ _ _ | split | dsimp only
    all_goals rfl) H h
theorem ciuHandling_then (levels : BitVec 8) (H : ChangesOnly ps s t)
    (h : sub [.cle, .msu, .zar, .mem, .events, .etu, .sru, .plw, .ccu, .free, .ciu] ps = true) :
    ChangesOnly ps s (ciuHandling levels t) :=
  .chain (a := [.cle, .msu, .zar, .mem, .events, .etu, .sru, .plw, .ccu, .free, .ciu]) (by
    unfold ciuHandling
    repeat' first | with_reducible first | exact ChangesOnly.refl _ _ | assumption | apply ciuFrameStart_then | apply setLevels_then | apply onCiu_then | intro _ _ _ | split | dsimp only
    all_goals rfl) H h
/-- What a scan that meets a retract leaves: the scan of the retracted list, the scan as it is, or the scan with the
record's state word EMPTY after it. -/
theorem scanMeetsRetract_cases (levels : BitVec 8) (i : Nat) (hostFirst : Bool) (s : State) :
    (hostFirst = true ∧ scanMeetsRetract levels i hostFirst s = ciuHandling levels (s.hostRetract i)) ∨
    (hostFirst = false ∧ (ciuHandling levels s).mem.word (cueOffset s i) ≠ s.mem.word (cueOffset s i) ∧
      scanMeetsRetract levels i hostFirst s = ciuHandling levels s) ∨
    (hostFirst = false ∧ (ciuHandling levels s).mem.word (cueOffset s i) = s.mem.word (cueOffset s i) ∧
      scanMeetsRetract levels i hostFirst s = (ciuHandling levels s).hostRetract i) := by
  cases hostFirst
  · by_cases h : (ciuHandling levels s).mem.word (cueOffset s i) = s.mem.word (cueOffset s i) <;>
      simp [scanMeetsRetract, h]
  · exact .inl ⟨rfl, rfl⟩
theorem ciuReset_then (H : ChangesOnly ps s t)
    (h : sub [.ciu] ps = true) : ChangesOnly ps s (ciuReset t) :=
  .chain (a := [.ciu]) (by
    unfold ciuReset
    repeat' first | with_reducible first | exact ChangesOnly.refl _ _ | assumption | apply onCiu_then | apply scan_then | intro _ _ _ | split | dsimp only
    all_goals rfl) H h
/-! ## Compositor (chapter 5) -/

theorem reportLinks_then (H : ChangesOnly ps s t)
    (h : sub [.mem, .events] ps = true) : ChangesOnly ps s (reportLinks t) :=
  .chain (a := [.mem, .events]) (by
    unfold reportLinks
    repeat' first | with_reducible first | exact ChangesOnly.refl _ _ | assumption | apply anchorWrite_then | apply raise_then | intro _ _ _ | split | dsimp only
    all_goals rfl) H h
theorem closeLinks_then (H : ChangesOnly ps s t)
    (h : sub [.clo, .mem, .events] ps = true) : ChangesOnly ps s (closeLinks t) :=
  .chain (a := [.clo, .mem, .events]) (by
    unfold closeLinks
    repeat' first | with_reducible first | exact ChangesOnly.refl _ _ | assumption | apply onClo_then | apply reportLinks_then | intro _ _ _ | split | dsimp only
    all_goals rfl) H h
theorem answerLink_then (n : Fin 4) (H : ChangesOnly ps s t)
    (h : sub [.clo, .mem, .events] ps = true) : ChangesOnly ps s (answerLink n t) :=
  .chain (a := [.clo, .mem, .events]) (by
    unfold answerLink
    repeat' first | with_reducible first | exact ChangesOnly.refl _ _ | assumption | apply onLink_then | apply reportLinks_then | intro _ _ _ | split | dsimp only
    all_goals rfl) H h
theorem issueReport_then (f : Frame) (r : List ReportEntry) (w : Claimant) (H : ChangesOnly ps s t)
    (h : sub [.cle, .msu, .sru, .plw, .mem, .events, .etu, .free] ps = true) : ChangesOnly ps s (issueReport f r w t) :=
  .chain (a := [.cle, .msu, .sru, .plw, .mem, .events, .etu, .free]) (by
    unfold issueReport
    repeat' first | with_reducible first | exact ChangesOnly.refl _ _ | assumption | apply clipReport_then | apply groupReport_then | apply messageReport_then | intro _ _ _ | split | dsimp only
    all_goals rfl) H h
theorem closeAndReport_then (H : ChangesOnly ps s t)
    (h : sub [.cle, .msu, .sru, .plw, .mem, .events, .etu, .free, .clo] ps = true) : ChangesOnly ps s (closeAndReport t) :=
  .chain (a := [.cle, .msu, .sru, .plw, .mem, .events, .etu, .free, .clo]) (by
    unfold closeAndReport
    repeat' first | with_reducible first | exact ChangesOnly.refl _ _ | assumption | apply closeLinks_then | apply inFreeOrder_then | apply issueReport_then | apply onClo_then | intro _ _ _ | split | dsimp only
    all_goals rfl) H h
theorem contentRequest_then (f : Frame) (z : ZoneMask) (w : Claimant) (H : ChangesOnly ps s t)
    (h : sub [.cle, .msu, .zar, .mem, .events, .etu, .sru, .plw, .free] ps = true) : ChangesOnly ps s (contentRequest f z w t).2 :=
  .chain (a := [.cle, .msu, .zar, .mem, .events, .etu, .sru, .plw, .free]) (by
    unfold contentRequest
    repeat' first | with_reducible first | exact ChangesOnly.refl _ _ | assumption | apply clipRequest_then | apply groupRequest_then | apply messageRequest_then | intro _ _ _ | split | dsimp only
    all_goals rfl) H h
theorem askAll_only (f : Frame) (v : List ViewEntry) (ws : List Claimant) (t : State) :
    ChangesOnly [.cle, .msu, .zar, .mem, .events, .etu, .sru, .plw, .free] t (askAll f v ws t).2 := by
  unfold askAll
  refine List.foldlRecOn ws _ (motive := fun (acc : List (Claimant × Answer) × State) => ChangesOnly [.cle, .msu, .zar, .mem, .events, .etu, .sru, .plw, .free] t acc.2)
    (.refl _ _) fun acc hacc w _ => ?_
  exact contentRequest_then f _ w hacc rfl
theorem askAll_then (f : Frame) (v : List ViewEntry) (ws : List Claimant) (H : ChangesOnly ps s t)
    (h : sub [.cle, .msu, .zar, .mem, .events, .etu, .sru, .plw, .free] ps = true) : ChangesOnly ps s (askAll f v ws t).2 :=
  .chain (a := [.cle, .msu, .zar, .mem, .events, .etu, .sru, .plw, .free]) (askAll_only f v ws t) H h
theorem viewAndCompose_then (f : Frame) (H : ChangesOnly ps s t)
    (h : sub [.cle, .msu, .zar, .mem, .events, .etu, .sru, .plw, .free, .clo] ps = true) : ChangesOnly ps s (viewAndCompose f t) :=
  .chain (a := [.cle, .msu, .zar, .mem, .events, .etu, .sru, .plw, .free, .clo]) (by
    unfold viewAndCompose
    repeat' first | with_reducible first | exact ChangesOnly.refl _ _ | assumption | apply askAll_then | apply nextFree_then | apply onClo_then | intro _ _ _ | split | dsimp only
    all_goals rfl) H h
theorem cloFrameStart_then (f : Frame) (H : ChangesOnly ps s t)
    (h : sub [.cle, .msu, .zar, .mem, .events, .etu, .sru, .plw, .free, .clo] ps = true) : ChangesOnly ps s (cloFrameStart f t) :=
  .chain (a := [.cle, .msu, .zar, .mem, .events, .etu, .sru, .plw, .free, .clo]) (by
    unfold cloFrameStart
    repeat' first | with_reducible first | exact ChangesOnly.refl _ _ | assumption | apply closeAndReport_then | apply viewAndCompose_then | intro _ _ _ | split | dsimp only
    all_goals rfl) H h
theorem cloReset_then (H : ChangesOnly ps s t)
    (h : sub [.clo] ps = true) : ChangesOnly ps s (cloReset t) :=
  .chain (a := [.clo]) (by
    unfold cloReset
    repeat' first | with_reducible first | exact ChangesOnly.refl _ _ | assumption | apply onClo_then | intro _ _ _ | split | dsimp only
    all_goals rfl) H h
/-! ## Frame timing (chapter 2) -/

theorem deliver_then (H : ChangesOnly ps s t)
    (h : sub [.due, .ciu, .clo, .msu, .plw, .ccu, .etu] ps = true) : ChangesOnly ps s (deliver t) :=
  .chain (a := [.due, .ciu, .clo, .msu, .plw, .ccu, .etu]) (fun p hp => by cases p <;> first | rfl | cases hp) H h
theorem writeReference_then (H : ChangesOnly ps s t)
    (h : sub [.mem] ps = true) : ChangesOnly ps s (writeReference t) :=
  .chain (a := [.mem]) (by
    unfold writeReference
    repeat' first | with_reducible first | exact ChangesOnly.refl _ _ | assumption | apply anchorWrite_then | intro _ _ _ | split | dsimp only
    all_goals rfl) H h
theorem reportLock_then (H : ChangesOnly ps s t)
    (h : sub [.mem, .events] ps = true) : ChangesOnly ps s (reportLock t) :=
  .chain (a := [.mem, .events]) (by
    unfold reportLock
    repeat' first | with_reducible first | exact ChangesOnly.refl _ _ | assumption | apply raise_then | apply writeReference_then | intro _ _ _ | split | dsimp only
    all_goals rfl) H h
theorem enterFree_then (H : ChangesOnly ps s t)
    (h : sub [.mem, .events, .ftu] ps = true) : ChangesOnly ps s (enterFree t) :=
  .chain (a := [.mem, .events, .ftu]) (by
    unfold enterFree
    repeat' first | with_reducible first | exact ChangesOnly.refl _ _ | assumption | apply onFtu_then | apply reportLock_then | intro _ _ _ | split | dsimp only
    all_goals rfl) H h
theorem enterAcquiring_then (H : ChangesOnly ps s t)
    (h : sub [.mem, .events, .ftu] ps = true) : ChangesOnly ps s (enterAcquiring t) :=
  .chain (a := [.mem, .events, .ftu]) (by
    unfold enterAcquiring
    repeat' first | with_reducible first | exact ChangesOnly.refl _ _ | assumption | apply onFtu_then | apply reportLock_then | intro _ _ _ | split | dsimp only
    all_goals rfl) H h
theorem readSettings_then (H : ChangesOnly ps s t)
    (h : sub [.ftu] ps = true) : ChangesOnly ps s (readSettings t) :=
  .chain (a := [.ftu]) (by
    unfold readSettings
    repeat' first | with_reducible first | exact ChangesOnly.refl _ _ | assumption | apply onFtu_then | intro _ _ _ | split | dsimp only
    all_goals rfl) H h
theorem actOnEnable_then (H : ChangesOnly ps s t)
    (h : sub [.mem, .events, .ftu] ps = true) : ChangesOnly ps s (actOnEnable t) :=
  .chain (a := [.mem, .events, .ftu]) (by
    unfold actOnEnable
    repeat' first | with_reducible first | exact ChangesOnly.refl _ _ | assumption | apply enterAcquiring_then | apply enterFree_then | intro _ _ _ | split | dsimp only
    all_goals rfl) H h
theorem markKeptEntry_then (H : ChangesOnly ps s t)
    (h : sub [.ftu] ps = true) : ChangesOnly ps s (markKeptEntry t) :=
  .chain (a := [.ftu]) (fun p hp => by cases p <;> first | rfl | cases hp) H h
theorem settingsAtStart_then (H : ChangesOnly ps s t)
    (h : sub [.mem, .events, .ftu] ps = true) : ChangesOnly ps s (settingsAtStart t) :=
  .chain (a := [.mem, .events, .ftu]) (by
    unfold settingsAtStart
    repeat' first | with_reducible first | exact ChangesOnly.refl _ _ | assumption | apply actOnEnable_then | apply readSettings_then | apply markKeptEntry_then | intro _ _ _ | split | dsimp only
    all_goals rfl) H h
theorem scheduleByPeriod_then (H : ChangesOnly ps s t)
    (h : sub [.ftu] ps = true) : ChangesOnly ps s (scheduleByPeriod t) :=
  .chain (a := [.ftu]) (by
    unfold scheduleByPeriod
    repeat' first | with_reducible first | exact ChangesOnly.refl _ _ | assumption | apply onFtu_then | intro _ _ _ | split | dsimp only
    all_goals rfl) H h
theorem beginFrame_then (tick : Nat) (H : ChangesOnly ps s t)
    (h : sub [.events, .due, .ciu, .clo, .msu, .plw, .ccu, .etu, .ftu, .mem] ps = true) : ChangesOnly ps s (beginFrame tick t) :=
  .chain (a := [.events, .due, .ciu, .clo, .msu, .plw, .ccu, .etu, .ftu, .mem]) (by
    unfold beginFrame
    repeat' first | with_reducible first | exact ChangesOnly.refl _ _ | assumption | apply anchorWrite_then | apply deliver_then | apply onFtu_then | apply settingsAtStart_then | intro _ _ _ | split | dsimp only
    all_goals rfl) H h
theorem placeAfterIssue_then (H : ChangesOnly ps s t)
    (h : sub [.ftu] ps = true) : ChangesOnly ps s (placeAfterIssue t) :=
  .chain (a := [.ftu]) (by
    unfold placeAfterIssue
    repeat' first | with_reducible first | exact ChangesOnly.refl _ _ | assumption | apply scheduleByPeriod_then | intro _ _ _ | split | dsimp only
    all_goals rfl) H h
theorem issueAt_then (tick : Nat) (H : ChangesOnly ps s t)
    (h : sub [.events, .due, .ciu, .clo, .msu, .plw, .ccu, .etu, .ftu, .mem] ps = true) : ChangesOnly ps s (issueAt tick t) :=
  .chain (a := [.events, .due, .ciu, .clo, .msu, .plw, .ccu, .etu, .ftu, .mem]) (by
    unfold issueAt
    repeat' first | with_reducible first | exact ChangesOnly.refl _ _ | assumption | apply beginFrame_then | apply placeAfterIssue_then | intro _ _ _ | split | dsimp only
    all_goals rfl) H h
theorem placeByPeriod_then (tick : Nat) (H : ChangesOnly ps s t)
    (h : sub [.events, .due, .ciu, .clo, .msu, .plw, .ccu, .etu, .ftu, .mem] ps = true) : ChangesOnly ps s (placeByPeriod tick t) :=
  .chain (a := [.events, .due, .ciu, .clo, .msu, .plw, .ccu, .etu, .ftu, .mem]) (by
    unfold placeByPeriod
    repeat' first | with_reducible first | exact ChangesOnly.refl _ _ | assumption | apply issueAt_then | apply scheduleByPeriod_then | intro _ _ _ | split | dsimp only
    all_goals rfl) H h
theorem frameStart_then (H : ChangesOnly ps s t)
    (h : sub [.events, .due, .ciu, .clo, .msu, .plw, .ccu, .etu, .ftu, .mem] ps = true) : ChangesOnly ps s (frameStart t) :=
  .chain (a := [.events, .due, .ciu, .clo, .msu, .plw, .ccu, .etu, .ftu, .mem]) (by
    unfold frameStart
    repeat' first | with_reducible first | exact ChangesOnly.refl _ _ | assumption | apply issueAt_then | apply onFtu_then | intro _ _ _ | split | dsimp only
    all_goals rfl) H h
theorem propose_then (e : Nat) (H : ChangesOnly ps s t)
    (h : sub [.events, .due, .ciu, .clo, .msu, .plw, .ccu, .etu, .ftu, .mem] ps = true) : ChangesOnly ps s (propose e t) :=
  .chain (a := [.events, .due, .ciu, .clo, .msu, .plw, .ccu, .etu, .ftu, .mem]) (by
    unfold propose
    repeat' first | with_reducible first | exact ChangesOnly.refl _ _ | assumption | apply issueAt_then | apply onFtu_then | intro _ _ _ | split | dsimp only
    all_goals rfl) H h
theorem enterLocked_then (e : Nat) (H : ChangesOnly ps s t)
    (h : sub [.events, .due, .ciu, .clo, .msu, .plw, .ccu, .etu, .ftu, .mem] ps = true) : ChangesOnly ps s (enterLocked e t) :=
  .chain (a := [.events, .due, .ciu, .clo, .msu, .plw, .ccu, .etu, .ftu, .mem]) (by
    unfold enterLocked
    repeat' first | with_reducible first | exact ChangesOnly.refl _ _ | assumption | apply onFtu_then | apply propose_then | apply reportLock_then | intro _ _ _ | split | dsimp only
    all_goals rfl) H h
theorem edgeAcquiring_then (e : Nat) (H : ChangesOnly ps s t)
    (h : sub [.events, .due, .ciu, .clo, .msu, .plw, .ccu, .etu, .ftu, .mem] ps = true) : ChangesOnly ps s (edgeAcquiring e t) :=
  .chain (a := [.events, .due, .ciu, .clo, .msu, .plw, .ccu, .etu, .ftu, .mem]) (by
    unfold edgeAcquiring
    repeat' first | with_reducible first | exact ChangesOnly.refl _ _ | assumption | apply enterLocked_then | apply onFtu_then | apply writeReference_then | intro _ _ _ | split | dsimp only
    all_goals rfl) H h
theorem edgeLocked_then (e : Nat) (H : ChangesOnly ps s t)
    (h : sub [.events, .due, .ciu, .clo, .msu, .plw, .ccu, .etu, .ftu, .mem] ps = true) : ChangesOnly ps s (edgeLocked e t) :=
  .chain (a := [.events, .due, .ciu, .clo, .msu, .plw, .ccu, .etu, .ftu, .mem]) (by
    unfold edgeLocked
    repeat' first | with_reducible first | exact ChangesOnly.refl _ _ | assumption | apply enterAcquiring_then | apply onFtu_then | apply placeByPeriod_then | apply propose_then | apply writeReference_then | intro _ _ _ | split | dsimp only
    all_goals rfl) H h
theorem referenceEdge_then (e : Nat) (H : ChangesOnly ps s t)
    (h : sub [.events, .due, .ciu, .clo, .msu, .plw, .ccu, .etu, .ftu, .mem] ps = true) : ChangesOnly ps s (referenceEdge e t) :=
  .chain (a := [.events, .due, .ciu, .clo, .msu, .plw, .ccu, .etu, .ftu, .mem]) (by
    unfold referenceEdge
    repeat' first | with_reducible first | exact ChangesOnly.refl _ _ | assumption | apply edgeAcquiring_then | apply edgeLocked_then | apply enterAcquiring_then | apply placeByPeriod_then | intro _ _ _ | split | dsimp only
    all_goals rfl) H h
theorem reachTick_then (tick : Nat) (H : ChangesOnly ps s t)
    (h : sub [.ftu] ps = true) : ChangesOnly ps s (reachTick tick t) :=
  .chain (a := [.ftu]) (by
    unfold reachTick
    repeat' first | with_reducible first | exact ChangesOnly.refl _ _ | assumption | apply onFtu_then | intro _ _ _ | split | dsimp only
    all_goals rfl) H h
theorem enterHoldover_then (H : ChangesOnly ps s t)
    (h : sub [.events, .due, .ciu, .clo, .msu, .plw, .ccu, .etu, .ftu, .mem] ps = true) : ChangesOnly ps s (enterHoldover t) :=
  .chain (a := [.events, .due, .ciu, .clo, .msu, .plw, .ccu, .etu, .ftu, .mem]) (by
    unfold enterHoldover
    repeat' first | with_reducible first | exact ChangesOnly.refl _ _ | assumption | apply onFtu_then | apply placeByPeriod_then | apply reportLock_then | intro _ _ _ | split | dsimp only
    all_goals rfl) H h
theorem reachPresent_then (H : ChangesOnly ps s t)
    (h : sub [.ftu, .free] ps = true) : ChangesOnly ps s (reachPresent t) :=
  .chain (a := [.ftu, .free]) (fun p hp => by cases p <;> first | rfl | cases hp) H h
theorem ftuReset_then (H : ChangesOnly ps s t)
    (h : sub [.events, .due, .ciu, .clo, .msu, .plw, .ccu, .etu, .ftu, .mem] ps = true) : ChangesOnly ps s (ftuReset t) :=
  .chain (a := [.events, .due, .ciu, .clo, .msu, .plw, .ccu, .etu, .ftu, .mem]) (by
    unfold ftuReset
    repeat' first | with_reducible first | exact ChangesOnly.refl _ _ | assumption | apply onFtu_then | apply placeByPeriod_then | intro _ _ _ | split | dsimp only
    all_goals rfl) H h
theorem takeBackEntry_then (H : ChangesOnly ps s t)
    (h : sub [.mem, .events, .ftu] ps = true) : ChangesOnly ps s (takeBackEntry t) :=
  .chain (a := [.mem, .events, .ftu]) (by
    unfold takeBackEntry
    split
    · split
      · exact writeReference_then (fun p hp => by cases p <;> first | rfl | cases hp) rfl
      · exact ChangesOnly.refl _ _
    · exact ChangesOnly.refl _ _) H h
theorem settingsAtSuccess_then (H : ChangesOnly ps s t)
    (h : sub [.events, .due, .ciu, .clo, .msu, .plw, .ccu, .etu, .ftu, .mem] ps = true) : ChangesOnly ps s (settingsAtSuccess t) :=
  .chain (a := [.events, .due, .ciu, .clo, .msu, .plw, .ccu, .etu, .ftu, .mem]) (by
    unfold settingsAtSuccess
    repeat' first | with_reducible first | exact ChangesOnly.refl _ _ | assumption | apply onFtu_then | apply placeByPeriod_then | apply actOnEnable_then | apply takeBackEntry_then | apply readSettings_then | intro _ _ _ | split | dsimp only
    all_goals rfl) H h
/-! ## Show memory port (chapter 1) -/

theorem endAnchor_then (H : ChangesOnly ps s t)
    (h : sub [.smp] ps = true) : ChangesOnly ps s (endAnchor t) :=
  .chain (a := [.smp]) (fun p hp => by cases p <;> first | rfl | cases hp) H h
theorem writeAnchorRegister_then (v : Word) (H : ChangesOnly ps s t)
    (h : sub [.smp] ps = true) : ChangesOnly ps s (writeAnchorRegister v t) :=
  .chain (a := [.smp]) (by
    unfold writeAnchorRegister
    repeat' first | with_reducible first | exact ChangesOnly.refl _ _ | assumption | apply endAnchor_then | apply onSmp_core_then | intro _ _ _ | split | dsimp only
    all_goals first | rfl | exact fun _ => ⟨rfl, rfl⟩) H h
theorem setRunBit_then (b : Bool) (H : ChangesOnly ps s t)
    (h : sub [.smp] ps = true) : ChangesOnly ps s (setRunBit b t) :=
  .chain (a := [.smp]) (fun p hp => by cases p <;> first | rfl | cases hp) H h
theorem enterStarting_then (H : ChangesOnly ps s t)
    (h : sub [.smp, .events, .due, .mem] ps = true) : ChangesOnly ps s (enterStarting t) :=
  .chain (a := [.smp, .events, .due, .mem]) (by
    unfold enterStarting
    repeat' first | with_reducible first | exact ChangesOnly.refl _ _ | assumption | apply endAnchor_then | apply onSmp_then | apply setDev_then | intro _ _ _ | split | dsimp only
    all_goals rfl) H h
theorem abandonStart_then (H : ChangesOnly ps s t)
    (h : sub [.smp, .mem] ps = true) : ChangesOnly ps s (abandonStart t) :=
  .chain (a := [.smp, .mem]) (by
    unfold abandonStart
    repeat' first | with_reducible first | exact ChangesOnly.refl _ _ | assumption | apply onSmp_core_then | apply setDev_then | intro _ _ _ | split | dsimp only
    all_goals first | rfl | exact fun _ => ⟨rfl, rfl⟩) H h
theorem haltDevice_then (H : ChangesOnly ps s t)
    (h : sub [.cle, .msu, .zar, .mem, .smp, .events, .etu, .sru, .plw, .free] ps = true) : ChangesOnly ps s (haltDevice t) :=
  .chain (a := [.cle, .msu, .zar, .mem, .smp, .events, .etu, .sru, .plw, .free]) (by
    unfold haltDevice
    repeat' first | with_reducible first | exact ChangesOnly.refl _ _ | assumption | apply cleHalt_then | apply msuHalt_then | apply removeAllClaims_then | apply setDev_then | apply sruHalt_then | intro _ _ _ | split | dsimp only
    all_goals rfl) H h
theorem writeRun_then (b : Bool) (H : ChangesOnly ps s t)
    (h : sub [.cle, .msu, .zar, .mem, .smp, .events, .due, .etu, .sru, .plw, .free] ps = true) : ChangesOnly ps s (writeRun b t) :=
  .chain (a := [.cle, .msu, .zar, .mem, .smp, .events, .due, .etu, .sru, .plw, .free]) (by
    unfold writeRun
    repeat' first | with_reducible first | exact ChangesOnly.refl _ _ | assumption | apply abandonStart_then | apply enterStarting_then | apply haltDevice_then | apply setRunBit_then | intro _ _ _ | split | dsimp only
    all_goals rfl) H h
theorem zarReset_then (H : ChangesOnly ps s t)
    (h : sub [.zar] ps = true) : ChangesOnly ps s (zarReset t) :=
  .chain (a := [.zar]) (by
    unfold zarReset
    repeat' first | with_reducible first | exact ChangesOnly.refl _ _ | assumption | apply onZar_then | intro _ _ _ | split | dsimp only
    all_goals rfl) H h
theorem resetDevice_then (c : ResetCause) (H : ChangesOnly ps s t)
    (h : sub [.smp, .events, .due, .ciu, .zar, .clo, .cle, .msu, .sru, .plw, .etu, .ftu, .mem, .ccu, .free] ps = true) : ChangesOnly ps s (resetDevice c t) :=
  .chain (a := [.smp, .events, .due, .ciu, .zar, .clo, .cle, .msu, .sru, .plw, .etu, .ftu, .mem, .ccu, .free]) (by
    unfold resetDevice
    repeat' first | with_reducible first | exact ChangesOnly.refl _ _ | assumption | apply ciuReset_then | apply cleReset_then | apply cloReset_then | apply etuReset_then | apply ftuReset_then | apply reachPresent_then | apply msuReset_then | apply onSmp_then | apply plwReset_then | apply sruReset_then | apply zarReset_then | intro _ _ _ | split | dsimp only
    all_goals rfl) H h
theorem writeControl_then (v : Word) (H : ChangesOnly ps s t)
    (h : sub [.smp, .events, .due, .ciu, .zar, .clo, .cle, .msu, .sru, .plw, .etu, .ftu, .mem, .ccu, .free] ps = true) : ChangesOnly ps s (writeControl v t) :=
  .chain (a := [.smp, .events, .due, .ciu, .zar, .clo, .cle, .msu, .sru, .plw, .etu, .ftu, .mem, .ccu, .free]) (by
    unfold writeControl
    repeat' first | with_reducible first | exact ChangesOnly.refl _ _ | assumption | apply resetDevice_then | apply writeRun_then | intro _ _ _ | split | dsimp only
    all_goals rfl) H h
theorem powerOn_then (H : ChangesOnly ps s t)
    (h : sub [.smp, .events, .due, .ciu, .zar, .clo, .cle, .msu, .sru, .plw, .etu, .ftu, .mem, .ccu, .free] ps = true) : ChangesOnly ps s (powerOn t) :=
  .chain (a := [.smp, .events, .due, .ciu, .zar, .clo, .cle, .msu, .sru, .plw, .etu, .ftu, .mem, .ccu, .free]) (fun p hp => by cases p <;> first | rfl | cases hp) H h
theorem clearEvents_then (v : Word) (H : ChangesOnly ps s t)
    (h : sub [.events] ps = true) : ChangesOnly ps s (clearEvents v t) :=
  .chain (a := [.events]) (fun p hp => by cases p <;> first | rfl | cases hp) H h
theorem writeEnables_then (v : Word) (H : ChangesOnly ps s t)
    (h : sub [.smp] ps = true) : ChangesOnly ps s (writeEnables v t) :=
  .chain (a := [.smp]) (fun p hp => by cases p <;> first | rfl | cases hp) H h
theorem writeWindow_then (o : BitVec 8) (v : Word) (H : ChangesOnly ps s t)
    (h : sub [.smp, .events, .due, .ciu, .zar, .clo, .cle, .msu, .sru, .plw, .etu, .ftu, .mem, .ccu, .free] ps = true) : ChangesOnly ps s (writeWindow o v t) :=
  .chain (a := [.smp, .events, .due, .ciu, .zar, .clo, .cle, .msu, .sru, .plw, .etu, .ftu, .mem, .ccu, .free]) (by
    unfold writeWindow
    repeat' first | with_reducible first | exact ChangesOnly.refl _ _ | assumption | apply clearEvents_then | apply writeAnchorRegister_then | apply writeControl_then | apply writeEnables_then | intro _ _ _ | split | dsimp only
    all_goals rfl) H h
theorem takeAnchor_then (H : ChangesOnly ps s t)
    (h : sub [.smp, .ciu, .clo, .plw, .sru, .cle, .msu] ps = true) : ChangesOnly ps s (takeAnchor t) :=
  .chain (a := [.smp, .ciu, .clo, .plw, .sru, .cle, .msu]) (fun p hp => by cases p <;> first | rfl | cases hp) H h
theorem writePartArea_then (H : ChangesOnly ps s t)
    (h : sub [.mem] ps = true) : ChangesOnly ps s (writePartArea t) :=
  .chain (a := [.mem]) (by
    unfold writePartArea
    repeat' first | with_reducible first | exact ChangesOnly.refl _ _ | assumption | apply anchorWrite_then | intro _ _ _ | split | dsimp only
    all_goals rfl) H h
theorem startSuccess_then (b : Bool) (zs : List ZoneDef) (H : ChangesOnly ps s t)
    (h : sub [.smp, .events, .due, .ciu, .clo, .plw, .sru, .cle, .msu, .zar, .mem, .free, .ccu, .etu, .ftu] ps = true) : ChangesOnly ps s (startSuccess b zs t) :=
  .chain (a := [.smp, .events, .due, .ciu, .clo, .plw, .sru, .cle, .msu, .zar, .mem, .free, .ccu, .etu, .ftu]) (by
    unfold startSuccess
    repeat' first | with_reducible first | exact ChangesOnly.refl _ _ | assumption | apply loadCommon_then | apply setDev_then | apply takeAnchor_then | apply writePartArea_then | apply settingsAtSuccess_then | intro _ _ _ | split | dsimp only
    all_goals rfl) H h
theorem startFail_then (c : FaultCode) (H : ChangesOnly ps s t)
    (h : sub [.smp, .events, .mem] ps = true) : ChangesOnly ps s (startFail c t) :=
  .chain (a := [.smp, .events, .mem]) (by
    unfold startFail
    repeat' first | with_reducible first | exact ChangesOnly.refl _ _ | assumption | apply onSmp_core_then | apply raise_then | apply setDev_then | intro _ _ _ | split | dsimp only
    all_goals first | rfl | exact fun _ => ⟨rfl, rfl⟩) H h
theorem anchorCheck_then (b : Bool) (H : ChangesOnly ps s t)
    (h : sub [.smp, .events, .due, .ciu, .clo, .plw, .sru, .cle, .msu, .zar, .mem, .free, .ccu, .etu, .ftu] ps = true) : ChangesOnly ps s (anchorCheck b t) :=
  .chain (a := [.smp, .events, .due, .ciu, .clo, .plw, .sru, .cle, .msu, .zar, .mem, .free, .ccu, .etu, .ftu]) (by
    unfold anchorCheck
    repeat' first | with_reducible first | exact ChangesOnly.refl _ _ | assumption | apply startFail_then | apply startSuccess_then | intro _ _ _ | split | dsimp only
    all_goals rfl) H h
theorem setMissCount_then (n : Nat) (H : ChangesOnly ps s t)
    (h : sub [.smp, .mem] ps = true) : ChangesOnly ps s (setMissCount n t) :=
  .chain (a := [.smp, .mem]) (by
    unfold setMissCount
    repeat' first | with_reducible first | exact ChangesOnly.refl _ _ | assumption | apply anchorWrite_then | apply onSmp_core_then | intro _ _ _ | split | dsimp only
    all_goals first | rfl | exact fun _ => ⟨rfl, rfl⟩) H h
theorem enterFallback_then (H : ChangesOnly ps s t)
    (h : sub [.cle, .zar, .mem, .smp, .events, .etu, .sru, .free] ps = true) : ChangesOnly ps s (enterFallback t) :=
  .chain (a := [.cle, .zar, .mem, .smp, .events, .etu, .sru, .free]) (by
    unfold enterFallback
    repeat' first | with_reducible first | exact ChangesOnly.refl _ _ | assumption | apply cleFallback_then | apply raise_then | apply setDev_then | apply sruFallback_then | intro _ _ _ | split | dsimp only
    all_goals rfl) H h
theorem resume_then (H : ChangesOnly ps s t)
    (h : sub [.smp, .events, .mem, .cle] ps = true) : ChangesOnly ps s (resume t) :=
  .chain (a := [.smp, .events, .mem, .cle]) (by
    unfold resume
    repeat' first | with_reducible first | exact ChangesOnly.refl _ _ | assumption | apply onCle_then | apply raise_then | apply setDev_then | intro _ _ _ | split | dsimp only
    all_goals rfl) H h
theorem heartbeatWatch_then (H : ChangesOnly ps s t)
    (h : sub [.cle, .zar, .mem, .smp, .events, .etu, .sru, .free] ps = true) : ChangesOnly ps s (heartbeatWatch t) :=
  .chain (a := [.cle, .zar, .mem, .smp, .events, .etu, .sru, .free]) (by
    unfold heartbeatWatch
    repeat' first | with_reducible first | exact ChangesOnly.refl _ _ | assumption | apply enterFallback_then | apply onSmp_core_then | apply resume_then | apply setMissCount_then | intro _ _ _ | split | dsimp only
    all_goals first | rfl | exact fun _ => ⟨rfl, rfl⟩) H h
theorem smpHandled_then (H : ChangesOnly ps s t)
    (h : sub [.due] ps = true) : ChangesOnly ps s (smpHandled t) :=
  .chain (a := [.due]) (fun p hp => by cases p <;> first | rfl | cases hp) H h

end Sys2Proof.Machine
end

