-- ==== Sys2Proof/Laws/Memory.lean ====
section
/-! SUPPORT. Show memory: every operation keeps the canonical form, and what a byte reads as after a store. -/

namespace Sys2Proof.Machine

/-! ## Vectors -/

@[simp] theorem upd_get_self {α : Type} {n : Nat} (v : Vector α n) (i : Fin n) (f : α → α) :
    (upd v i f)[i.val] = f v[i.val] := by
  simp [upd]

theorem upd_get {α : Type} {n : Nat} (v : Vector α n) (i j : Fin n) (f : α → α) :
    (upd v i f)[j] = if j = i then f v[i] else v[j] := by
  by_cases h : j = i
  · subst h; simp
  · have : i.val ≠ j.val := fun e => h (Fin.ext e.symm)
    simp [upd, this, h]

theorem upd_get_other {α : Type} {n : Nat} (v : Vector α n) (i j : Fin n) (f : α → α) (h : j ≠ i) :
    (upd v i f)[j] = v[j] := by
  rw [upd_get, if_neg h]

/-! ## The cells a store lists -/

theorem cellsFrom_mem {a : Nat} {bs : List Byte} {c : Host.Cell} (h : c ∈ cellsFrom a bs) :
    a ≤ c.1 ∧ c.1 < a + bs.length ∧ c.1 < Config.memorySize ∧ c.2 ≠ Memory.unlisted ∧ bs[c.1 - a]? = some c.2 := by
  induction bs generalizing a with
  | nil => simp [cellsFrom] at h
  | cons b bs ih =>
    unfold cellsFrom at h
    split at h
    · obtain ⟨h1, h2, h3, h4, h5⟩ := ih h
      refine ⟨by omega, by simp; omega, h3, h4, ?_⟩
      rw [show c.1 - a = (c.1 - (a + 1)) + 1 by omega]; simpa using h5
    · rename_i hb
      rcases List.mem_cons.1 h with rfl | h
      · simp only [not_or, not_le] at hb
        simp; exact ⟨hb.2, hb.1⟩
      · obtain ⟨h1, h2, h3, h4, h5⟩ := ih h
        refine ⟨by omega, by simp; omega, h3, h4, ?_⟩
        rw [show c.1 - a = (c.1 - (a + 1)) + 1 by omega]; simpa using h5

theorem cellsFrom_sorted (a : Nat) (bs : List Byte) : (cellsFrom a bs).Pairwise (fun c d => c.1 < d.1) := by
  induction bs generalizing a with
  | nil => simp [cellsFrom]
  | cons b bs ih =>
    unfold cellsFrom
    split
    · exact ih _
    · refine List.pairwise_cons.2 ⟨fun c hc => ?_, ih _⟩
      have := (cellsFrom_mem hc).1
      show a < c.1; omega

/-- A store keeps the canonical form. -/
theorem Memory.store_wf {m : Memory} (h : m.wf) (a : Nat) (bs : List Byte) : (m.store a bs).wf := by
  obtain ⟨hs, hv⟩ := h
  refine ⟨?_, ?_⟩
  · unfold Memory.store
    refine List.pairwise_append.2 ⟨List.pairwise_append.2 ⟨hs.filter _, cellsFrom_sorted _ _, ?_⟩, hs.filter _, ?_⟩
    · intro c hc d hd
      have h1 := (List.mem_filter.1 hc).2
      have h2 := (cellsFrom_mem hd).1
      simp at h1; omega
    · intro c hc d hd
      have h2 := (List.mem_filter.1 hd).2
      simp only [decide_eq_true_eq] at h2
      rcases List.mem_append.1 hc with hc | hc
      · have h1 := (List.mem_filter.1 hc).2
        simp at h1; omega
      · have h1 := (cellsFrom_mem hc).2.1
        omega
  · intro c hc
    rcases List.mem_append.1 hc with hc | hc
    · rcases List.mem_append.1 hc with hc | hc
      · exact hv c (List.mem_filter.1 hc).1
      · exact ⟨(cellsFrom_mem hc).2.2.2.1, (cellsFrom_mem hc).2.2.1⟩
    · exact hv c (List.mem_filter.1 hc).1

theorem Memory.storeWords_wf {m : Memory} (h : m.wf) (a : Nat) (ws : List Word) : (m.storeWords a ws).wf :=
  Memory.store_wf h _ _

/-! ## Reading a byte -/

theorem lookup_filter_of_keep (m : Memory) (p : Host.Cell → Bool) (a : Nat) (h : ∀ v, p (a, v) = true) :
    (m.filter p).lookup a = m.lookup a := by
  induction m with
  | nil => rfl
  | cons c cs ih =>
    obtain ⟨x, v⟩ := c
    by_cases hp : p (x, v) = true
    · rw [List.filter_cons_of_pos hp]
      by_cases hx : a = x
      · subst hx; simp
      · simp [List.lookup_cons, beq_eq_false_iff_ne.2 hx, ih]
    · rw [List.filter_cons_of_neg hp]
      have hx : a ≠ x := fun e => hp (e ▸ h v)
      simp [List.lookup_cons, beq_eq_false_iff_ne.2 hx, ih]

theorem lookup_filter_of_drop (m : Memory) (p : Host.Cell → Bool) (a : Nat) (h : ∀ v, p (a, v) = false) :
    (m.filter p).lookup a = none := by
  induction m with
  | nil => rfl
  | cons c cs ih =>
    obtain ⟨x, v⟩ := c
    by_cases hp : p (x, v) = true
    · rw [List.filter_cons_of_pos hp]
      have hx : a ≠ x := fun e => by rw [← e, h v] at hp; exact absurd hp (by simp)
      simp [List.lookup_cons, beq_eq_false_iff_ne.2 hx, ih]
    · rw [List.filter_cons_of_neg hp]; exact ih

theorem lookup_append (xs ys : Memory) (a : Nat) :
    (xs ++ ys).lookup a = ((xs.lookup a).orElse fun _ => ys.lookup a) := by
  induction xs with
  | nil => rfl
  | cons c cs ih =>
    obtain ⟨x, v⟩ := c
    by_cases hx : a = x
    · subst hx; simp
    · simp [List.lookup_cons, beq_eq_false_iff_ne.2 hx, ih]

theorem lookup_cellsFrom_outside (a : Nat) (bs : List Byte) (x : Nat) (h : x < a ∨ a + bs.length ≤ x) :
    (cellsFrom a bs).lookup x = none := by
  induction bs generalizing a with
  | nil => rfl
  | cons b bs ih =>
    simp only [List.length_cons] at h
    unfold cellsFrom
    split
    · exact ih _ (by omega)
    · have hx : x ≠ a := by omega
      simp only [List.lookup_cons, beq_eq_false_iff_ne.2 hx]
      exact ih _ (by omega)

theorem lookup_cellsFrom_inside (a : Nat) (bs : List Byte) (x : Nat) (h1 : a ≤ x) (h2 : x < a + bs.length) :
    ((cellsFrom a bs).lookup x).getD Memory.unlisted =
      if x < Config.memorySize then (bs[x - a]?).getD Memory.unlisted else Memory.unlisted := by
  induction bs generalizing a with
  | nil => simp at h2; omega
  | cons b bs ih =>
    simp only [List.length_cons] at h2
    unfold cellsFrom
    by_cases hx : x = a
    · subst hx
      split
      · rename_i hb
        rw [lookup_cellsFrom_outside _ _ _ (by omega)]
        rcases hb with hb | hb
        · subst hb; simp
        · simp [Nat.not_lt.2 hb]
      · rename_i hb
        simp only [not_or, not_le] at hb
        simp [hb.2]
    · have e : x - a = (x - (a + 1)) + 1 := by omega
      rw [e, List.getElem?_cons_succ]
      split
      · exact ih _ (by omega) (by omega)
      · simp only [List.lookup_cons, beq_eq_false_iff_ne.2 hx]
        exact ih _ (by omega) (by omega)

/-- A byte outside the stored ones reads as before. -/
theorem Memory.get_store_outside (m : Memory) (a : Nat) (bs : List Byte) (x : Nat) (h : x < a ∨ a + bs.length ≤ x) :
    (m.store a bs).get x = m.get x := by
  unfold Memory.get Memory.store
  rw [lookup_append, lookup_append, lookup_cellsFrom_outside _ _ _ h]
  rcases Nat.lt_or_ge x a with hx | hx
  · rw [lookup_filter_of_keep _ _ _ (fun v => by simpa using hx)]
    rw [lookup_filter_of_drop _ (fun c => decide (a + bs.length ≤ c.1)) _ (fun v => by simp; omega)]
    cases m.lookup x <;> rfl
  · rw [lookup_filter_of_drop _ (fun c => decide (c.1 < a)) _ (fun v => by simp; omega)]
    rw [lookup_filter_of_keep _ _ _ (fun v => by simp; omega)]
    rfl

/-- A stored byte inside show memory reads as what was stored; outside show memory nothing is kept. -/
theorem Memory.get_store_inside (m : Memory) (a : Nat) (bs : List Byte) (x : Nat) (h1 : a ≤ x)
    (h2 : x < a + bs.length) :
    (m.store a bs).get x = if x < Config.memorySize then (bs[x - a]?).getD Memory.unlisted else Memory.unlisted := by
  rw [← lookup_cellsFrom_inside a bs x h1 h2]
  unfold Memory.get Memory.store
  rw [lookup_append, lookup_append]
  rw [lookup_filter_of_drop _ (fun c => decide (c.1 < a)) _ (fun v => by simp; omega)]
  rw [lookup_filter_of_drop _ (fun c => decide (a + bs.length ≤ c.1)) _ (fun v => by simp; omega)]
  cases (cellsFrom a bs).lookup x <;> rfl

/-! ## Words -/

@[simp] theorem bytesOf_length (w : Word) : (bytesOf w).length = 4 := rfl

@[simp] theorem flatMap_bytesOf_length (ws : List Word) : (ws.flatMap bytesOf).length = 4 * ws.length := by
  induction ws with
  | nil => rfl
  | cons w ws ih => simp [ih]; omega

/-- A byte outside the stored words reads as before. -/
theorem Memory.get_storeWords_outside (m : Memory) (a : Nat) (ws : List Word) (x : Nat)
    (h : x < a ∨ a + 4 * ws.length ≤ x) : (m.storeWords a ws).get x = m.get x :=
  Memory.get_store_outside _ _ _ _ (by rw [flatMap_bytesOf_length]; exact h)

/-- A word outside the stored words reads as before. -/
theorem Memory.word_storeWords_outside (m : Memory) (a : Nat) (ws : List Word) (x : Nat)
    (h : x + 4 ≤ a ∨ a + 4 * ws.length ≤ x) : (m.storeWords a ws).word x = m.word x := by
  unfold Memory.word
  rw [Memory.get_storeWords_outside _ _ _ _ (by omega), Memory.get_storeWords_outside _ _ _ _ (by omega),
    Memory.get_storeWords_outside _ _ _ _ (by omega), Memory.get_storeWords_outside _ _ _ _ (by omega)]

theorem flatMap_bytesOf_get (ws : List Word) (k j : Nat) (hj : j < 4) :
    (ws.flatMap bytesOf)[4 * k + j]? = (ws[k]?).bind fun w => (bytesOf w)[j]? := by
  induction ws generalizing k with
  | nil => simp
  | cons w ws ih =>
    cases k with
    | zero =>
      rw [List.flatMap_cons, List.getElem?_append_left (by simp; omega)]
      simp
    | succ k =>
      rw [List.flatMap_cons, List.getElem?_append_right (by simp; omega)]
      rw [show 4 * (k + 1) + j - (bytesOf w).length = 4 * k + j by simp; omega, ih]
      simp

theorem Memory.get_storeWords_inside (m : Memory) (a : Nat) (ws : List Word) (k j : Nat) (hk : k < ws.length)
    (hj : j < 4) (hm : a + 4 * k + 4 ≤ Config.memorySize) :
    (m.storeWords a ws).get (a + 4 * k + j) = ((bytesOf ws[k])[j]?).getD Memory.unlisted := by
  unfold Memory.storeWords
  rw [Memory.get_store_inside _ _ _ _ (by omega) (by simp; omega), if_pos (by omega),
    show a + 4 * k + j - a = 4 * k + j by omega, flatMap_bytesOf_get _ _ _ hj, List.getElem?_eq_getElem hk]
  rfl

theorem word_of_bytes (w : Word) :
    w.extractLsb' 24 8 ++ w.extractLsb' 16 8 ++ w.extractLsb' 8 8 ++ w.extractLsb' 0 8 = w := by
  ext i hi
  simp only [BitVec.getElem_append, BitVec.getElem_extractLsb']
  split
  · simp [BitVec.getElem_eq_testBit_toNat, BitVec.getLsbD]
  · split
    · rw [show 8 + (i - 8) = i by omega]; simp [BitVec.getElem_eq_testBit_toNat, BitVec.getLsbD]
    · split
      · rw [show 16 + (i - 8 - 8) = i by omega]; simp [BitVec.getElem_eq_testBit_toNat, BitVec.getLsbD]
      · rw [show 24 + (i - 8 - 8 - 8) = i by omega]; simp [BitVec.getElem_eq_testBit_toNat, BitVec.getLsbD]

/-- A stored word inside show memory reads as what was stored. -/
theorem Memory.word_storeWords (m : Memory) (a : Nat) (ws : List Word) (k : Nat) (hk : k < ws.length)
    (hm : a + 4 * k + 4 ≤ Config.memorySize) : (m.storeWords a ws).word (a + 4 * k) = ws[k] := by
  unfold Memory.word
  have h := fun j hj => Memory.get_storeWords_inside m a ws k j hk hj hm
  have h0 := h 0 (by omega)
  rw [Nat.add_zero] at h0
  rw [h0, h 1 (by omega), h 2 (by omega), h 3 (by omega)]
  exact word_of_bytes _

/-- The first of stored words. -/
theorem Memory.word_storeWords_first (m : Memory) (a : Nat) (w : Word) (ws : List Word)
    (hm : a + 4 ≤ Config.memorySize) : (m.storeWords a (w :: ws)).word a = w := by
  have h := Memory.word_storeWords m a (w :: ws) 0 (by simp) (by simpa using hm)
  exact h

/-! ## Operations of the machine that write show memory -/

theorem anchorWrite_wf {s : State} (h : s.mem.wf) (o : Nat) (ws : List Word) : (anchorWrite o ws s).mem.wf := by
  unfold anchorWrite; split
  · exact Memory.storeWords_wf h _ _
  · exact h

theorem setDev_wf {s : State} (h : s.mem.wf) (d : DevState) : (setDev d s).mem.wf :=
  anchorWrite_wf (s := s.onSmp fun m => { m with dev := d }) h _ _

theorem writeCue_wf {s : State} (h : s.mem.wf) (i : Nat) (r : CueResult) (c : Word) : (writeCue i r c s).mem.wf := by
  unfold writeCue; split
  · exact Memory.storeWords_wf (Memory.storeWords_wf h _ _) _ _
  · exact h

theorem writeDone_wf {s : State} (h : s.mem.wf) (i : Nat) (r : CueResult) : (writeDone i r s).mem.wf := by
  unfold writeDone; split
  · exact writeCue_wf h _ _ _
  · exact h

theorem completeCue_wf {s : State} (h : s.mem.wf) (e i : Nat) (r : CueResult) : (completeCue e i r s).mem.wf := by
  unfold completeCue; split
  · exact writeDone_wf h _ _
  · exact h

/-- The host's writes keep the canonical form. -/
theorem hostWrite_wf {s : State} (h : s.mem.wf) (a : Nat) (bs : List Byte) : (s.hostWrite a bs).mem.wf :=
  Memory.store_wf h _ _

/-- Show memory after reset has the canonical form. -/
theorem reset_mem_wf : State.reset.mem.wf := by decide

end Sys2Proof.Machine
end

