-- ==== Sys2Proof/Laws/PerInstr.lean ====
section
/-! SUPPORT. The statements made of every command as syntax, one lemma per constructor of `Instr`. -/

namespace Sys2Proof.Laws

/-- A hand-over names a record that a cue list can hold, and one from a trigger entry is not LATE (R9, R106, R112). -/
def handoverOk (h : Handover) : Prop :=
  match h.origin with
  | .cue i => i < 1024
  | .trigger _ => h.late = false

/-- What can be given as the operands of a command, as the rule of its row says. -/
def operandsOk : Instr → Prop
  | .anchorWrite _ => True
  | .setRun value => value.getLsbD 0 = true ∧ value.getLsbD 1 = false
  | .halt value => value.getLsbD 0 = false ∧ value.getLsbD 1 = false
  | .softReset value => value.getLsbD 1 = true
  | .eventClear _ => True
  | .eventEnableWrite _ => True
  | .controlWindowWrite offset _ => offset.getLsbD 0 = false ∧ offset.getLsbD 1 = false ∧ offset ≠ 0x00#8 ∧ offset ≠ 0x04#8 ∧
    offset ≠ 0x0C#8 ∧ offset ≠ 0x10#8
  | .linkReset => True
  | .powerOnReset => True
  | .frameStart => True
  | .referenceEdge _ => True
  | .enterLocked _ => True
  | .holdoverExpiry => True
  | .anchorCheck _ => True
  | .heartbeatWatch => True
  | .enterFallback => True
  | .ciuScan _ => True
  | .playClip from_ _ => handoverOk from_
  | .postMessage from_ _ => handoverOk from_
  | .withdraw take _ _ _ => take.index < 1024
  | .loadLayout take _ _ => take.index < 1024
  | .selectLayout take _ => take.index < 1024
  | .sponsorWrite take _ _ => take.index < 1024
  | .sponsorActivate take _ => take.index < 1024
  | .sponsorRetire take _ => take.index < 1024
  | .groupEnable take _ => take.index < 1024
  | .groupDisable take _ => take.index < 1024
  | .groupClear take _ => take.index < 1024
  | .clockSet take _ => take.index < 1024
  | .clockRunStart take _ => take.index < 1024
  | .clockRunStop take _ => take.index < 1024
  | .clockRunReset take _ => take.index < 1024
  | .clockRunAdjust take _ _ => take.index < 1024
  | .consoleSet take _ _ => take.index < 1024
  | .triggerArm take _ => take.index < 1024
  | .triggerDisarm take _ => take.index < 1024
  | .cloFrameStart => True
  | .linkDown _ => True
  | .linkAnswer _ => True
  | .clipExhausted _ => True
  | .msuFrameStart => True
  | .durationRunOut _ => True
  | .blinkPhaseChange _ => True
  | .dwellEnd _ => True
  | .holdQueueRetry => True
  | .millisecondBoundary _ => True
  | .channelExpiry _ => True
  | .consoleQualified _ => True
  | .hornPulseEnd => True
  | .clockSnapshot => True
  | .etuFrameStart => True

/-- The Boolean check of a command's operands says what the rule of its row says. -/
def WfMeans.Statement (i : Instr) : Prop := i.wf = true ↔ operandsOk i

theorem handover_wf (h : Handover) : h.wf = true ↔ handoverOk h := by
  obtain ⟨o, l⟩ := h
  cases o <;> simp [Handover.wf, handoverOk]

namespace WfMeans

theorem anchorWrite (value : Word) : Statement (.anchorWrite value) := ⟨fun _ => trivial, fun _ => rfl⟩
theorem setRun (value : Word) : Statement (.setRun value) := by
  simp [Statement, operandsOk, Instr.wf]
theorem halt (value : Word) : Statement (.halt value) := by
  simp [Statement, operandsOk, Instr.wf]
theorem softReset (value : Word) : Statement (.softReset value) := by
  simp [Statement, operandsOk, Instr.wf]
theorem eventClear (value : Word) : Statement (.eventClear value) := ⟨fun _ => trivial, fun _ => rfl⟩
theorem eventEnableWrite (value : Word) : Statement (.eventEnableWrite value) := ⟨fun _ => trivial, fun _ => rfl⟩
theorem controlWindowWrite (offset : BitVec 8) (value : Word) : Statement (.controlWindowWrite offset value) := by
  simp [Statement, operandsOk, Instr.wf, writableRegister, and_assoc]
theorem linkReset : Statement .linkReset := ⟨fun _ => trivial, fun _ => rfl⟩
theorem powerOnReset : Statement .powerOnReset := ⟨fun _ => trivial, fun _ => rfl⟩
theorem frameStart : Statement .frameStart := ⟨fun _ => trivial, fun _ => rfl⟩
theorem referenceEdge (tick : Nat) : Statement (.referenceEdge tick) := ⟨fun _ => trivial, fun _ => rfl⟩
theorem enterLocked (tick : Nat) : Statement (.enterLocked tick) := ⟨fun _ => trivial, fun _ => rfl⟩
theorem holdoverExpiry : Statement .holdoverExpiry := ⟨fun _ => trivial, fun _ => rfl⟩
theorem anchorCheck (settingsNow : Bool) : Statement (.anchorCheck settingsNow) := ⟨fun _ => trivial, fun _ => rfl⟩
theorem heartbeatWatch : Statement .heartbeatWatch := ⟨fun _ => trivial, fun _ => rfl⟩
theorem enterFallback : Statement .enterFallback := ⟨fun _ => trivial, fun _ => rfl⟩
theorem ciuScan (levels : BitVec 8) : Statement (.ciuScan levels) := ⟨fun _ => trivial, fun _ => rfl⟩
theorem playClip (from_ : Handover) (p : ClipPayload) : Statement (.playClip from_ p) := handover_wf from_
theorem postMessage (from_ : Handover) (p : MessagePayload) : Statement (.postMessage from_ p) := handover_wf from_
theorem withdraw (take : CueTake) (target : BitVec 8) (entry : BitVec 8) (tag : Tag) : Statement (.withdraw take target entry tag) := decide_eq_true_iff
theorem loadLayout (take : CueTake) (bank : BitVec 8) (offset : Word) : Statement (.loadLayout take bank offset) := decide_eq_true_iff
theorem selectLayout (take : CueTake) (bank : BitVec 8) : Statement (.selectLayout take bank) := decide_eq_true_iff
theorem sponsorWrite (take : CueTake) (entry : BitVec 8) (offset : Word) : Statement (.sponsorWrite take entry offset) := decide_eq_true_iff
theorem sponsorActivate (take : CueTake) (entry : BitVec 8) : Statement (.sponsorActivate take entry) := decide_eq_true_iff
theorem sponsorRetire (take : CueTake) (entry : BitVec 8) : Statement (.sponsorRetire take entry) := decide_eq_true_iff
theorem groupEnable (take : CueTake) (group : BitVec 8) : Statement (.groupEnable take group) := decide_eq_true_iff
theorem groupDisable (take : CueTake) (group : BitVec 8) : Statement (.groupDisable take group) := decide_eq_true_iff
theorem groupClear (take : CueTake) (group : BitVec 8) : Statement (.groupClear take group) := decide_eq_true_iff
theorem clockSet (take : CueTake) (p : ClockSetPayload) : Statement (.clockSet take p) := decide_eq_true_iff
theorem clockRunStart (take : CueTake) (channel : BitVec 8) : Statement (.clockRunStart take channel) := decide_eq_true_iff
theorem clockRunStop (take : CueTake) (channel : BitVec 8) : Statement (.clockRunStop take channel) := decide_eq_true_iff
theorem clockRunReset (take : CueTake) (channel : BitVec 8) : Statement (.clockRunReset take channel) := decide_eq_true_iff
theorem clockRunAdjust (take : CueTake) (channel : BitVec 8) (delta : Word) : Statement (.clockRunAdjust take channel delta) := decide_eq_true_iff
theorem consoleSet (take : CueTake) (levels : BitVec 8) (p : ConsolePayload) : Statement (.consoleSet take levels p) := decide_eq_true_iff
theorem triggerArm (take : CueTake) (p : Payload) : Statement (.triggerArm take p) := decide_eq_true_iff
theorem triggerDisarm (take : CueTake) (entry : BitVec 8) : Statement (.triggerDisarm take entry) := decide_eq_true_iff
theorem cloFrameStart : Statement .cloFrameStart := ⟨fun _ => trivial, fun _ => rfl⟩
theorem linkDown (link : Fin 4) : Statement (.linkDown link) := ⟨fun _ => trivial, fun _ => rfl⟩
theorem linkAnswer (link : Fin 4) : Statement (.linkAnswer link) := ⟨fun _ => trivial, fun _ => rfl⟩
theorem clipExhausted (slot : Fin 8) : Statement (.clipExhausted slot) := ⟨fun _ => trivial, fun _ => rfl⟩
theorem msuFrameStart : Statement .msuFrameStart := ⟨fun _ => trivial, fun _ => rfl⟩
theorem durationRunOut (slot : Fin 8) : Statement (.durationRunOut slot) := ⟨fun _ => trivial, fun _ => rfl⟩
theorem blinkPhaseChange (slot : Fin 8) : Statement (.blinkPhaseChange slot) := ⟨fun _ => trivial, fun _ => rfl⟩
theorem dwellEnd (group : Fin 8) : Statement (.dwellEnd group) := ⟨fun _ => trivial, fun _ => rfl⟩
theorem holdQueueRetry : Statement .holdQueueRetry := ⟨fun _ => trivial, fun _ => rfl⟩
theorem millisecondBoundary (levels : BitVec 8) : Statement (.millisecondBoundary levels) := ⟨fun _ => trivial, fun _ => rfl⟩
theorem channelExpiry (channel : Fin 4) : Statement (.channelExpiry channel) := ⟨fun _ => trivial, fun _ => rfl⟩
theorem consoleQualified (line : Fin 8) : Statement (.consoleQualified line) := ⟨fun _ => trivial, fun _ => rfl⟩
theorem hornPulseEnd : Statement .hornPulseEnd := ⟨fun _ => trivial, fun _ => rfl⟩
theorem clockSnapshot : Statement .clockSnapshot := ⟨fun _ => trivial, fun _ => rfl⟩
theorem etuFrameStart : Statement .etuFrameStart := ⟨fun _ => trivial, fun _ => rfl⟩

end WfMeans

end Sys2Proof.Laws
end

