-- ==== Sys2Proof/Tests/Slice0.lean ====
section
/-! SUPPORT. Tests: the refusals of WellFormed, steps whose results the spec's examples and tables give, and, for each
statement that has hypotheses, a witness that meets them. No expected value is the model's own answer. -/

namespace Sys2Proof.Tests

open Sys2Proof Sys2Proof.Machine

set_option Elab.async false

/-! ## Small states -/

/-- Words stored from an offset. -/
def words (a : Nat) (ws : List Nat) (m : Memory) : Memory := m.storeWords a (ws.map (BitVec.ofNat 32))

/-- An anchor block at 0x10000 that passes the checks of R9: 16 records at 0x20000, 64 log slots at 0x40000, an empty
common layout at 0x30000, heartbeat 5, window 3, free run 1,000,000, reference on, offset 50,000. -/
def anchorMem : Memory :=
  words 0x10000
    [1, 0x20000, 16, 0x28000, 0x100000, 0x30000, 0x40000, 64, 0, 0x50000, 5, 3, 1000000, 1, 50000] []

/-- A zone of group 0 on link 0. -/
def zone0 : ZoneDef :=
  { id := 0, link := 0, x := 0, y := 0, width := 100, height := 50, fill := 7, group := some 0, boxes := [] }

/-- A device state at the anchor 0x10000 with a frame start waiting in every block. -/
def withDev (d : DevState) (run inForce : Bool) : State :=
  { State.reset with
    mem := anchorMem,
    smp := { Smp.reset with anchor := 0x10000, run := run, dev := d, inForce := inForce, frameDue := true, lastSeen := 5,
                            anchorEpoch := 1 },
    ciu := { Ciu.reset with listOffset := 0x20000, listLength := 16, frameDue := true },
    plw := { Plw.reset with logOffset := 0x40000, logLength := 64, frameDue := true },
    clo := { Clo.reset with scoreOffset := 0x28000, fontOffset := 0x100000, frameDue := true },
    msu := { Msu.reset with frameDue := true }, ccu := { Ccu.reset with frameDue := true },
    etu := { Etu.reset with frameDue := true } }

/-- STARTING with its first frame start delivered. -/
def starting : State := withDev .starting true false

/-- RUNNING with zone 0 present, no claim in it. -/
def running : State :=
  (withDev .running true true).onZar fun z =>
    { z with banks := upd z.banks 0 fun _ => [zone0], table := upd z.table 0 fun _ => some ⟨0, zone0, []⟩ }

/-- Zone 0 with these claims. -/
def withClaims (cs : List Claim) (s : State) : State := s.onZar fun z => z.onClaims 0 fun _ => cs

/-- The frame in progress. -/
def atFrame (f : Frame) (s : State) : State := s.onFtu fun t => { t with frame := f }

/-- Show memory with words stored over it. -/
def withWords (a : Nat) (ws : List Nat) (s : State) : State := s.withMem (words a ws s.mem)

/-- The state a command answers with, or the state itself when it stops. -/
def andThen (i : Instr) (s : State) : State :=
  match exec i s with
  | .next t => t
  | _ => s

/-- Many commands, one after another. -/
def run (is : List Instr) (s : State) : State := is.foldl (fun t i => andThen i t) s

/-- A PLAYING clip of tag 7 in slot 0 over zone 0, with an outstanding frame or none. -/
def withClip (out : Option Frame) (s : State) : State :=
  (withClaims [⟨.clip 0, 3⟩] s).onCle fun c =>
    { c with slots := upd c.slots 0 fun x =>
      { x with state := .playing, origin := .cue 2, tag := 7, level := 3, base := 0x80000, pitch := 4096, width := 10,
               height := 10, count := 2, rep := 1, loops := 1, holdings := 1, outstanding := out, epoch := 1 } }

/-- A SHOWING message of tag 9 in slot 0 over zone 0, blinking, its count for the frame in progress still to come. -/
def withMessage (out : Option Frame) (duration : Option Nat) (s : State) : State :=
  (withClaims [⟨.message 0, 2⟩] s).onMsu fun c =>
    { c with slots := upd c.slots 0 fun x =>
      { x with state := .showing, origin := .cue 3, tag := 9, level := 2, textOffset := 0x90000, textLength := 1,
               duration := duration, blinkOn := 1, blinkOff := 2, phaseLeft := 1, crawlSpeed := 1, holdings := 1,
               outstanding := out, epoch := 1, counted := 4294967295 } }

/-- Group 0 ENABLED over zone 0. -/
def withGroup (s : State) : State :=
  (withClaims [⟨.group 0, 6⟩] s).onSru fun r =>
    { r with groups := upd r.groups 0 fun g => { g with enabled := true, zones := 1 } }

/-- A creative with a dwell of 30 frames. -/
def creative : Creative := { base := 0x70000, pitch := 4096, width := 10, height := 10, count := 2, rep := 1, dwell := 30 }

/-- Entry i ACTIVE for group 0 with a weight. -/
def withEntry (i : Fin 64) (weight : Nat) (s : State) : State :=
  s.onSru fun r =>
    { r with entries := upd r.entries i fun _ =>
      { active := true, sponsorId := 100, weight := weight, mask := 1, creatives := [creative] } }

/-- A slot of entry 0. -/
def slot0 : Slot :=
  { number := 1, entry := 0, sponsorId := 100, creative := 0, start := 0, planned := 30, remaining := 5, answered := 25,
    outstanding := none, running := 4, preemptedFrames := 0, cut := false, preClear := false, fallback := false,
    closing := false, haltedUnder := none }

/-- Group 0 with this open slot. -/
def withSlot (x : Slot) (s : State) : State :=
  s.onSru fun r => { r with groups := upd r.groups 0 fun g => { g with openSlot := some x } }

/-- A PLAY_CLIP payload that passes every check: zone 0 at level 3. -/
def clip1 : ClipPayload :=
  { zones := 1, level := 3, rep := 1, base := 0x80000, pitch := 4096, width := 10, height := 10, count := 2, loops := 1,
    endBehaviour := 0, tag := 21 }

/-- An ORDINARY POST_MESSAGE payload that passes every check: zone 0 at level 2. -/
def message1 : MessagePayload :=
  { zones := 1, cls := 0, level := 2, textOffset := 0x90000, textLength := 1, foreground := 1, background := 2, mode := 0,
    duration := 0, tag := 9, blinkOn := 0, blinkOff := 0, crawlSpeed := 0 }

/-- A play record of entry 0 in group 0. -/
def record0 : PlayRecord := slot0.record 0

/-! ## WellFormed: one ill-formed term for each check -/

/-- A record's index is below 1024 (R9 check 2). -/
theorem test_wf_refuses_cue_index : (Instr.withdraw ⟨1024, false⟩ 1 0 0).wf = false ∧
    (Instr.withdraw ⟨1023, false⟩ 1 0 0).wf = true := by decide

/-- A hand-over names a record of the list. -/
theorem test_wf_refuses_handover_index : (Instr.playClip ⟨.cue 1024, false⟩ clip1).wf = false := by decide

/-- A trigger entry's hand-over is never LATE (R106, R112). -/
theorem test_wf_refuses_late_trigger : (Instr.postMessage ⟨.trigger 0, true⟩ message1).wf = false := by decide

/-- A write that sets RUN carries bit 0 and not bit 1 (R3). -/
theorem test_wf_refuses_set_run : (Instr.setRun 0).wf = false ∧ (Instr.setRun 3).wf = false := by decide

/-- A write that clears RUN carries neither bit (R3). -/
theorem test_wf_refuses_halt : (Instr.halt 1).wf = false ∧ (Instr.halt 2).wf = false := by decide

/-- A soft reset carries bit 1 (R3, R16). -/
theorem test_wf_refuses_soft_reset : (Instr.softReset 1).wf = false := by decide

/-- A write beside the four registers names a word, and none of them (R2). -/
theorem test_wf_refuses_window_write : (Instr.controlWindowWrite 0x09 0).wf = false ∧
    (Instr.controlWindowWrite 0x0A 0).wf = false ∧ (Instr.controlWindowWrite 0x10 0).wf = false ∧
    (Instr.controlWindowWrite 0x08 0).wf = true := by decide

/-! ## Results that the spec's examples and tables give -/

/-- Before edge E6 of example 2.9: three matches, last edge E5, frame 205 begun at 8,333,335. -/
def beforeE6 : State :=
  State.reset.onFtu fun f =>
    { f with lock := .acquiring, frame := 205, lastStart := 8333335, schedule := [⟨10000002, true⟩], tick := 8333335,
             lastEdge := some 6973342, measured := 1668336, runCount := 3, runOpen := true, freeRun := 1666667,
             refEnable := true, phase := 50000 }

/-- 2.9: E6 locks with the period 1,668,334; its proposal lies before the guard tick 9,167,502 and is dropped. -/
theorem test_referenceEdge_locks : (andThen (.referenceEdge 8641676) beforeE6).ftu.lock = .locked ∧
    (andThen (.referenceEdge 8641676) beforeE6).ftu.lockedPeriod = some 1668334 ∧
    (andThen (.referenceEdge 8641676) beforeE6).ftu.guardTick = 9167502 ∧
    (andThen (.referenceEdge 8641676) beforeE6).ftu.schedule = [] := by decide +kernel

/-- 2.9: E7 proposes 10,360,009, which is taken. -/
theorem test_enterLocked_then_good_edge :
    (run [.enterLocked 8641676, .referenceEdge 10310009] beforeE6).ftu.schedule = [⟨10360009, false⟩] := by
  decide +kernel

/-- 2.9: FRAME_START of frame 206 at 10,360,009. -/
theorem test_frameStart_issues :
    (run [.enterLocked 8641676, .referenceEdge 10310009, .frameStart] beforeE6).ftu.frame = 206 ∧
    (run [.enterLocked 8641676, .referenceEdge 10310009, .frameStart] beforeE6).ftu.lastStart = 10360009 := by
  decide +kernel

/-- 2.10: no edge by T + 2,502,501, with T = 8,641,676 and a frame begun at T + 50,000: HOLDOVER, and the overdue frame
start at T + 50,000 + 1,668,334 has passed by then, so it is issued at once. -/
theorem test_holdoverExpiry_at_one_and_a_half :
    (andThen .holdoverExpiry ((andThen (.enterLocked 8641676) beforeE6).onFtu fun f =>
      { f with lastStart := 8691676 })).ftu.tick = 8641676 + 2502501 ∧
    (andThen .holdoverExpiry ((andThen (.enterLocked 8641676) beforeE6).onFtu fun f =>
      { f with lastStart := 8691676 })).ftu.lock = .holdover := by decide +kernel

/-- R11: an anchor block of format 2 faults with FORMAT, and RUN reads 0. -/
theorem test_anchorCheck_format :
    statusWord (andThen (.anchorCheck false) (withWords 0x10000 [2] starting)) = 0x00000104#32 ∧
    readRegister (andThen (.anchorCheck false) (withWords 0x10000 [2] starting)) 0x04 = 0 := by decide +kernel

/-- R10: the good anchor block starts; AV_STATUS reads RUNNING. -/
theorem test_anchorCheck_starts : statusWord (andThen (.anchorCheck false) starting) = 2 ∧
    (andThen (.anchorCheck false) starting).mem.word 0x10100 = 2 := by decide +kernel

/-- STARTING after a reset in FREE with a kept enable of 1, the frame start of the check delivered, and an anchor block
that disables the reference. -/
def keptEnable : State :=
  andThen .frameStart ((withWords 0x10034 [0] starting).onFtu fun f => { f with refEnable := true })

/-- R20: the start reads the enable 0, so the FTU is in FREE still, and no REF_STATE is raised. -/
theorem test_anchorCheck_reads_disabled : (andThen (.anchorCheck true) keptEnable).ftu.lock = .free ∧
    (andThen (.anchorCheck true) keptEnable).smp.dev = .running ∧
    pendingFlag (andThen (.anchorCheck true) keptEnable) .refState = false := by decide +kernel

/-- The stalled host of 1.7, frame 104: the third unread counter enters FALLBACK with miss count 3. -/
theorem test_heartbeatWatch_falls_back :
    (andThen .heartbeatWatch (running.onSmp fun m => { m with missCount := 2 })).smp.dev = .fallback ∧
    (andThen .heartbeatWatch (running.onSmp fun m => { m with missCount := 2 })).smp.missCount = 3 := by
  decide +kernel

/-- The stalled host of 1.7, frame 106: a changed counter resumes with miss count 0. -/
theorem test_heartbeatWatch_resumes :
    (andThen .heartbeatWatch ((withDev .fallback true true).onSmp fun m =>
      { m with missCount := 3, lastSeen := 4 })).smp.dev = .running := by decide +kernel

/-- 4.14, before clip slot 4 asks: five non-group claims by level, the group last. -/
def busy : List Claim :=
  [⟨.message 0, 2⟩, ⟨.clip 0, 3⟩, ⟨.clip 1, 3⟩, ⟨.clip 3, 4⟩, ⟨.clip 2, 5⟩, ⟨.group 2, 6⟩]

/-- 4.14: clip slot 3 at level 4 is placed before clip slot 2. -/
theorem test_claim_is_placed_by_level : insertClaim ⟨.clip 3, 4⟩
    [⟨.message 0, 2⟩, ⟨.clip 0, 3⟩, ⟨.clip 1, 3⟩, ⟨.clip 2, 5⟩, ⟨.group 2, 6⟩] = busy := by decide

/-- 4.14: a clip asking for the full zone alone is refused whole with ZONE_FULL, code 0x24. -/
theorem test_playClip_zone_full :
    let s := (withClaims busy running).onCle fun c => { c with slots := c.slots.mapIdx fun i x =>
      if i < 4 then { x with state := .playing, tag := BitVec.ofNat 16 i } else x }
    bits ((andThen (.playClip ⟨.cue 1, false⟩ { clip1 with level := 1 }) s).mem.word (0x20000 + 64 + 0x28)) 0 8 = 0x24 ∧
    (andThen (.playClip ⟨.cue 1, false⟩ { clip1 with level := 1 }) s).cle = s.cle := by decide +kernel

/-- 4.14: a SAFETY message evicts clip slot 2. -/
theorem test_postMessage_safety_evicts :
    claimsAt (andThen (.postMessage ⟨.cue 1, false⟩ { message1 with cls := 1 })
      ((withClaims busy running).onMsu fun m => { m with slots := upd m.slots 0 fun x =>
        { x with state := .showing, tag := 3 } })).zar 0 =
      [⟨.message 1, 0⟩, ⟨.message 0, 2⟩, ⟨.clip 0, 3⟩, ⟨.clip 1, 3⟩, ⟨.clip 3, 4⟩, ⟨.group 2, 6⟩] := by
  decide +kernel

/-- 3.11: with every clip slot taken, the run of a message, a clip and a withdrawal writes GROUP_REFUSED, NO_SLOT,
GROUP_REFUSED (0x2F, 0x23, 0x2F) and moves the scan to 8. -/
def refusedRun : State :=
  ((withWords 0x20140 [1, 0x102, 0, 0x02000001, 0x90000, 0x01000000, 0, 0x00330000, 0]
    (withWords 0x20180 [1, 0x101, 0, 0x01030001, 0x80000, 4096, 0x000A000A, 0x00010002, 0x77]
      (withWords 0x201C0 [1, 0x003, 0, 0x00310001] running))).onCiu fun c => { c with scan := 5 }).onCle fun c =>
        { c with slots := c.slots.map fun x => { x with state := .playing, tag := 0x31 } }

/-- The codes of 3.11. -/
theorem test_ciuScan_refused_run :
    [5, 6, 7].map (fun i => bits ((andThen (.ciuScan 0) refusedRun).mem.word (0x20000 + 64 * i + 0x28)) 0 8) =
      [0x2F, 0x23, 0x2F] ∧ (andThen (.ciuScan 0) refusedRun).ciu.scan = 8 := by decide +kernel

/-- 3.10: a record with not-before frame 502 waits at frame 501 and is taken without LATE at frame 502. -/
def timedRecord : State :=
  withWords 0x20000 [1, 0x201, 502, 0x01030001, 0x80000, 4096, 0x000A000A, 0x00010002, 0x77] running

/-- The frames of 3.10. -/
theorem test_ciuScan_timed : (andThen (.ciuScan 0) (atFrame 501 timedRecord)).mem.word 0x20000 = 1 ∧
    (andThen (.ciuScan 0) (atFrame 502 timedRecord)).mem.word 0x20000 = 2 ∧
    ((andThen (.ciuScan 0) (atFrame 502 timedRecord)).mem.word 0x20028).getLsbD 8 = false ∧
    ((andThen (.ciuScan 0) (atFrame 503 timedRecord)).mem.word 0x20028).getLsbD 8 = true := by decide +kernel

/-- R33: a retract that meets the scan stops it when the host's write is first; read first, the record is taken, and the
TAKEN that the part writes replaces the EMPTY. -/
theorem test_scan_meets_retract :
    (scanMeetsRetract 0 0 true (atFrame 502 timedRecord)).mem.word 0x20000 = 0 ∧
    (scanMeetsRetract 0 0 true (atFrame 502 timedRecord)).ciu.scan = 0 ∧
    (scanMeetsRetract 0 0 false (atFrame 502 timedRecord)).mem.word 0x20000 = 2 ∧
    (scanMeetsRetract 0 0 false (atFrame 501 timedRecord)).mem.word 0x20000 = 0 := by decide +kernel

/-- 5.10: the third ended frame without an answer takes the link down, with LINK_STATE. -/
theorem test_linkDown_at_third_miss :
    (andThen (.linkDown 2) (running.onClo fun c => { c with links := upd c.links 2 fun _ => ⟨true, 2, false⟩ })).clo.links[
      (2 : Fin 4)] = ⟨false, 3, false⟩ ∧
    (andThen (.linkDown 2) (running.onClo fun c => { c with links := upd c.links 2 fun _ => ⟨true, 1, false⟩ })).clo.links[
      (2 : Fin 4)] = ⟨true, 1, false⟩ := by decide +kernel

/-- 5.10: an answer during frame 904 brings the link up with miss count 0 and sets bit 2 of the link states. -/
theorem test_linkAnswer_brings_up : (andThen (.linkAnswer 2) running).clo.links[(2 : Fin 4)] = ⟨true, 0, true⟩ ∧
    (andThen (.linkAnswer 2) running).mem.word 0x10124 = 4 := by decide +kernel

/-- 7.9: a message with blink on 2 and off 1 shows OFF in frame 302. -/
theorem test_msuFrameStart_blinks :
    let s := (withMessage none (some 5) (atFrame 302 running)).onMsu fun m =>
      { m with slots := upd m.slots 0 fun x => { x with blinkOn := 2, blinkOff := 1, phaseLeft := 1, counted := 301 } }
    (andThen .msuFrameStart s).msu.slots[(0 : Fin 8)].phase = .off ∧
    (andThen .msuFrameStart s).msu.slots[(0 : Fin 8)].phaseLeft = 1 ∧
    (andThen .msuFrameStart s).msu.slots[(0 : Fin 8)].duration = some 4 := by decide +kernel

/-- 8.11: one report with k = 2 over weights 500, 300 and 200 moves the balances by −1,000, +600 and +400. -/
theorem test_groupReport_credits :
    let s := withSlot { slot0 with outstanding := some 9 } (withEntry 0 500 (withEntry 1 300 (withEntry 2 200 running)))
    let e : Nat → ReportEntry := fun z =>
      { zone := Fin.ofNat 16 z, head := some (.group 0), drawn := .creative 0 1 0x70000 10 10, lit := true }
    let as := (groupReport 0 9 [e 2, e 3] s).sru.accounts[(0 : Fin 8)]
    (as[(0 : Fin 64)].balance, as[(1 : Fin 64)].balance, as[(2 : Fin 64)].balance, as[(0 : Fin 64)].delivered) =
      (-1000, 600, 400, 2) := by decide +kernel

/-- R138, R142: the snapshot of a close is omitted for a slot cut by a halt under an earlier anchor, and for no other. -/
theorem test_closeSlot_snapshot_of_halted_slot :
    let count := fun h => (closeSlot 0 (withSlot { slot0 with haltedUnder := h } running)).sru.groups[(0 : Fin 8)].snapshots
    (count none, count (some 1), count (some 0)) = (1, 1, 0) := by decide +kernel

/-- R134, R142: a halt marks the current slot that it cuts, and leaves a slot as it was whose dwell had ended before it. -/
theorem test_sruHalt_marks_cut_slot :
    let s := fun c => withSlot { slot0 with outstanding := some 9, closing := c } (withGroup running)
    (sruHalt (s false)).sru.groups[(0 : Fin 8)].openSlot =
      some { slot0 with outstanding := some 9, closing := true, cut := true, haltedUnder := some 1 } ∧
    (sruHalt (s true)).sru.groups[(0 : Fin 8)].openSlot = (s true).sru.groups[(0 : Fin 8)].openSlot := by decide +kernel

/-- R133: with a repeat of 2 and 3 frames, the answer after 7 frames is source frame 0, after 4 it is source frame 2. -/
theorem test_groupRequest_source_frame :
    let s := (withGroup running).onSru fun r =>
      { r with entries := upd r.entries 0 fun _ =>
        { active := true, sponsorId := 100, weight := 1, mask := 1,
          creatives := [{ creative with rep := 2, count := 3 }] } }
    (groupRequest 0 9 (withSlot { slot0 with answered := 7 } s)).1 = .creative 0 1 0x70000 10 10 ∧
    (groupRequest 0 9 (withSlot { slot0 with answered := 4 } s)).1 = .creative 0 1 0x72000 10 10 := by decide +kernel

/-- 9.8: read index 13 and write index 9 leave room for three records of the five held. -/
theorem test_holdQueueRetry_until_full :
    let s := (withWords 0x10020 [13] running).onPlw fun p =>
      { p with writeIndex := 9, hold := List.replicate 5 record0 }
    (andThen .holdQueueRetry s).plw.writeIndex = 12 ∧ (andThen .holdQueueRetry s).plw.hold.length = 2 := by
  decide +kernel

/-- 9.9: a read index of 70 in a log of 64 is reported once. -/
theorem test_holdQueueRetry_bad_index :
    (andThen .holdQueueRetry (withWords 0x10020 [70] running)).plw.badIndex = some 70 ∧
    pendingFlag (andThen .holdQueueRetry (withWords 0x10020 [70] running)) .logIndexBad = true ∧
    pendingFlag (andThen .holdQueueRetry ((withWords 0x10020 [70] running).onPlw fun p =>
      { p with badIndex := some 70 })) .logIndexBad = false := by decide +kernel

/-- 10.10, boundary 11,500: channel 0 reaches 0, its pulse of 2,000 replaces the one running, and the TALLY counts 3. -/
def endOfPeriod : State :=
  running.onCcu fun u =>
    { u with horn := 401, channels := upd (upd (upd u.channels 0 fun c =>
      { c with count := 1, preset := 720000, state := .running, hornEnable := true, hornLength := 2000 }) 1 fun c =>
      { c with state := .expired }) 2 fun c =>
      { c with mode := .tally, limit := 4, source := 0, count := 2, state := .running } }

/-- The row of 10.10. -/
theorem test_millisecondBoundary_end_of_period :
    let t := andThen (.millisecondBoundary 0) endOfPeriod
    t.ccu.channels.toList.map Channel.count = [0, 0, 3, 0] ∧ t.ccu.channels[(0 : Fin 4)].state = .expired ∧
    t.ccu.horn = 2000 ∧ hornLine t = true := by decide +kernel

/-- R156: CHANNEL_EXPIRY is the last count, from 1 to 0, and no expiry of a channel that a RESET loaded with 0. -/
theorem test_channelExpiry_counts :
    (andThen (.channelExpiry 0) endOfPeriod).ccu.channels.toList.map Channel.count = [0, 0, 3, 0] ∧
    (andThen (.channelExpiry 0) endOfPeriod).ccu.channels[(0 : Fin 4)].expiries = 1 ∧
    (let s := running.onCcu fun u => { u with channels := upd u.channels 0 fun c => { c with state := .running } }
     andThen (.channelExpiry 0) s = s) := by decide +kernel

/-- R157: the expiry of a tally one short of its limit is begun by its source, which counts and expires with it; with the
source away from its last count the command acts on nothing. -/
theorem test_channelExpiry_of_tally :
    (let s := endOfPeriod.onCcu fun u => { u with channels := upd u.channels 2 fun c => { c with limit := 3 } }
     andThen (.channelExpiry 2) s = andThen (.channelExpiry 0) s ∧
     (andThen (.channelExpiry 2) s).ccu.channels.toList.map Channel.state = [.expired, .expired, .expired, .stopped]) ∧
    (let s := endOfPeriod.onCcu fun u =>
       { u with channels := upd (upd u.channels 2 fun c => { c with limit := 3 }) 0 fun c => { c with count := 2 } }
     andThen (.channelExpiry 2) s = s) := by decide +kernel

/-- 10.11, boundary 50,001: STOP and START gathered, the channel counts to 95,299 and is STOPPED. -/
theorem test_millisecondBoundary_stop_wins :
    let t := andThen (.millisecondBoundary 0) (running.onCcu fun u => { u with channels := upd u.channels 0 fun c =>
      { c with count := 95300, state := .running, reqStart := true, reqStop := true } })
    t.ccu.channels[(0 : Fin 4)].count = 95299 ∧ t.ccu.channels[(0 : Fin 4)].state = .stopped := by decide +kernel

/-- 10.10: an ADJUST by −600 of the stopped clock brings it to 0 with no expiry. -/
theorem test_clockRunAdjust_to_zero :
    let t := andThen (.clockRunAdjust ⟨1, false⟩ 0 (BitVec.ofInt 32 (-600))) (running.onCcu fun u =>
      { u with channels := upd u.channels 0 fun c => { c with count := 600 } })
    t.ccu.channels[(0 : Fin 4)].count = 0 ∧ t.ccu.channels[(0 : Fin 4)].expiries = 0 := by decide +kernel

/-- 11.7: line 3 qualifies, the entry is pending with fire count 1. -/
theorem test_consoleQualified_fires :
    let s := (running.onCcu fun u => { u with lines := upd u.lines 3 fun l =>
        { l with action := .triggerOnly, qualifying := some (true, 1) } }).onEtu fun u =>
      { u with entries := upd u.entries 1 fun e =>
        { e with armed := true, rearm := true, source := some (.consoleLine 3), action := some (.clip clip1) } }
    (andThen (.consoleQualified 3) s).etu.entries[(1 : Fin 8)].report.fires = 1 ∧
    (run [.consoleQualified 3, .etuFrameStart] s).etu.entries[(1 : Fin 8)].armed = true ∧
    (run [.consoleQualified 3, .etuFrameStart] s).cle.slots[(0 : Fin 8)].state = .playing := by decide +kernel

/-- The strings of R88's table, as character codes. -/
theorem test_score_strings : scoreString 3 false 0 = [0x20, 0x20, 0x30] ∧ scoreString 3 true 0 = [0x30, 0x30, 0x30] ∧
    scoreString 2 false 42 = [0x34, 0x32] ∧ scoreString 4 true 42 = [0x30, 0x30, 0x34, 0x32] ∧
    scoreString 3 false 1234 = [0x39, 0x39, 0x39] ∧ scoreString 3 false (-7) = [0x20, 0x2D, 0x37] ∧
    scoreString 3 true (-7) = [0x2D, 0x30, 0x37] ∧ scoreString 3 false (-99) = [0x2D, 0x39, 0x39] ∧
    scoreString 3 false (-150) = [0x2D, 0x39, 0x39] ∧ scoreString 1 false (-3) = [0x2D] := by decide +kernel

/-- The strings of R89's table: 12:00, 1:01, 1:00, 59.9, 9.1, 0.1, 0.0. -/
theorem test_clock_strings_down :
    [720000, 60001, 60000, 59950, 59949, 59900, 9001, 1, 0].map (clockString .mmssTenths .countDown) =
      [[0x31, 0x32, 0x3A, 0x30, 0x30], [0x31, 0x3A, 0x30, 0x31], [0x31, 0x3A, 0x30, 0x30], [0x31, 0x3A, 0x30, 0x30],
       [0x31, 0x3A, 0x30, 0x30], [0x35, 0x39, 0x2E, 0x39], [0x39, 0x2E, 0x31], [0x30, 0x2E, 0x31],
       [0x30, 0x2E, 0x30]] := by decide +kernel

/-- The strings of R89 and R90 for COUNT_UP and the other formats. -/
theorem test_clock_strings_up : clockString .mmssTenths .countUp 59999 = [0x35, 0x39, 0x2E, 0x39] ∧
    clockString .mmssTenths .countUp 60000 = [0x31, 0x3A, 0x30, 0x30] ∧
    clockString .seconds .countDown 1 = [0x31] ∧ clockString .mmss .countUp 59999 = [0x30, 0x3A, 0x35, 0x39] := by
  decide +kernel

/-- An empty queue idles; a command in front runs. -/
theorem test_step_runs_front : step (State.reset.withPending [.linkAnswer 0]) = exec (.linkAnswer 0) State.reset := rfl

/-! ## Witnesses: states and operands that meet the hypotheses of each statement, each clause at a boundary -/

theorem witness_StepTakesFrontCommand : State.reset.pending = [] := rfl

theorem witness_AnchorAndRunWritesByDeviceState :
    State.reset.smp.dev = .halted ∧ (withDev .faulted false false).smp.dev = .faulted ∧
    starting.smp.dev = .starting ∧ running.smp.dev = .running ∧ (withDev .fallback true true).smp.dev = .fallback ∧
    ((1 : Word).getLsbD 0 = true ∧ (1 : Word).getLsbD 1 = false ∧ State.reset.smp.run = false) ∧
    running.smp.run = true ∧
    ((0 : Word).getLsbD 0 = false ∧ (0 : Word).getLsbD 1 = false ∧ starting.smp.run = true ∧
      starting.smp.inForce = false) := by decide +kernel

/-- The clause on a busy slot with slot 0, the clause on an idle one with slot 7. -/
theorem witness_HaltStopsDevice :
    (let s := withClip (some 4) (withGroup running)
     s.smp.run = true ∧ s.smp.dev = .running ∧ s.cle.slots[(0 : Fin 8)].working = true ∧
     s.cle.slots[(0 : Fin 8)].outstanding = some 4 ∧ s.cle.slots[(7 : Fin 8)].working = false ∧
     s.sru.groups[(0 : Fin 8)].enabled = true) ∧
    (∀ c : Bool, let s := withSlot { slot0 with outstanding := some 4, closing := c } (withGroup running)
     s.sru.groups[(0 : Fin 8)].openSlot = some { slot0 with outstanding := some 4, closing := c } ∧
     s.sru.groups[(0 : Fin 8)].enabled = true ∧ s.smp.run = true ∧ s.smp.dev = .running) ∧
    (let s := withMessage (some 4) none (withDev .fallback true true)
     s.smp.dev = .fallback ∧ s.smp.run = true ∧ s.msu.slots[(0 : Fin 8)].working = true ∧
     s.msu.slots[(0 : Fin 8)].outstanding = some 4 ∧ s.msu.slots[(7 : Fin 8)].working = false) ∧
    (let s := withDev .running true false
     s.smp.run = true ∧ s.smp.inForce = false) ∧
    (let s := (withGroup running).onSru fun r => { r with snapshotOffset := 0x50000 }
     s.smp.inForce = true ∧ CueListInside s ∧ ListApart s ∧ LogInside s ∧ SnapshotInside s ∧
     s.sru.groups[(0 : Fin 8)].enabled = true) := by decide +kernel

/-- Whatever tick is the present one: the scheduled frame start bounds it at the tick placed by period, and a count that
has gone past that tick (HOLDOVER) puts it beyond. -/
theorem witness_ResetsReachEveryBlock : (2 : Word).getLsbD 1 = true ∧
    (State.reset.ftu.schedule = ⟨1666667, true⟩ :: [] ∧
      max State.reset.ftu.tick 1666667 ≤ State.reset.ftu.lastStart + State.reset.ftu.freeRun) ∧
    (let s := State.reset.onFtu fun f => { f with tick := 1666668, schedule := [⟨2000000, true⟩] }
     s.ftu.lastStart + s.ftu.freeRun < s.ftu.tick) := by decide +kernel

theorem witness_EventRegistersFollowHostWrites : (Instr.controlWindowWrite 0x08 1).wf = true ∧
    (Instr.controlWindowWrite 0xFC 1).wf = true := by decide +kernel

theorem witness_FrameStartDelivered :
    (State.reset.onFtu fun f => { f with schedule := [] }).ftu.schedule = [] ∧
    (State.reset.ftu.schedule = ⟨1666667, true⟩ :: [] ∧ State.reset.ftu.tick ≤ 1666667 ∧
      State.reset.smp.anchor.toNat % 4096 = 0 ∧ State.reset.smp.inForce = false) ∧
    (running.ftu.schedule = ⟨1666667, true⟩ :: [] ∧ running.ftu.tick ≤ 1666667 ∧
      running.smp.anchor.toNat % 4096 = 0 ∧ running.smp.inForce = true) := by decide +kernel

/-- The reference turned off in LOCKED, and turned on in FREE. -/
theorem witness_FrameStartReadsSettingsAndPlaces :
    (let s := (withWords 0x10034 [0] running).onFtu fun f => { f with lock := .locked, lockedPeriod := some 1668334 }
     s.ftu.schedule = ⟨1666667, true⟩ :: [] ∧ s.ftu.tick ≤ 1666667 ∧ s.ftu.lock ≠ .free ∧
     (andThen .frameStart s).ftu.lock = .free) ∧
    (running.ftu.schedule = ⟨1666667, true⟩ :: [] ∧ running.ftu.tick ≤ 1666667 ∧ running.ftu.lock = .free ∧
      (andThen .frameStart running).ftu.lock = .acquiring) := by decide +kernel

/-- ACQUIRING with a last edge at 1,000 and a run of two matches of 400,000. -/
def acquiring : State :=
  running.onFtu fun f =>
    { f with lock := .acquiring, lastEdge := some 1000, measured := 400000, runCount := 2, runOpen := true }

/-- Periods at the ends of the range, a first period, a match at exactly 0.1%, a mismatch one tick beyond it. -/
theorem witness_EdgesOutsideLockMeasured :
    (running.ftu.lock = .free ∧ running.ftu.tick ≤ 0 ∧ running.smp.anchor.toNat % 4096 = 0) ∧
    ((acquiring.onFtu fun f => { f with lastEdge := none }).ftu.lastEdge = none) ∧
    (acquiring.ftu.lock = .acquiring ∧ acquiring.ftu.lastEdge = some 1000 ∧ acquiring.ftu.tick ≤ 400999 ∧
      400999 - 1000 < 400000 ∧ 4200000 < 4201001 - 1000 ∧ 400000 ≤ 401000 - 1000 ∧ 4201000 - 1000 ≤ 4200000) ∧
    (acquiring.onFtu fun f => { f with runOpen := false }).ftu.runOpen = false ∧
    (acquiring.ftu.runOpen = true ∧ acquiring.ftu.runCount ≠ 3 ∧
      (max (401400 - 1000) acquiring.ftu.measured - min (401400 - 1000) acquiring.ftu.measured) * 1000 ≤
        acquiring.ftu.measured ∧
      acquiring.ftu.measured <
        (max (401401 - 1000) acquiring.ftu.measured - min (401401 - 1000) acquiring.ftu.measured) * 1000) ∧
    (andThen (.referenceEdge 401400) acquiring).ftu.lock = .acquiring := by decide +kernel

/-- Example 2.9: edge E6 with its proposal before the guard tick, with an offset that reaches it, and with no offset at
an edge that does; and edges that lock nothing. -/
theorem witness_FourthMatchEntersLocked :
    running.ftu.lock ≠ .acquiring ∧
    (beforeE6.ftu.tick ≤ 8641676 ∧ beforeE6.ftu.lock = .acquiring ∧ beforeE6.ftu.lastEdge = some 6973342 ∧
      400000 ≤ 8641676 - 6973342 ∧ 8641676 - 6973342 ≤ 4200000 ∧ beforeE6.ftu.runOpen = true ∧
      beforeE6.ftu.runCount = 3 ∧ (max 1668334 beforeE6.ftu.measured - min 1668334 beforeE6.ftu.measured) * 1000 ≤
        beforeE6.ftu.measured ∧ 0 < beforeE6.ftu.phase.toNat ∧ 8641676 + 50000 < 8333335 + 1668334 / 2) ∧
    (let s := beforeE6.onFtu fun f => { f with phase := 525826 }
     0 < s.ftu.phase.toNat ∧ 8333335 + 1668334 / 2 ≤ 8641676 + min s.ftu.phase.toNat (1668334 - 1)) ∧
    (let s := beforeE6.onFtu fun f => { f with phase := 0, tick := 7000000, lastStart := 7000000 }
     s.ftu.phase.toNat = 0 ∧ (s.ftu.schedule.filter fun x => !x.byPeriod) = [] ∧
     s.ftu.lastStart + 1668334 / 2 ≤ 8641676 ∧ s.smp.anchor.toNat % 4096 = 0) ∧
    (4200000 < 11173343 - 6973342 ∧ beforeE6.ftu.tick ≤ 11173343) ∧
    beforeE6.ftu.measured < (max 1670005 beforeE6.ftu.measured - min 1670005 beforeE6.ftu.measured) * 1000 := by
  decide +kernel

/-- LOCKED with the period 1,000,000, the last edge and the last frame start at 0. -/
def locked (slips : Nat) : State :=
  running.onFtu fun f =>
    { f with lock := .locked, lockedPeriod := some 1000000, lastEdge := some 0, slipCount := slips, phase := 50000,
             schedule := [], refEnable := true }

/-- A good edge exactly 0.1% late, a first slip one tick beyond that; proposals before and at the guard tick; and with no
offset an edge at the guard tick. -/
theorem witness_LockedEdgeGoodOrFirstSlip :
    ((locked 0).ftu.tick ≤ 1001000 ∧ (locked 0).ftu.lock = .locked ∧ (locked 0).ftu.lastEdge = some 0 ∧
      (locked 0).ftu.lockedPeriod = some 1000000 ∧ 0 < (locked 0).ftu.phase.toNat ∧
      (max 1001000 1000000 - min 1001000 1000000) * 1000 ≤ 1000000 ∧ 500000 ≤ 1001000 + 50000) ∧
    ((locked 0).ftu.slipCount = 0 ∧ ¬(max 1001001 1000000 - min 1001001 1000000) * 1000 ≤ 1000000) ∧
    ((locked 0).ftu.slipCount = 0 ∧ ¬(max 449999 1000000 - min 449999 1000000) * 1000 ≤ 1000000 ∧
      449999 + 50000 < 500000) ∧
    (let s := (locked 0).onFtu fun f => { f with phase := 0, lastStart := 501000 }
     s.ftu.phase.toNat = 0 ∧ s.ftu.schedule = [] ∧ s.ftu.lastStart + 1000000 / 2 = 1001000 ∧
     s.smp.anchor.toNat % 4096 = 0 ∧ s.smp.inForce = true ∧ anchorWord s 0x34 = 1 ∧
     anchorWord (withWords 0x10034 [0] s) 0x34 = 0) := by decide +kernel

/-- A second slip and an edge in HOLDOVER with the next frame start ahead; either with an empty schedule, one tick after
the frame start by period was due, the reference enabled and disabled in the anchor. -/
theorem witness_SecondSlipOrHoldoverEdgeReacquires :
    ((locked 1).ftu.tick ≤ 1000000 - 1001 ∧ (locked 1).ftu.lockedPeriod = some 1000000 ∧ (locked 1).ftu.lock = .locked ∧
      (locked 1).ftu.lastEdge = some 0 ∧ (locked 1).ftu.slipCount ≠ 0 ∧
      1000000 < (max 998999 1000000 - min 998999 1000000) * 1000 ∧ 998999 ≤ (locked 1).ftu.lastStart + 1000000) ∧
    (let s := (locked 0).onFtu fun f => { f with lock := .holdover, schedule := [⟨1000000, true⟩] }
     s.ftu.lock = .holdover ∧ s.ftu.lockedPeriod = some 1000000 ∧ s.ftu.schedule ≠ []) ∧
    (let s := (locked 0).onFtu fun f => { f with lock := .holdover }
     s.ftu.lock = .holdover ∧ s.ftu.lockedPeriod = some 1000000 ∧ s.ftu.schedule = [] ∧ s.ftu.tick ≤ 1000001 ∧
     s.ftu.lastStart + 1000000 < 1000001 ∧ s.smp.anchor.toNat % 4096 = 0 ∧ s.smp.inForce = true ∧
     anchorWord s 0x34 = 1 ∧ anchorWord (withWords 0x10034 [0] s) 0x34 = 0) ∧
    ((locked 1).ftu.schedule = [] ∧ (locked 1).ftu.lastStart + 1000000 < 1001001 ∧
      1000000 < (max 1001001 1000000 - min 1001001 1000000) * 1000) := by decide +kernel

/-- The overdue frame start issued at once, and the one that still lies ahead, at the same tick; with an anchor in force
and with none, the reference enabled and disabled. -/
theorem witness_HoldoverKeepsLockedRate :
    running.ftu.lock ≠ .locked ∧
    (let s := (locked 0).onSmp fun m => { m with inForce := false }
     s.ftu.lock = .locked ∧ s.ftu.lastEdge = some 0 ∧ s.ftu.lockedPeriod = some 1000000 ∧ s.ftu.schedule = [] ∧
     s.ftu.tick ≤ 0 + 1000000 + 1000000 / 2 ∧ s.smp.inForce = false ∧ s.ftu.refEnable = true ∧
     s.ftu.lastStart + 1000000 < 0 + 1000000 + 1000000 / 2 ∧ s.smp.anchor.toNat % 4096 = 0) ∧
    ((locked 0).smp.inForce = true ∧ anchorWord (locked 0) 0x34 = 1 ∧
      anchorWord (withWords 0x10034 [0] (locked 0)) 0x34 = 0) ∧
    (let s := (locked 0).onFtu fun f => { f with lastStart := 500000 }
     0 + 1000000 + 1000000 / 2 ≤ s.ftu.lastStart + 1000000) := by decide +kernel

/-- One anchor block for each fault code, the lengths one outside their ranges. -/
theorem witness_FailedStartFaults :
    (starting.smp.frameDue = true ∧ starting.smp.dev = .starting ∧ starting.smp.inForce = false) ∧
    anchorWord (withWords 0x10000 [2] starting) 0x00 ≠ 1 ∧
    ((anchorWord (withWords 0x10008 [15] starting) 0x08).toNat < 16 ∧
      1024 < (anchorWord (withWords 0x10008 [1025] starting) 0x08).toNat ∧
      anchorWord (withWords 0x10008 [15] starting) 0x00 = 1) ∧
    ((anchorWord (withWords 0x1001C [63] starting) 0x1C).toNat < 64 ∧
      65536 < (anchorWord (withWords 0x1001C [65537] starting) 0x1C).toNat ∧
      16 ≤ (anchorWord starting 0x08).toNat ∧ (anchorWord starting 0x08).toNat ≤ 1024) ∧
    ((anchorWord starting 0x1C).toNat ≤ (anchorWord (withWords 0x10020 [64] starting) 0x20).toNat ∧
      64 ≤ (anchorWord starting 0x1C).toNat ∧ (anchorWord starting 0x1C).toNat ≤ 65536) ∧
    (regionsOk (withWords 0x10004 [0x20001] starting) = false ∧
      (anchorWord starting 0x20).toNat < (anchorWord starting 0x1C).toNat) ∧
    (regionsOk (withWords 0x30000 [17] starting) = true ∧ commonLayout (withWords 0x30000 [17] starting) = none) := by
  decide +kernel

/-- A start check that passes with one zone, one that passes with none, and no start; an entry into ACQUIRING that the
kept enable made, where the start reads the reference disabled. -/
theorem witness_SuccessfulStartRuns :
    (starting.smp.frameDue = true ∧ starting.smp.dev = .starting ∧ starting.smp.anchor.toNat % 4096 = 0 ∧
      startCheck starting = .ok [] ∧
      startCheck (withWords 0x30000 [1, 0, 0, 0, 0, 0, 0x00320064, 7] starting) = .ok [zone0] ∧
      ∀ g : Fin 8, starting.sru.groups[g].openSlot = none) ∧
    (starting.ftu.keptEntry = none ∧ (∀ x ∈ starting.ftu.schedule, x.byPeriod = true) ∧
      starting.ftu.tick ≤ starting.ftu.lastStart + 1000000) ∧
    (keptEnable.ftu.keptEntry = some false ∧ keptEnable.ftu.lock = .acquiring ∧ anchorWord keptEnable 0x34 = 0 ∧
      startCheck keptEnable = .ok [] ∧ keptEnable.smp.frameDue = true) ∧
    running.smp.dev ≠ .starting := by decide +kernel

/-- The heartbeat counter reads 5 in a window of 3. -/
theorem witness_HeartbeatWatchCounts :
    State.reset.smp.frameDue = false ∧ starting.smp.dev = .starting ∧
    ((withDev .halted false true).smp.frameDue = true ∧ (withDev .halted false true).smp.dev = .halted) ∧
    (running.smp.frameDue = true ∧ running.smp.inForce = true ∧ running.smp.anchor.toNat % 4096 = 0 ∧
      running.smp.dev = .running ∧ running.smp.missCount + 1 < min 600 (anchorWord running 0x2C).toNat ∧
      anchorWord running 0x28 = running.smp.lastSeen) ∧
    (let s := running.onSmp fun m => { m with missCount := 1 }
     s.smp.missCount + 1 < min 600 (anchorWord s 0x2C).toNat) ∧
    min 600 (anchorWord (withWords 0x1002C [0] running) 0x2C).toNat = 0 ∧
    (let s := (withDev .fallback true true).onSmp fun m => { m with lastSeen := 4, missCount := 3 }
     s.smp.dev = .fallback ∧ anchorWord s 0x28 ≠ s.smp.lastSeen) ∧
    (withDev .fallback true true).smp.dev = .fallback := by decide +kernel

/-- The last miss of the window, with a busy clip and an open slot. -/
theorem witness_LostHeartbeatFallsBack :
    State.reset.smp.frameDue = false ∧ starting.smp.dev ≠ .running ∧
    anchorWord (withWords 0x10028 [6] running) 0x28 ≠ (withWords 0x10028 [6] running).smp.lastSeen ∧
    anchorWord (withWords 0x1002C [0] running) 0x2C = 0 ∧
    (let s := (withSlot slot0 (withClip (some 3) running)).onSmp fun m => { m with missCount := 2 }
     s.smp.frameDue = true ∧ s.smp.dev = .running ∧ anchorWord s 0x28 = s.smp.lastSeen ∧
     min 600 (anchorWord s 0x2C).toNat ≠ 0 ∧ min 600 (anchorWord s 0x2C).toNat ≤ s.smp.missCount + 1 ∧
     s.cle.slots[(0 : Fin 8)].working = true ∧ s.cle.slots[(0 : Fin 8)].outstanding = some 3) ∧
    (let s := running.onSmp fun m => { m with missCount := 1 }
     s.smp.missCount + 1 < min 600 (anchorWord s 0x2C).toNat) := by decide +kernel

/-- A record in the last place of the list, with these words: the scan's next place is the first. -/
def lastRecord (head notBefore w0 : Nat) : State :=
  (withWords 0x203C0 [1, head, notBefore, w0] (atFrame 502 running)).onCiu fun c => { c with scan := 15 }

/-- Kinds 0 and 0x0F, at the two ends of the fourteen, actions one outside each range, and a TIMED CLOCK_RUN START that is
taken LATE. -/
theorem witness_SingleRecordTakenByKind :
    (let s := lastRecord 0x0F 0 0
     ScanMade s false ∧ (recordAt s 15).state = .posted ∧ (recordAt s 15).linked = false ∧
     RecordReady (recordAt s 15) 502 ∧ 0x0E < (recordAt s 15).kind.toNat ∧
     (recordAt s (scanned s 1)).state ≠ .posted) ∧
    (recordAt (lastRecord 0 0 0) 15).kind.toNat = 0 ∧
    ((recordAt (lastRecord 0x07 0 0x300) 15).kind = 0x07 ∧
      2 < (bits (recordAt (lastRecord 0x07 0 0x300) 15).payload.w0 8 8).toNat) ∧
    ((recordAt (lastRecord 0x0B 0 0x500) 15).kind = 0x0B ∧
      4 < (bits (recordAt (lastRecord 0x0B 0 0x500) 15).payload.w0 8 8).toNat) ∧
    (let s := lastRecord 0x20B 501 0x100
     RecordReady (recordAt s 15) 502 ∧ lateAt (recordAt s 15) 502 = true ∧
     workOf (recordAt s 15).kind (recordAt s 15).payload = some (.clockRun 0 1 0) ∧
     (Work.clockRun 0 1 0).command 0 ⟨15, true⟩ = some (.clockRunStart ⟨15, true⟩ 0) ∧
     (recordAt (andThen (.clockRunStart ⟨15, true⟩ 0) (scanBegins 0 s)) (scanned s 1)).state ≠
       .posted ∧
     (andThen (.ciuScan 0) s).mem.word (cueOffset s 15) = 3) ∧
    (andThen (.ciuScan 0) (lastRecord 0x20B 503 0x100)).mem.word (cueOffset running 15) = 1 := by decide +kernel

/-- POSTED records of kind GROUP_CLEAR at these places, the ones before the last linked to the next. -/
def withRun (places : List Nat) (last : Nat) (s : State) : State :=
  places.foldl (fun t i => withWords (0x20000 + 64 * i) [1, if i = last then 0x009 else 0x109] t) s

/-- A first record that is not reached; a refusing-run flag at a record without LINK and at one with it; eight linked
records that wrap past the list's end. -/
theorem witness_ScanBoundedAndStops :
    running.ciu.scan < running.ciu.listLength ∧
    ((withDev .fallback true true).ciu.frameDue = true ∧ (withDev .fallback true true).smp.dev ≠ .running) ∧
    (running.ciu.frameDue = true ∧ running.mem.word (cueOffset running running.ciu.scan) ≠ 1) ∧
    (let s := atFrame 501 timedRecord
     s.ciu.refusing = false ∧ (s.mem.word (cueOffset s s.ciu.scan + 4)).getLsbD 9 = true ∧
     0 < (s.mem.word (cueOffset s s.ciu.scan + 8) - s.ftu.frame).toInt) ∧
    (let s := (withRun [0] 0 running).onCiu fun c => { c with refusing := true }
     ScanMade s true ∧ (recordAt s 0).state = .posted ∧ (recordAt s 0).linked = false ∧
     (recordAt s (scanned s 1)).state ≠ .posted) ∧
    (let s := (withRun [14, 15, 0, 1, 2, 3, 4, 5] 16 running).onCiu fun c => { c with scan := 14 }
     ScanMade s false ∧ RecordReady (recordAt s 14) s.ftu.frame ∧
     (∀ j, j < 8 → (recordAt s (scanned s j)).state = .posted ∧ (recordAt s (scanned s j)).linked = true) ∧
     (recordAt s (scanned s 8)).state ≠ .posted) := by decide +kernel

/-- Two members, the second refused. -/
def failingRun : List Member :=
  [⟨3, false, some (.groupClear 0)⟩, ⟨4, true, some (.groupClear 8)⟩]

theorem witness_failing_run :
    (match actRun failingRun RunSlots.none running with
     | .error r => r = (4, .refused .badValue 0)
     | .ok _ => False) ∧
    (failingRun.map Member.index).Nodup ∧ running.smp.inForce = true ∧
    running.ciu.listOffset.toNat + 64 * running.ciu.listLength ≤ Config.memorySize ∧
    ∀ m ∈ failingRun, m.index < running.ciu.listLength := by
  refine ⟨?_, by decide +kernel⟩
  rfl

/-- A run that passes its check, with one clip in it. -/
def passingRun : List Member :=
  [⟨14, false, some (.clockRun 0 2 0)⟩, ⟨15, false, some (.playClip clip1)⟩, ⟨0, true, some (.groupClear 7)⟩]

/-- The state that the acts of a run leave. -/
def acted (ms : List Member) (s : State) : State :=
  match actRun ms RunSlots.none s with
  | .ok u => u
  | .error _ => s

/-- After two members that pass: a third of unknown kind, one of unknown action code, one that its owner refuses and one
that it takes. -/
theorem witness_member_of_run :
    let pre := passingRun.take 2
    let u := acted pre running
    (actRun pre RunSlots.none running).isOk = true ∧
    (∀ w ∈ [none, some (Work.clockRun 0 5 0), some (.groupClear 8), some (.groupClear 7)],
      ((pre ++ [(⟨0, true, w⟩ : Member)]).filter fun m => !m.work.all Work.plain).length ≤ 1) ∧
    (Member.command running.ccu.levels ⟨0, true, none⟩ = none ∧
      Member.command running.ccu.levels ⟨0, true, some (.clockRun 0 5 0)⟩ = none) ∧
    Member.command running.ccu.levels ⟨0, true, some (.groupClear 8)⟩ = some (.groupClear ⟨0, true⟩ 8) ∧
    bits ((andThen (.groupClear ⟨0, true⟩ 8) u).mem.word (cueOffset u 0 + 0x28)) 0 8 = Status.badValue.code ∧
    bits ((andThen (.groupClear ⟨0, true⟩ 7) u).mem.word (cueOffset u 0 + 0x28)) 0 8 = Status.ok.code ∧
    Status.badValue.refuses ∧ ¬Status.ok.refuses ∧ u.smp.inForce = true ∧ CueListInside u ∧ 0 < u.ciu.listLength := by
  decide +kernel

/-- A run that passes; runs of two and of eight records that wrap past the list's end; a second member that is not
reached; a run whose second record is not POSTED yet. -/
theorem witness_LinkedRunActedOnWholeOrNotAtAll :
    ((actRun passingRun RunSlots.none running).isOk = true ∧
      (passingRun.filter fun m => !m.work.all Work.plain).length ≤ 1) ∧
    (let s := (withRun [15, 0] 0 running).onCiu fun c => { c with scan := 15 }
     ScanMade s false ∧
     (∀ j, j < 2 → (recordAt s (scanned s j)).state = .posted ∧
       (recordAt s (scanned s j)).linked = decide (j + 1 < 2) ∧
       RecordReady (recordAt s (scanned s j)) s.ftu.frame) ∧
     (recordAt (handleRun ((List.range 2).map fun j => memberAt s (scanned s j)) (scanBegins 0 s))
       (scanned s 2)).state ≠ .posted ∧
     ¬RecordReady (recordAt (withWords 0x20004 [0x209, 7] s) 0) s.ftu.frame) ∧
    (let s := (withRun [12, 13, 14, 15, 0, 1, 2, 3] 3 running).onCiu fun c => { c with scan := 12 }
     ∀ j, j < 8 → (recordAt s (scanned s j)).state = .posted ∧
       (recordAt s (scanned s j)).linked = decide (j + 1 < 8)) ∧
    (let s := withRun [0] 16 running
     ScanMade s false ∧ (recordAt s 0).linked = true ∧ (recordAt s (scanned s 1)).state ≠ .posted) := by
  decide +kernel

/-- Slots 0 to 7 PLAYING under tags 0 to 7. -/
def allPlaying (s : State) : State :=
  s.onCle fun c => { c with slots := c.slots.mapIdx fun i x => { x with state := .playing, tag := BitVec.ofNat 16 i } }

theorem witness_cue_list_inside : CueListInside running := by decide +kernel

/-- Zone 0 full of safety messages, at level 0. -/
def safetyFull : List Claim := [⟨.message 0, 0⟩, ⟨.message 1, 0⟩, ⟨.message 2, 0⟩, ⟨.message 3, 0⟩, ⟨.message 4, 0⟩]

/-- One operand or state for each refusal of a clip and of a message; the regions one byte too long. -/
theorem witness_ClipAndMessageRefusedInOrder :
    (running.onCle fun c => { c with gate := .halted }).cle.gate = .halted ∧
    (running.onCle fun c => { c with gate := .fallback }).cle.gate = .fallback ∧ running.cle.gate = .open_ ∧
    ({ clip1 with width := 3841#16 } : ClipPayload).width.toNat = 3841 ∧
    (let p := { clip1 with base := 0xFFFFEE74#32 }
     p.base.toNat % 4 = 0 ∧ 2 ^ 32 < p.base.toNat + ((p.count.toNat - 1) * p.pitch.toNat + p.width.toNat * p.height.toNat * 4) ∧
     ¬2 ^ 32 < p.base.toNat - 4 + ((p.count.toNat - 1) * p.pitch.toNat + p.width.toNat * p.height.toNat * 4)) ∧
    ((allPlaying running).cle.slots[(7 : Fin 8)].tag = 7 ∧
      (allPlaying running).cle.slots[(7 : Fin 8)].state = .playing) ∧
    ((∀ k : Fin 8, (allPlaying running).cle.slots[k].state ≠ .idle) ∧
      ∀ k : Fin 8, (allPlaying running).cle.slots[k].tag ≠ clip1.tag) ∧
    ((∀ (z : Fin 16) (k : Fin 8), running.cle.slots[k].state = .idle → holdsIn (.clip k) (claimsAt running.zar z) = false) ∧
      (withDev .halted false true).smp.dev.live = false ∧ running.zar.table[(1 : Fin 16)] = none) ∧
    ((running.onMsu fun u => { u with afterHalt := true }).msu.afterHalt = true ∧ running.msu.afterHalt = false) ∧
    (1 < (2 : BitVec 8).toNat ∧ (0 : BitVec 8).toNat = 0 ∧ 120 < (121 : BitVec 8).toNat) ∧
    (2 ^ 32 < (0xFFFFFFFF#32).toNat + 2 ∧ ¬2 ^ 32 < (0xFFFFFFFF#32).toNat + 1) ∧
    (let s := running.onMsu fun u => { u with slots := u.slots.map fun m => { m with state := .showing, tag := 77 } }
     (∀ k : Fin 8, s.msu.slots[k].state ≠ .idle) ∧ ∀ k : Fin 8, s.msu.slots[k].tag ≠ message1.tag) ∧
    (∀ (z : Fin 16) (k : Fin 8), running.msu.slots[k].state = .idle →
      holdsIn (.message k) (claimsAt running.zar z) = false) := by decide +kernel

/-- A SAFETY message finds no room and evicts nothing in a zone full of claims at level 0. -/
theorem witness_safety_refused :
    ¬ZoneTakes (withClaims safetyFull running) 0 ∧ ∀ v, ¬EvictedFrom (withClaims safetyFull running) 0 v := by
  constructor
  · rintro ⟨e, h, l⟩
    obtain rfl := Option.some.inj h
    exact absurd l (by decide)
  · rintro v ⟨e, h, _, last, l⟩
    obtain rfl := Option.some.inj h
    obtain rfl := Option.some.inj last
    exact l rfl

/-- A zone whose five claims no free slot holds takes nothing. -/
theorem witness_full_zone_takes_nothing :
    ¬ZoneTakes (withClaims [⟨.message 7, 1⟩, ⟨.message 6, 1⟩, ⟨.message 5, 2⟩, ⟨.message 4, 3⟩, ⟨.message 3, 5⟩] running) 0 := by
  rintro ⟨e, h, l⟩
  obtain rfl := Option.some.inj h
  exact absurd l (by decide)

/-- Zone 0 of `running` takes a claim. -/
theorem running_takes : ZoneTakes running 0 := ⟨_, rfl, by decide⟩

/-- Clip 1 over zones 0 and 1, of which zone 1 is not in the layout. -/
def clip2 : ClipPayload := { clip1 with zones := 3 }

/-- The payload's values, each within its bounds, its region and its mask: one zone that takes it and one that does not. -/
theorem witness_PlayClipAcceptedPlays_payload :
    (clip2.width.toNat = 10 ∧ clip2.height.toNat = 10 ∧ clip2.count = 2 ∧ clip2.endBehaviour.toNat = 0) ∧
    clip2.zones.getLsbD 1 = true ∧ clip2.base.toNat = 0x80000 ∧ clip2.pitch.toNat = 4096 ∧
    clip2.base.toNat + ((2 - 1) * 4096 + 10 * 10 * 4) ≤ 2 ^ 32 := by decide

/-- The slot is the second, the first being PLAYING under another tag. -/
theorem witness_PlayClipAcceptedPlays :
    (let s := withClip none running
     CueListInside s ∧ s.cle.gate = .open_ ∧ s.smp.dev.live = true ∧ s.cle.slots[(1 : Fin 8)].state = .idle ∧
     (∀ j : Fin 8, j < 1 → s.cle.slots[j].state ≠ .idle) ∧
     (∀ j : Fin 8, s.cle.slots[j].state = .playing ∨ s.cle.slots[j].state = .held →
       s.cle.slots[j].tag ≠ clip2.tag) ∧
     ∀ z : Fin 16, holdsIn (.clip 1) (claimsAt s.zar z) = false) ∧
    ∃ z : Fin 16, clip2.zones.getLsbD z.val = true ∧ ZoneTakes (withClip none running) z := by
  constructor
  · decide +kernel
  · exact ⟨0, by decide, _, rfl, by decide⟩

/-- The clip that headed zone 0 keeps its place before clip 2 at the same level, and loses it to a clip at level 1. -/
theorem witness_head_kept_and_taken :
    let s := withClip none running
    let t := andThen (.playClip ⟨.cue 1, false⟩ clip2) s
    let u := andThen (.playClip ⟨.cue 1, false⟩ { clip2 with level := 1 }) s
    ((claimsAt t.zar 0).head?.map Claim.who = some (.clip 0) ∧ t.cle.slots[(0 : Fin 8)].preempted = false) ∧
    (claimsAt u.zar 0).head?.map Claim.who = some (.clip 1) ∧ (claimsAt s.zar 0).head?.map Claim.who = some (.clip 0) ∧
    u.cle.slots[(0 : Fin 8)].preempted = true := by decide +kernel

/-- The longest text, ending with show memory, under a tag that no message holds. -/
def message2 : MessagePayload := { message1 with textLength := 120, textOffset := 0xFFFFFF88, tag := 5 }

theorem witness_PostMessageAcceptedShows :
    (message2.zones = 1 ∧ message2.cls = 0 ∧ message2.mode.toNat ≤ 1 ∧ message2.textLength.toNat = 120 ∧
      message2.textOffset.toNat + 120 = 2 ^ 32) ∧
    (let s := withMessage none none running
     s.msu.afterHalt = false ∧ s.msu.slots[(1 : Fin 8)].state = .idle ∧
     (∀ j : Fin 8, j < 1 → s.msu.slots[j].state ≠ .idle) ∧ s.smp.dev.live = true ∧
     (∀ j : Fin 8, s.msu.slots[j].state = .showing → s.msu.slots[j].tag ≠ message2.tag) ∧
     (∀ z : Fin 16, holdsIn (.message 1) (claimsAt s.zar z) = false) ∧ CueListInside s) ∧
    ∃ z : Fin 16, message2.zones.getLsbD z.val = true ∧ ZoneTakes (withMessage none none running) z := by
  refine ⟨by decide, by decide +kernel, 0, by decide, _, rfl, by decide⟩

/-- Five claims, the last a clip's. -/
def fullClaims : List Claim := [⟨.message 4, 0⟩, ⟨.message 5, 1⟩, ⟨.message 6, 2⟩, ⟨.message 7, 3⟩, ⟨.clip 2, 3⟩]

/-- Zone 0 full, its last non-group claim a clip's: clip 2, which holds that zone alone, with an outstanding frame or none;
zone 1 not in the layout. -/
def fullUnderClip (out : Option Frame) : State :=
  ((withClaims fullClaims running).onCle fun c =>
    { c with slots := upd c.slots 2 fun x =>
      { x with state := .playing, origin := .cue 2, tag := 7, level := 3, holdings := 1, outstanding := out,
               epoch := 1 } }).onSru fun r => { r with groups := upd r.groups 0 fun g => { g with zones := 1 } }

/-- A SAFETY message over zones 0 and 1. -/
def safety1 : MessagePayload := { message1 with zones := 3, cls := 1 }

/-- The SAFETY clause: zone 0 evicts clip 2, which waits for its report or completes with its own record. -/
theorem witness_PostMessageAcceptedShows_safety :
    (∀ out : Fin 2,
      let s := fullUnderClip (if out = 0 then none else some 3)
      CueListInside s ∧ s.msu.afterHalt = false ∧ s.msu.slots[(0 : Fin 8)].state = .idle ∧ s.smp.dev.live = true ∧
      (∀ j : Fin 8, s.msu.slots[j].state = .showing → s.msu.slots[j].tag ≠ safety1.tag) ∧
      (∀ z : Fin 16, holdsIn (.message 0) (claimsAt s.zar z) = false)) ∧
    (safety1.zones.getLsbD 0 = true ∧ safety1.cls = 1 ∧ ∀ out, EvictedFrom (fullUnderClip out) 0 ⟨.clip 2, 3⟩) ∧
    ClaimListsFormed (fullUnderClip none) ∧
    (let s := fullUnderClip none
     s.cle.slots[(2 : Fin 8)].origin = .cue 2 ∧ s.cle.slots[(2 : Fin 8)].epoch = s.smp.anchorEpoch ∧
     s.smp.inForce = true ∧ ListApart s ∧ 2 < s.ciu.listLength ∧
     (∀ l : Fin 8, l ≠ 2 → s.cle.slots[l].origin ≠ .cue 2) ∧ ∀ l : Fin 8, s.msu.slots[l].origin ≠ .cue 2) := by
  refine ⟨by decide +kernel, ⟨by decide, by decide, fun out => ⟨_, rfl, by decide, rfl, by decide⟩⟩, ⟨?_, by decide +kernel⟩,
    by decide +kernel⟩
  have key : ∀ z : Fin 16, (fullUnderClip none).zar.table[z] = none ∨
      (fullUnderClip none).zar.table[z] = some ⟨0, zone0, fullClaims⟩ := by decide +kernel
  intro z e h
  obtain n | k := key z
  · rw [n] at h
    cases h
  · rw [k] at h
    obtain rfl := Option.some.inj h
    refine ⟨by decide +kernel, ?_⟩
    intro c hc g hg
    simp only [fullClaims, List.mem_cons, List.not_mem_nil, or_false] at hc
    obtain rfl | rfl | rfl | rfl | rfl := hc <;> cases hg

/-- With its frame outstanding, the one owner that loses a zone does not complete at once. -/
theorem witness_none_completes : NoneCompletes (fullUnderClip (some 3)) safety1.zones := by
  have key : ∀ z : Fin 16, (fullUnderClip (some 3)).zar.table[z] = none ∨
      (fullUnderClip (some 3)).zar.table[z] = some ⟨0, zone0, fullClaims⟩ := by decide +kernel
  have last : ∀ z v, EvictedFrom (fullUnderClip (some 3)) z v → v.who = .clip 2 := by
    rintro z v ⟨e, h, _, l, _⟩
    obtain n | k := key z
    · rw [n] at h
      cases h
    · rw [k] at h
      obtain rfl := Option.some.inj h
      obtain rfl := Option.some.inj l
      rfl
  intro z j
  constructor <;> rintro ⟨_, v, e, w⟩
  · rw [last z v e] at w
    cases w
    decide +kernel
  · rw [last z v e] at w
    cases w

theorem witness_RepostReplacesMessage :
    let s := withMessage (some 4) none running
    CueListInside s ∧ s.msu.afterHalt = false ∧ message1.zones ≠ 0 ∧ message1.cls.toNat ≤ 1 ∧ message1.mode.toNat ≤ 1 ∧
    1 ≤ message1.textLength.toNat ∧ message1.textLength.toNat ≤ 120 ∧
    message1.textOffset.toNat + message1.textLength.toNat ≤ 2 ^ 32 ∧ s.msu.slots[(0 : Fin 8)].state = .showing ∧
    s.msu.slots[(0 : Fin 8)].tag = message1.tag ∧ s.msu.slots[(0 : Fin 8)].origin = .cue 3 ∧
    s.msu.slots[(0 : Fin 8)].epoch = s.smp.anchorEpoch ∧ s.smp.inForce = true ∧ 15 < s.ciu.listLength ∧
    3 < s.ciu.listLength ∧ 15 ≠ 3 ∧ ClearOfList s message1.textOffset.toNat message1.textLength.toNat ∧
    ClearOfList s s.clo.fontOffset.toNat 50176 := by decide +kernel

/-- A free zone, a full one, a holder, and a last claim at level 0 and above it. -/
theorem witness_ClaimsInsertedAndEvictedByLevel :
    busy.Pairwise (fun d e => d.level ≤ e.level) ∧
    (let s := withClaims busy running
     s.smp.dev.live = true ∧ s.zar.table[(0 : Fin 16)] = some ⟨0, zone0, busy⟩ ∧ holdsIn (.clip 0) busy = true ∧
     holdsIn (.clip 4) busy = false ∧ 5 ≤ (nonGroup busy).length ∧
     (nonGroup busy).getLast? = some ⟨.clip 2, 5⟩ ∧ (nonGroup (busy.drop 1)).length < 5) ∧
    (let cs := (List.finRange 5).map fun k => (⟨.message (Fin.castLE (by decide) k), 0⟩ : Claim)
     holdsIn (.message 7) cs = false ∧ 5 ≤ (nonGroup cs).length ∧ (nonGroup cs).getLast? = some ⟨.message 4, 0⟩) := by
  decide +kernel

/-- Refused for its mask, and accepted into slot 0. -/
theorem witness_TriggeredActionTakenAsRecord :
    running.cle.gate = .open_ ∧ ({ clip1 with zones := 0#16 } : ClipPayload).zones = 0 ∧
    ((andThen (.playClip ⟨.cue 1, false⟩ clip1) running).cle.slots[(0 : Fin 8)].state = .playing ∧
      running.cle.slots[(0 : Fin 8)].state = .idle) ∧
    (∀ k : Fin 8, running.msu.slots[k].state = .showing → running.msu.slots[k].tag ≠ message1.tag) ∧
    message1.cls = 0 ∧ running.smp.inForce = true ∧ 15 < running.ciu.listLength ∧ CueListInside running := by
  decide +kernel

/-- An ARMED entry 7. -/
def armed : State :=
  running.onEtu fun u => { u with entries := upd u.entries 7 fun e =>
    { e with armed := true, pending := true, source := some (.clipEnd 7), action := some (.clip clip1) } }

/-- Target kinds 0 and 4, entry 8, tags that nothing holds, and targets that are found. -/
theorem witness_WithdrawEndsItsTarget :
    CueListInside armed ∧ (0 : BitVec 8).toNat = 0 ∧ 3 < (4 : BitVec 8).toNat ∧ 7 < (8 : BitVec 8).toNat ∧
    (∀ k : Fin 8, running.cle.slots[k].working = true → running.cle.slots[k].tag ≠ 7) ∧
    (∀ k : Fin 8, running.msu.slots[k].working = true → running.msu.slots[k].tag ≠ 9) ∧
    running.etu.entries[(7 : Fin 8)].armed = false ∧ (7 : BitVec 8).toNat = (7 : Fin 8).val ∧
    ((withClip (some 3) running).cle.slots[(0 : Fin 8)].working = true ∧
      (withClip (some 3) running).cle.slots[(0 : Fin 8)].tag = 7 ∧
      (withClip (some 3) running).cle.slots[(0 : Fin 8)].outstanding = some 3) ∧
    ((withMessage (some 3) none running).msu.slots[(0 : Fin 8)].working = true ∧
      (withMessage (some 3) none running).msu.slots[(0 : Fin 8)].tag = 9 ∧
      (withMessage (some 3) none running).msu.slots[(0 : Fin 8)].outstanding = some 3) ∧
    armed.etu.entries[(7 : Fin 8)].armed = true := by decide +kernel

theorem witness_WithdrawnClipCompletes :
    let s := withClip none armed
    CueListInside s ∧ s.cle.slots[(0 : Fin 8)].working = true ∧ s.cle.slots[(0 : Fin 8)].outstanding = none ∧
    s.cle.slots[(0 : Fin 8)].origin = .cue 2 ∧ s.cle.slots[(0 : Fin 8)].epoch = s.smp.anchorEpoch ∧
    s.smp.inForce = true ∧ s.smp.dev = .running ∧ s.etu.handling = false ∧ 15 < s.ciu.listLength ∧
    2 < s.ciu.listLength ∧ 15 ≠ 2 ∧ s.smp.anchor.toNat + 4096 ≤ s.ciu.listOffset.toNat ∧
    s.etu.entries[(7 : Fin 8)].source = some (.clipEnd s.cle.slots[(0 : Fin 8)].tag) := by decide +kernel

/-- A zone record of 12.6: id, link, group NONE, place, size. -/
def zoneWords (id link x w : Nat) : List Nat := [id + 256 * link + 65536 * 255, x, w + 65536 * 10, 0]

/-- A layout record at 0x32000 with these zones. -/
def withLayout (zs : List (List Nat)) (s : State) : State :=
  zs.zipIdx.foldl (fun t z => withWords (0x32010 + 80 * z.2) z.1 t) (withWords 0x32000 [zs.length] s)

/-- Each check of R57 failing alone, and a layout that passes. -/
theorem witness_LoadLayoutReplacesBankAlone :
    CueListInside running ∧ (0 : BitVec 8).toNat = 0 ∧ 3 < (4 : BitVec 8).toNat ∧
    ((3 : BitVec 8).toNat = (3 : Fin 4).val ∧ (3 : Fin 4) ≠ 0 ∧
      (3 : Fin 4) = (running.onZar fun z => { z with selector := 3 }).zar.selector ∧ (3 : Fin 4) ≠ running.zar.selector) ∧
    (0x32002#32).toNat % 4 ≠ 0 ∧ ((0xFFFFFAF4#32).toNat % 4 = 0 ∧ 2 ^ 32 < (0xFFFFFAF4#32).toNat + 1296) ∧
    (0xFFFFFAF0#32).toNat + 1296 ≤ 2 ^ 32 ∧ readLayout (withWords 0x32000 [17] running).mem 0x32000 = none ∧
    (readLayout (withLayout [zoneWords 0 1 0 10] running).mem 0x32000).map (List.map ZoneDef.id) = some [0] ∧
    (readLayout (withLayout [zoneWords 2 0 99 10] running).mem 0x32000).any (fun zs => decide (∃ d ∈ zs, ∃ c ∈ running.zar.banks[(0 : Fin 4)], overlap d c = true)) = true ∧
    (readLayout (withLayout [zoneWords 2 0 100 10, zoneWords 3 1 0 10] running).mem 0x32000).any (fun zs => decide ((zs.map ZoneDef.id).Nodup ∧ zs.Pairwise (fun d e => overlap d e = false) ∧
        (∀ d ∈ zs, ∀ c ∈ running.zar.banks[(0 : Fin 4)], d.id ≠ c.id) ∧
        ∀ d ∈ zs, ∀ c ∈ running.zar.banks[(0 : Fin 4)], overlap d c = false)) = true := by decide +kernel

/-- Bank 2 with one zone, bank 1 selected with zone 4 held by a clip alone. -/
def banked (d : ZoneDef) : State :=
  (withClip (some 3) running).onZar fun z =>
    { z with selector := 1, banks := upd z.banks 2 fun _ => [d],
             table := upd (upd z.table 0 fun _ => some ⟨0, zone0, []⟩) 4 fun _ =>
               some ⟨1, { zone0 with id := 4, link := 1 }, [⟨.clip 0, 3⟩]⟩ }

theorem witness_SelectLayoutSwitchesWhole :
    CueListInside running ∧ 3 < (4 : BitVec 8).toNat ∧ (2 : BitVec 8).toNat = (2 : Fin 4).val ∧
    (∃ d ∈ (banked { zone0 with link := 3 }).zar.banks[(2 : Fin 4)], ∃ c ∈ (banked zone0).zar.banks[(0 : Fin 4)],
      d.id = c.id) ∧
    (∃ d ∈ (banked { zone0 with id := 5 }).zar.banks[(2 : Fin 4)], ∃ c ∈ (banked zone0).zar.banks[(0 : Fin 4)],
      overlap d c = true ∧ d.id ≠ c.id) ∧
    (0 : Fin 4) = running.zar.selector ∧
    (let s := banked { zone0 with id := 5, link := 3 }
     (¬∃ d ∈ s.zar.banks[(2 : Fin 4)], ∃ c ∈ s.zar.banks[(0 : Fin 4)], d.id = c.id ∨ overlap d c = true) ∧
     (2 : Fin 4) ≠ s.zar.selector ∧ s.cle.slots[(0 : Fin 8)].working = true ∧ holdsAny s.zar (.clip 0) = true ∧
     ((s.zar.table[(4 : Fin 16)]).map ZoneEntry.bank) = some 1 ∧
     ∀ g : Fin 8, zoneSetOf s.zar.table g = if g = 0 then 0x11 else 0) := by decide +kernel

/-- A sponsor definition record of 12.7 with one creative, its sponsor id, weight and base as given. -/
def withSponsorRecord (id weight base : Nat) (s : State) : State :=
  withWords 0x60000 [id, weight + 65536 + 16777216, base, 4096, 10 + 65536 * 10, 2 + 65536, 30] s

/-- A balance of one entry in one group. -/
def withBalance (g : Fin 8) (i : Fin 64) (b : Int) (s : State) : State :=
  s.onSru fun r => { r with accounts := upd r.accounts g fun row => upd row i fun a => { a with balance := b } }

/-- Each check of R124 failing alone, and a definition that passes. -/
theorem witness_SponsorWriteCopiesDefinition :
    CueListInside running ∧ 63 < (64 : BitVec 8).toNat ∧ (63 : BitVec 8).toNat = (63 : Fin 64).val ∧
    ((withEntry 63 1 running).sru.entries[(63 : Fin 64)].active = true ∧
      running.sru.entries[(63 : Fin 64)].active = false ∧
      (withSlot slot0 running).sru.groups[(0 : Fin 8)].openSlot = some slot0 ∧ slot0.entry = 0) ∧
    (0x60002#32).toNat % 4 ≠ 0 ∧ 2 ^ 32 < (0xFFFFFF5C#32).toNat + 168 ∧ (0xFFFFFF58#32).toNat + 168 ≤ 2 ^ 32 ∧
    readSponsor (withSponsorRecord 1 0 0x70000 running).mem 0x60000 = none ∧
    (readSponsor (withSponsorRecord 1 5 0xFFFFEE74 running).mem 0x60000).any (fun d => decide (∃ c ∈ d.creatives, 2 ^ 32 < c.base + ((c.count - 1) * c.pitch + c.width * c.height * 4))) = true ∧
    (readSponsor (withSponsorRecord 1 5 0x70000 running).mem 0x60000).any (fun d => decide ((∀ c ∈ d.creatives, c.base + ((c.count - 1) * c.pitch + c.width * c.height * 4) ≤ 2 ^ 32) ∧
        d.sponsorId ≠ running.sru.entries[(63 : Fin 64)].sponsorId)) = true ∧
    (withBalance 7 63 (-1) running).sru.accounts[(7 : Fin 8)][(63 : Fin 64)].balance ≠ 0 ∧
    ∀ g : Fin 8, running.sru.accounts[g][(63 : Fin 64)].balance = 0 := by decide +kernel

/-- A current slot of the retired entry with and without an outstanding frame, and an entry that is INACTIVE. -/
theorem witness_SponsorStateActivatesAndRetires :
    CueListInside running ∧ 63 < (64 : BitVec 8).toNat ∧ (63 : BitVec 8).toNat = (63 : Fin 64).val ∧
    running.sru.entries[(63 : Fin 64)].active = false ∧
    ((withSlot { slot0 with outstanding := some 3 } (withEntry 0 1 running)).sru.entries[(0 : Fin 64)].active = true ∧
      (withSlot slot0 (withEntry 0 1 running)).sru.groups[(0 : Fin 8)].openSlot = some slot0 ∧ slot0.closing = false ∧
      slot0.outstanding = none) := by decide +kernel

theorem witness_GroupSetClaimsAndReleases :
    CueListInside running ∧ 7 < (8 : BitVec 8).toNat ∧ (0 : BitVec 8).toNat = (0 : Fin 8).val ∧
    (withGroup running).sru.groups[(0 : Fin 8)].enabled = true ∧
    (running.onSru fun r => { r with afterHalt := true }).sru.afterHalt = true ∧
    (let s := (withClaims busy running).onSru fun r => { r with groups := upd r.groups 0 fun g => { g with zones := 1 } }
     s.sru.groups[(0 : Fin 8)].enabled = false ∧ s.sru.afterHalt = false ∧ s.smp.dev.live = true ∧
     (∀ c ∈ claimsAt s.zar 0, c.level ≤ 6) ∧ s.sru.groups[(0 : Fin 8)].zones.getLsbD 0 = true ∧
     holdsIn (.group 0) (claimsAt s.zar 0) = false) ∧
    (withDev .halted false true).smp.dev.live = false ∧
    (withSlot slot0 (withGroup running)).sru.groups[(0 : Fin 8)].openSlot = some slot0 := by decide +kernel

theorem witness_GroupClearZeroesAccounts :
    CueListInside running ∧ 7 < (8 : BitVec 8).toNat ∧ (7 : BitVec 8).toNat = (7 : Fin 8).val ∧
    (0 : BitVec 8).toNat = (0 : Fin 8).val ∧
    (withSlot slot0 running).sru.groups[(0 : Fin 8)].openSlot = some slot0 ∧
    (running.onPlw fun p => { p with hold := [record0] }).plw.hold = [record0] ∧ record0.group = 0 := by decide +kernel

/-- A CLOCK_SET payload for channel 3, its horn length and preset at their bounds. -/
def clock1 : ClockSetPayload :=
  { channel := 3, mode := 0, reload := 1, horn := 0, preset := 35999999, limit := 0, hornLength := 100, source := 0 }

/-- Each value one outside its range; the accepted ones at their bounds, in each mode; a RUNNING channel of both kinds. -/
theorem witness_ClockSetConfiguresChannel :
    CueListInside running ∧ 3 < (4 : BitVec 8).toNat ∧ 2 < (3 : BitVec 8).toNat ∧ 1 < (2 : BitVec 8).toNat ∧
    35999999 < (36000000#32).toNat ∧ (0#32).toNat = 0 ∧ 9999 < (10000#32).toNat ∧
    (99#16).toNat < 100 ∧ 5000 < (5001#16).toNat ∧ (99#32).toNat < 100 ∧
    (clock1.channel.toNat = (3 : Fin 4).val ∧ clock1.mode.toNat ≤ 2 ∧ clock1.reload.toNat ≤ 1 ∧
      clock1.preset.toNat ≤ 35999999 ∧ clock1.mode ≠ 1 ∧ clock1.mode ≠ 2 ∧ 100 ≤ clock1.hornLength.toNat ∧
      clock1.hornLength.toNat ≤ 5000 ∧ 100 ≤ clock1.preset.toNat) ∧
    (let p := { clock1 with mode := 2, limit := 9999, source := 2 }
     1 ≤ p.limit.toNat ∧ p.limit.toNat ≤ 9999 ∧ p.source.toNat ≤ 3 ∧ p.source.toNat ≠ (3 : Fin 4).val) ∧
    (let p := { clock1 with mode := 1, limit := 35999999 }
     1 ≤ p.limit.toNat ∧ p.limit.toNat ≤ 35999999) ∧
    running.ccu.channels[(3 : Fin 4)].state ≠ .running ∧
    (let s := running.onCcu fun u => { u with channels := upd u.channels 3 fun c =>
       { c with state := .running, auto := true, count := 5 } }
     s.ccu.channels[(3 : Fin 4)].state = .running ∧ s.ccu.channels[(3 : Fin 4)].mode = .countDown ∧
     s.ccu.channels[(3 : Fin 4)].auto = (clock1.reload == 1) ∧
     s.ccu.channels[(3 : Fin 4)].hornEnable = (clock1.horn != 0) ∧
     s.ccu.channels[(3 : Fin 4)].hornLength = clock1.hornLength.toNat ∧
     s.ccu.channels[(3 : Fin 4)].auto ≠ (({ clock1 with reload := 0 } : ClockSetPayload).reload == 1)) := by
  decide +kernel

theorem witness_ClockRunGathersAndAdjusts :
    CueListInside running ∧ 3 < (4 : BitVec 8).toNat ∧ (3 : BitVec 8).toNat = (3 : Fin 4).val ∧
    (running.ccu.channels[(3 : Fin 4)].mode = .countDown ∧ running.ccu.channels[(3 : Fin 4)].count = 0 ∧
      running.ccu.channels[(3 : Fin 4)].reqReset = false ∧ running.ccu.channels[(3 : Fin 4)].state ≠ .running) ∧
    (let c := endOfPeriod.ccu.channels[(0 : Fin 4)]
     c.state = .running ∧ c.count = 1 ∧ c.reqReset = false) ∧
    endOfPeriod.ccu.channels[(1 : Fin 4)].state = .expired := by decide +kernel

/-- Each value one outside its range, and all at their greatest. -/
theorem witness_ConsoleSetConfiguresLine :
    CueListInside running ∧ 7 < (8 : BitVec 8).toNat ∧ 1 < (2 : BitVec 8).toNat ∧ 6 < (7 : BitVec 8).toNat ∧
    3 < (4 : Word).toNat ∧ (7 : BitVec 8).toNat = (7 : Fin 8).val ∧ (1 : BitVec 8).toNat ≤ 1 ∧
    (6 : BitVec 8).toNat ≤ 6 ∧ (3 : Word).toNat = (3 : Fin 4).val := by decide +kernel

/-- Word 6 of a TRIGGER_ARM, by its fields. -/
def armWord (entry kind value action : Nat) : Payload :=
  ⟨0, 0, 0, 0, 0, 0, BitVec.ofNat 32 (value + 65536 * entry + 1048576 * kind + 268435456 * action)⟩

/-- Each field one outside its range, and an accepted one of each source kind and action for entry 7. -/
theorem witness_TriggerArmAndDisarm :
    CueListInside running ∧ 7 < (bits (armWord 8 0 0 1).w6 16 4).toNat ∧ 3 < (bits (armWord 0 4 0 1).w6 20 4).toNat ∧
    3 < (bits (armWord 0 0 4 1).w6 0 16).toNat ∧ 7 < (bits (armWord 0 1 8 1).w6 0 16).toNat ∧
    (bits (armWord 0 0 0 0).w6 28 4).toNat = 0 ∧ 2 < (bits (armWord 0 0 0 3).w6 28 4).toNat ∧
    (∀ kind : Fin 4, ∀ action : Fin 2,
      let p := armWord 7 kind.val 3 (action.val + 1)
      (bits p.w6 16 4).toNat = (7 : Fin 8).val ∧ (bits p.w6 20 4).toNat = kind.val ∧ (bits p.w6 0 16).toNat = 3 ∧
      (bits p.w6 28 4).toNat = action.val + 1) ∧
    armed.etu.entries[(7 : Fin 8)].armed = true ∧ running.etu.entries[(7 : Fin 8)].armed = false ∧
    7 < (8 : BitVec 8).toNat ∧ (7 : BitVec 8).toNat = (7 : Fin 8).val := by decide +kernel

theorem witness_FrameStartTakesViewAndAsks :
    State.reset.clo.frameDue = false ∧ (withDev .halted false true).clo.frameDue = true ∧
    (withDev .halted false true).smp.dev = .halted ∧ starting.smp.dev = .starting ∧
    (withDev .faulted false false).smp.dev = .faulted ∧ (running.clo.frameDue = true ∧ running.smp.dev = .running) ∧
    (withDev .fallback true true).smp.dev = .fallback ∧
    (running.smp.inForce = true ∧ running.clo.asked = [] ∧ ∀ n : Fin 4, running.clo.links[n].up = false) ∧
    starting.smp.inForce = false := by decide +kernel

/-- A frame of one zone of 100 by 50 with a SCORE box of field 5 at (20, 10), its cover 3, under a head at level 4. -/
def boxed : FrameWork :=
  { number := 3, content := true,
    view := [⟨{ zone0 with boxes := [{ source := .score 5 3 false, x := 20, y := 10, scale := 2, colour := 9, cover := 3 }] },
      some (.clip 0), 4⟩],
    answers := [(.clip 0, .clip 0x80000 10 10 0)], scores := [(5, 0xFFFFFFF9)], clocks := [] }

/-- A font whose minus sign sets the first bit of its cell, of the least width and height. -/
def withFont (s : State) : State := withWords (0x100000 + 0x2D * 196) [0x00000604, 1] s

/-- The canvas of link 0 with that frame. -/
def boxedState : State := withWords 0x80000 [0xAB123456] (withFont (running.onClo fun c => { c with work := some boxed }))

/-- A pixel of the clip's frame, with its low 24 bits; the fill beside the frame; the last pixel of the minus sign's block
in the box and the fill after it; black outside the zone, on its link and on another. -/
theorem witness_FrameStartTakesViewAndAsks_pixels : boxedState.clo.work = some boxed ∧ boxed.content = true ∧
    boxed.view.length = 1 ∧ canvasPixel boxedState 0 0 0 = 0x123456 ∧ canvasPixel boxedState 0 10 0 = 7 ∧
    canvasPixel boxedState 0 29 11 = 9 ∧ canvasPixel boxedState 0 30 11 = 7 ∧
    canvasPixel boxedState 0 100 0 = 0 ∧ canvasPixel boxedState 1 0 0 = 0 := by decide +kernel

/-- An UP link with this miss count and answer-seen flag. -/
def withLink (n : Fin 4) (miss : Nat) (seen : Bool) (s : State) : State :=
  s.onClo fun c => { c with links := upd c.links n fun _ => ⟨true, miss, seen⟩ }

/-- Each row of R78's table, and LINK_DOWN at each of its guards. -/
theorem witness_EndedFrameClosesLinks :
    (running.clo.frameDue = true ∧ running.smp.anchor.toNat % 4096 = 0 ∧ running.smp.inForce = true ∧
      running.clo.links[(0 : Fin 4)].up = false) ∧
    (let s := withLink 0 2 false (withLink 1 1 false (withLink 2 0 true running))
     (s.clo.links[(0 : Fin 4)].up = true ∧ s.clo.links[(0 : Fin 4)].seen = false ∧ s.clo.links[(0 : Fin 4)].miss = 2) ∧
     s.clo.links[(1 : Fin 4)].miss < 2 ∧ s.clo.links[(2 : Fin 4)].seen = true ∧ s.clo.frameDue = true) ∧
    State.reset.clo.frameDue = false ∧ State.reset.smp.inForce = false := by decide +kernel

theorem witness_LinkAnswerBringsLinkUp : running.smp.anchor.toNat % 4096 = 0 ∧
    running.clo.links[(3 : Fin 4)].up = false ∧ running.smp.inForce = true ∧ State.reset.smp.inForce = false ∧
    (running.onClo fun c => { c with links := upd c.links 3 fun _ => ⟨true, 0, false⟩ }).clo.links[(3 : Fin 4)].up =
      true := by decide +kernel

/-- Frame 3 of a clip in slot 0, with a view. -/
def frame3 (view : List ViewEntry) : FrameWork :=
  { number := 3, content := true, view := view, answers := [(.clip 0, .clip 0x80000 10 10 0)], scores := [],
    clocks := [] }

/-- Frame 3 in progress, its clip asked. -/
def composed (view : List ViewEntry) : State :=
  (withClip (some 3) running).onClo fun c =>
    { c with asked := [.clip 0], work := some (frame3 view) }

/-- Frame 3 of a message in slot 0, over zone 0, in this state of its slot. -/
def composedMessage (state : MessageState) : State :=
  (withMessage (some 3) (some 5) running).onClo (fun c =>
    { c with asked := [.message 0],
             work := some { number := 3, content := true, view := [⟨zone0, some (.message 0), 2⟩],
                            answers := [(.message 0, .message ({ textOffset := 0x90000, textLength := 1, foreground := 0, background := 0, phase := .on, crawl := none, textWidth := 0, textHeight := 0 }))], scores := [],
                            clocks := [] } }) |>.onMsu fun u =>
    { u with slots := upd u.slots 0 fun m => { m with state := state, status := some .completed } }

/-- A PLAYING clip and a SHOWING message credited, with and without a zone; ENDING ones that wait for this report. -/
theorem witness_ShownReportCreditsClipOrMessage :
    (let s := composed [⟨zone0, some (.clip 0), 3⟩]
     s.clo.frameDue = true ∧ s.cle.slots[(0 : Fin 8)].working = true ∧
     s.cle.slots[(0 : Fin 8)].outstanding = some 3 ∧ Claimant.clip 0 ∈ s.clo.asked ∧
     s.clo.work = some (frame3 [⟨zone0, some (.clip 0), 3⟩])) ∧
    ((frame3 []).number = 3 ∧ (frame3 []).answers.lookup (.clip 0) = some (.clip 0x80000 10 10 0) ∧
      ((frame3 []).view.filter fun v => v.head == some (.clip 0)) = []) ∧
    (let s := composedMessage .showing
     s.clo.frameDue = true ∧ s.msu.slots[(0 : Fin 8)].working = true ∧
     s.msu.slots[(0 : Fin 8)].outstanding = some 3 ∧ Claimant.message 0 ∈ s.clo.asked ∧
     s.msu.slots[(0 : Fin 8)].duration = some 5 ∧
     (s.clo.work.bind fun w => w.answers.lookup (.message 0)).isSome = true) ∧
    (let s := composedMessage .ending
     s.msu.slots[(0 : Fin 8)].state = .ending ∧ s.msu.slots[(0 : Fin 8)].status = some .completed ∧
     s.msu.slots[(0 : Fin 8)].epoch = s.smp.anchorEpoch ∧ s.smp.inForce = true ∧ CueListInside s ∧ ListApart s ∧
     s.etu.handling = false) ∧
    (let s := (composed []).onCle fun u => { u with slots := upd u.slots 0 fun c =>
       { c with state := .ending, status := some .withdrawn } }
     s.cle.slots[(0 : Fin 8)].state = .ending ∧ s.cle.slots[(0 : Fin 8)].status = some .withdrawn ∧
     s.cle.slots[(0 : Fin 8)].outstanding = some 3 ∧ s.cle.slots[(0 : Fin 8)].epoch = s.smp.anchorEpoch) := by
  decide +kernel

/-- The last frame of the only pass, an earlier frame, and a slot that stands exhausted with either end behaviour. -/
theorem witness_ClipAdvancesUntilExhausted :
    (let c := (withClip none running).cle.slots[(0 : Fin 8)]
     c.state = .playing ∧ c.holdings &&& 1 ≠ 0 ∧ c.repPhase < c.rep ∧ c.source < c.count ∧ c.passes < 255) ∧
    (let s := (withClip none running).onCle fun u => { u with slots := upd u.slots 0 fun c => { c with source := 1 } }
     s.cle.slots[(0 : Fin 8)].source < s.cle.slots[(0 : Fin 8)].count ∧
     (clipRequest 0 3 1 s).2.cle.slots[(0 : Fin 8)].state = .ending) ∧
    (clipRequest 0 3 1 (withClip none running)).2.cle.slots[(0 : Fin 8)].state = .playing ∧
    running.cle.slots[(0 : Fin 8)].state ≠ .playing ∧
    (let s := (withClip (some 3) running).onCle fun u => { u with slots := upd u.slots 0 fun c => { c with passes := 1 } }
     s.cle.slots[(0 : Fin 8)].state = .playing ∧ s.cle.slots[(0 : Fin 8)].loops ≠ 0 ∧
     s.cle.slots[(0 : Fin 8)].passes = s.cle.slots[(0 : Fin 8)].loops ∧
     s.cle.slots[(0 : Fin 8)].holdLast = false ∧ s.cle.slots[(0 : Fin 8)].outstanding = some 3) ∧
    (let s := (withClip (some 3) running).onCle fun u =>
       { u with slots := upd u.slots 0 fun c => { c with passes := 1, holdLast := true } }
     s.cle.slots[(0 : Fin 8)].holdLast = true ∧ s.cle.slots[(0 : Fin 8)].passes = s.cle.slots[(0 : Fin 8)].loops) ∧
    (let s := (withClip none running).onCle fun u =>
       { u with slots := upd u.slots 0 fun c => { c with state := .held } }
     s.cle.slots[(0 : Fin 8)].state = .held ∧ s.cle.slots[(0 : Fin 8)].holdings &&& 1 ≠ 0 ∧
     s.cle.slots[(0 : Fin 8)].holdings &&& 2 = 0 ∧ s.cle.slots[(7 : Fin 8)].working = false) := by
  decide +kernel

/-- Durations 2 and 1, an unbounded one, a phase in its last frame and one before it, a message counted already. -/
theorem witness_MessageCountsEachFrameOnce :
    State.reset.msu.frameDue = false ∧ running.msu.frameDue = true ∧ running.msu.slots[(0 : Fin 8)].state ≠ .showing ∧
    (let m := (withMessage (some 3) (some 2) running).msu.slots[(0 : Fin 8)]
     m.state = .showing ∧ m.counted ≠ running.ftu.frame ∧ (∀ d, m.duration = some d → 2 ≤ d) ∧ m.blinkOn ≠ 0 ∧
     m.blinkOff ≠ 0 ∧ m.phaseLeft = 1 ∧ m.phase = .on) ∧
    (let m := (withMessage (some 3) (some 1) running).msu.slots[(0 : Fin 8)]
     m.state = .showing ∧ m.duration = some 1 ∧ m.outstanding = some 3 ∧ m.counted ≠ running.ftu.frame) ∧
    (withMessage none none running).msu.slots[(0 : Fin 8)].duration = none ∧
    (let m := (withMessage none (some 2) running).msu.slots[(0 : Fin 8)]
     m.holdings &&& 1 ≠ 0 ∧ m.holdings &&& 2 = 0 ∧ m.counted ≠ 5 ∧ m.counted = 4294967295) ∧
    (let m := (running.onMsu fun u => { u with slots := upd u.slots 0 fun m =>
       { m with state := .showing, blinkOn := 2, blinkOff := 1, phaseLeft := 2, phase := .off } }).msu.slots[(0 : Fin 8)]
     2 ≤ m.phaseLeft ∧ m.phase = .off ∧ m.counted = running.ftu.frame ∧ m.duration = none) := by
  refine ⟨by decide +kernel, by decide +kernel, by decide +kernel, ⟨by decide +kernel, by decide +kernel, ?_, by decide +kernel⟩,
    by decide +kernel, by decide +kernel, by decide +kernel⟩
  intro d h
  obtain rfl := Option.some.inj h
  decide

/-- A tie at balance 0 of entries 2 and 5, won by 2; a current slot answered in full, with and without a frame out. -/
theorem witness_RotationSelectsAndCloses :
    (let s := withGroup (withEntry 5 3 (withEntry 2 1 running))
     s.sru.groups[(0 : Fin 8)].enabled = true ∧ s.sru.groups[(0 : Fin 8)].zones ≠ 0 ∧
     s.sru.groups[(0 : Fin 8)].openSlot = none ∧ eligible s.sru 0 2 = true ∧
     (∀ j : Fin 64, eligible s.sru 0 j = true →
       s.sru.accounts[(0 : Fin 8)][j].balance < s.sru.accounts[(0 : Fin 8)][(2 : Fin 64)].balance ∨
       (s.sru.accounts[(0 : Fin 8)][j].balance = s.sru.accounts[(0 : Fin 8)][(2 : Fin 64)].balance ∧ 2 ≤ j)) ∧
     s.sru.entries[(2 : Fin 64)].creatives[s.sru.accounts[(0 : Fin 8)][(2 : Fin 64)].cursor]? = some creative ∧
     2 ≤ creative.dwell) ∧
    ((running.sru.groups[(0 : Fin 8)].enabled = false ∧ (withGroup running).sru.groups[(0 : Fin 8)].openSlot = none ∧
        ∀ i : Fin 64, eligible (withGroup running).sru 0 i = false) ∧
      (let s := withSlot { slot0 with remaining := 1 } (withEntry 0 1 (withGroup running))
       s.sru.groups[(0 : Fin 8)].enabled = true ∧ s.sru.groups[(0 : Fin 8)].zones ≠ 0 ∧
       s.sru.groups[(0 : Fin 8)].openSlot = some { slot0 with remaining := 1 } ∧
       s.sru.entries[slot0.entry].creatives[slot0.creative]? = some creative)) ∧
    ((∃ e, ({ slot0 with haltedUnder := some 0 } : Slot).haltedUnder = some e ∧ e ≠ running.smp.anchorEpoch) ∧
      (∀ e, slot0.haltedUnder = some e → e = running.smp.anchorEpoch) ∧
      ∀ e, ({ slot0 with haltedUnder := some 1 } : Slot).haltedUnder = some e → e = running.smp.anchorEpoch) ∧
    (∀ out : Fin 2, (withSlot { slot0 with remaining := 0, outstanding := if out = 0 then none else some 3 }
      running).sru.groups[(0 : Fin 8)].openSlot =
        some { slot0 with remaining := 0, outstanding := if out = 0 then none else some 3 }) ∧
    ((withSlot slot0 running).sru.groups[(0 : Fin 8)].openSlot = some slot0 ∧ slot0.remaining ≠ 0 ∧
      slot0.closing = false ∧ slot0.outstanding = none) ∧
    (running.smp.inForce = true ∧ State.reset.smp.inForce = false ∧
      (running.onSru fun r => { r with snapshotOffset := 0xFFFFAF80 }).sru.snapshotOffset.toNat + 20608 = 2 ^ 32) := by
  decide +kernel

/-- A group whose entry 1 is 300 below the balance limit: one lit zone-frame brings it there exactly, two would cross it;
and one whose charge would cross the lower limit. -/
theorem witness_balance_held :
    let s := withBalance 0 1 (2 ^ 47 - 301)
      (withSlot { slot0 with outstanding := some 9 } (withEntry 0 500 (withEntry 1 300 running)))
    let u := withBalance 0 0 (-(2 ^ 47) + 299)
      (withSlot { slot0 with outstanding := some 9 } (withEntry 0 500 (withEntry 1 300 running)))
    eligible s.sru 0 1 = true ∧ s.sru.accounts[(0 : Fin 8)][(1 : Fin 64)].balance + 300 * 1 = 2 ^ 47 - 1 ∧
    2 ^ 47 - 1 < s.sru.accounts[(0 : Fin 8)][(1 : Fin 64)].balance + 300 * 2 ∧
    u.sru.accounts[(0 : Fin 8)][(0 : Fin 64)].balance + 500 - 800 < -(2 ^ 47) ∧
    s.sru.groups[(0 : Fin 8)].saturated = false ∧ s.smp.inForce = true ∧ s.smp.anchor.toNat % 4096 = 0 := by
  decide +kernel

/-- A current and a closing slot with an outstanding frame, PRE_CLEAR set and clear, balances away from their limits. -/
theorem witness_ShownReportCreditsGroup :
    let s := withSlot { slot0 with outstanding := some 9 } (withEntry 0 500 (withEntry 1 300 running))
    s.sru.groups[(0 : Fin 8)].openSlot = some { slot0 with outstanding := some 9 } ∧ slot0.closing = false ∧
    slot0.preClear = false ∧ { slot0 with preClear := true }.preClear = true ∧
    (withSlot { slot0 with outstanding := some 9, closing := true } s).sru.groups[(0 : Fin 8)].openSlot =
      some { slot0 with outstanding := some 9, closing := true } ∧
    (∀ i : Fin 64, -(2 ^ 47) ≤ s.sru.accounts[(0 : Fin 8)][i].balance ∧
      s.sru.accounts[(0 : Fin 8)][i].balance + 1000 * 16 ≤ 2 ^ 47 - 1) := by decide +kernel

/-- The hold queue at 0, 1, 7 and 8 records; read indexes at the log's length, just before it, and one past the write
index; a log with room at its last record, for one record of the queue and with the queue empty. -/
theorem witness_LogWritesHoldsOrDrops :
    (let q : Nat → State := fun n => running.onPlw fun p => { p with hold := List.replicate n record0 }
     8 ≤ (q 8).plw.hold.length ∧ 1 ≤ (q 1).plw.hold.length ∧ (q 7).plw.hold.length < 8 ∧ (q 0).plw.hold = []) ∧
    State.reset.plw.frameDue = false ∧
    ((starting.plw.frameDue = true ∧ starting.smp.inForce = false) ∧ running.plw.frameDue = true) ∧
    ¬LogHasRoom (withWords 0x10020 [64] running) ∧
    ¬LogHasRoom ((withWords 0x10020 [63] running).onPlw fun p => { p with writeIndex := 62 }) ∧
    (let s := (withWords 0x10020 [1] running).onPlw fun p => { p with writeIndex := 63, hold := [record0, record0] }
     s.plw.frameDue = true ∧ s.smp.inForce = true ∧ s.plw.hold = record0 :: [record0] ∧ LogHasRoom s ∧ LogInside s) ∧
    (running.plw.hold = [] ∧ LogHasRoom running ∧ LogInside running) := by decide +kernel

/-- A RUNNING channel in each mode with this count and reload. -/
def counting (mode : ClockMode) (count : Nat) (auto : Bool) : State :=
  running.onCcu fun u => { u with channels := upd u.channels 3 fun c =>
    { c with mode := mode, count := count, auto := auto, preset := 100, limit := 7, state := .running } }

/-- Counts 2 and 1 downwards, 5 and 7 of a limit of 7 upwards, a STOPPED channel that may start, channels at their last
count and a TALLY of one, and a RUNNING channel at 0. -/
theorem witness_ChannelsCountAndExpire :
    (let x := (counting .countDown 2 false).ccu.channels[(3 : Fin 4)]
     x.state = .running ∧ x.mode ≠ .tally ∧ x.count ≠ 0 ∧ ¬x.lastCount) ∧
    (let x := (counting .countDown 1 true).ccu.channels[(3 : Fin 4)]
     x.lastCount ∧ x.mode ≠ .tally) ∧
    (let x := (counting .countUp 5 false).ccu.channels[(3 : Fin 4)]
     x.state = .running ∧ ¬x.lastCount) ∧
    ((counting .countUp 6 false).ccu.channels[(3 : Fin 4)].lastCount ∧
      (counting .countUp 7 true).ccu.channels[(3 : Fin 4)].lastCount) ∧
    ((counting .countDown 0 false).ccu.channels[(3 : Fin 4)].state = .running ∧
      (counting .countDown 0 false).ccu.channels[(3 : Fin 4)].count = 0 ∧
      ¬(counting .countDown 0 false).ccu.channels[(3 : Fin 4)].lastCount) ∧
    (let s := counting .countDown 1 false
     (∀ d : Fin 4, s.ccu.channels[d].mode = .tally → s.ccu.channels[d].source ≠ 3) ∧ s.etu.handling = false) ∧
    (let s := (counting .countDown 1 false).onCcu fun u => { u with channels := upd u.channels 0 fun c =>
       { c with mode := .tally, source := 3, count := 3, limit := 4, state := .running } }
     Expired s (andThen (.millisecondBoundary 0) s) 3 ∧ s.ccu.channels[(0 : Fin 4)].lastCount ∧
     s.ccu.channels[(3 : Fin 4)].mode ≠ .tally ∧
     ∀ d : Fin 4, s.ccu.channels[d].mode = .tally → s.ccu.channels[d].source ≠ 0) ∧
    (let s := (counting .countDown 2 false).onCcu fun u => { u with channels := upd u.channels 0 fun c =>
       { c with mode := .tally, source := 3, count := 3, limit := 4, state := .running } }
     s.ccu.channels[(0 : Fin 4)].lastCount ∧ ¬s.ccu.channels[(3 : Fin 4)].lastCount) := by
  unfold Channel.lastCount
  decide +kernel

/-- A line of this action qualifying to a level after so many boundaries of a qualify time of 20. -/
def qualifying (act : LineAction) (level : Bool) (held : Nat) : State :=
  armed.onCcu fun u => { u with horn := 1, lines := upd u.lines 7 fun l =>
    { l with action := act, qualify := 20, channel := 3, qualifying := some (level, held) } }

/-- Line 7 of a qualify time of 20: held 18 samples, 19, and 19 with the level gone back; one that starts, and one
ACTIVE_LOW whose sample of 0 is active; a press that starts channel 3, one that is TOGGLE's, one of the action NONE. -/
theorem witness_lines_sampled :
    ((qualifying .start true 18).ccu.lines[(7 : Fin 8)].heldFor true = 19 ∧
      (qualifying .start true 19).ccu.lines[(7 : Fin 8)].heldFor true = 20 ∧
      (qualifying .start true 19).ccu.lines[(7 : Fin 8)].qualify = 20) ∧
    (Pressed 0x80 (qualifying .start true 19) 7 ∧ (qualifying .start true 19).etu.handling = false ∧
      (qualifying .start true 19).ccu.lines[(7 : Fin 8)].channel = 3 ∧
      (andThen (.millisecondBoundary 0x80) (qualifying .start true 19)).ccu.channels[(3 : Fin 4)].reqStart = true) ∧
    Pressed 0x80 (qualifying .toggle true 19) 7 ∧ Pressed 0x80 (qualifying .none true 19) 7 ∧
    ¬Pressed 0x80 (qualifying .start true 18) 7 ∧
    sampledLevel 0 (qualifying .start true 19) 7 = (qualifying .start true 19).ccu.lines[(7 : Fin 8)].qualified ∧
    running.ccu.lines[(0 : Fin 8)].heldFor true = 1 ∧
    sampledLevel 0 (running.onCcu fun u => { u with lines := upd u.lines 0 fun l => { l with activeLow := true } }) 0 =
      true := by
  unfold Pressed
  decide +kernel

theorem witness_ConsolePressActsOnce :
    ((qualifying .start true 19).ccu.lines[(7 : Fin 8)].qualifying = some (true, 19) ∧
      19 < (qualifying .start true 19).ccu.lines[(7 : Fin 8)].qualify) ∧
    ((qualifying .horn false 20).ccu.lines[(7 : Fin 8)].qualifying = some (false, 20) ∧
      (qualifying .horn false 20).ccu.lines[(7 : Fin 8)].qualify ≤ 20) ∧
    ((qualifying .toggle true 20).ccu.lines[(7 : Fin 8)].qualifying = some (true, 20) ∧
      (qualifying .toggle true 20).ccu.lines[(7 : Fin 8)].action ≠ .none ∧
      (qualifying .toggle true 20).etu.handling = false ∧ (qualifying .toggle true 20).smp.dev = .running) ∧
    (qualifying .none true 20).ccu.lines[(7 : Fin 8)].action = .none ∧ running.ccu.lines[(0 : Fin 8)].qualifying = none ∧
    (qualifying .none true 20).ccu.horn = 1 ∧ running.ccu.horn ≠ 1 := by decide +kernel

theorem witness_ClockSnapshotShowsChannels : running.smp.anchor.toNat % 4096 = 0 ∧ running.ccu.frameDue = true ∧
    running.smp.inForce = true ∧ starting.smp.inForce = false ∧ State.reset.ccu.frameDue = false := by decide +kernel

theorem witness_PendingTriggersFireOrDrop : State.reset.etu.frameDue = false ∧
    ((withDev .fallback true true).etu.frameDue = true ∧ (withDev .fallback true true).smp.dev ≠ .running ∧
      (withDev .fallback true true).smp.inForce = true ∧ starting.smp.inForce = false ∧ starting.smp.dev ≠ .running) ∧
    (armed.etu.frameDue = true ∧ armed.smp.dev = .running ∧ armed.etu.entries[(7 : Fin 8)].pending = true) ∧
    ((∀ e : Fin 8, running.etu.entries[e].pending = false) ∧ running.etu.inbox = []) ∧
    (armed.etu.entries[(7 : Fin 8)].action = some (.clip clip1) ∧
      (∀ x : Fin 8, armed.etu.entries[x].pending = true ↔ x = 7) ∧
      (andThen (.playClip ⟨.trigger 7, false⟩ clip1) (armed.onEtu fun u => { u with handling := true })).etu.inbox = [] ∧
      armed.smp.inForce = true ∧ armed.smp.anchor.toNat % 4096 = 0) := by decide +kernel

/-- The sample that a CLOCK box of channel 3 shows. -/
def clockFrame : FrameWork :=
  { number := 3, content := true, view := [], answers := [], scores := [], clocks := [⟨3, 59900, .countDown, .running⟩] }

/-- R88 through the box: the sampled word −7 in three places. -/
theorem test_score_box : boxed.scores.lookup 5 = some 0xFFFFFFF9 ∧
    boxString boxed { source := .score 5 3 false, x := 20, y := 10, scale := 2, colour := 9, cover := 3 } =
      [0x20, 0x2D, 0x37] := by decide +kernel

/-- The ends of both ranges of R88 with 3 digits, and the digits at 1 and 4; a sample found; the two forms of MMSS_TENTHS
where they meet, rounding up and down, and the last minutes-and-seconds string of R89. -/
theorem witness_BoxStringsFollowRules : 1 ≤ 1 ∧ 4 ≤ 4 ∧ (10 ^ 3 - 1 : Int) < (1000#32).toInt ∧
    (999#32).toInt ≤ 10 ^ 3 - 1 ∧ (BitVec.ofInt 32 (-100)).toInt < -(10 ^ (3 - 1) - 1) ∧
    -(10 ^ (3 - 1) - 1) ≤ (BitVec.ofInt 32 (-99)).toInt ∧
    (clockFrame.clocks.find? fun k => k.channel == 3) = some ⟨3, 59900, .countDown, .running⟩ ∧
    (600 ≤ (59901 + 99) / 100 ∧ ¬600 ≤ (59900 + 99) / 100 ∧ 600 ≤ 60000 / 100 ∧ ¬600 ≤ 59999 / 100) ∧
    (35999 < 36000000 / 1000 ∧ ¬35999 < 35999999 / 1000) ∧ (ClockMode.countUp ≠ .tally ∧ ClockMode.countDown ≠ .tally) := by
  decide +kernel

/-- A group with a claim, an open slot of 4 running zone-frames, delivered 4, balances 7 and −7, a held record. -/
def settledState : State :=
  ((withBalance 0 0 (-7) (withBalance 0 1 7 (withSlot slot0 (withGroup running)))).onSru fun r =>
    { r with accounts := upd r.accounts 0 fun row => upd row 0 fun a => { a with delivered := 8 } }).onPlw fun p =>
      { p with hold := [record0] }

/-- One state that meets the seven invariants together. -/
theorem witness_EveryCommandKeeps : SmpConsistent settledState ∧ settledState.mem.wf ∧ ClaimListsFormed settledState ∧
    ClockCountsBounded settledState ∧ HoldBounded settledState ∧ BalancesSettled settledState ∧
    DeliveredConserved settledState := by
  refine ⟨?_, by decide +kernel, ⟨?_, by decide +kernel⟩, ?_, ?_, ?_, ?_⟩
  · unfold SmpConsistent
    decide +kernel
  · have key : ∀ z : Fin 16, settledState.zar.table[z] = none ∨
        (z = 0 ∧ settledState.zar.table[z] = some ⟨0, zone0, [⟨.group 0, 6⟩]⟩) := by decide +kernel
    intro z e h
    obtain n | ⟨rfl, k⟩ := key z
    · rw [n] at h
      cases h
    · rw [k] at h
      obtain rfl := Option.some.inj h
      refine ⟨by decide +kernel, ?_⟩
      intro c hc g hg
      obtain rfl := List.mem_singleton.mp hc
      cases hg
      rfl
  · have key : ∀ c : Fin 4, settledState.ccu.channels[c] = Channel.reset := by decide +kernel
    intro c
    rw [key c]
    exact ⟨by decide, by decide, fun _ h => nomatch h⟩
  · unfold HoldBounded
    decide +kernel
  · unfold BalancesSettled
    decide +kernel
  · unfold DeliveredConserved
    decide +kernel

theorem witness_PartWritesOnlyUnderAnchor : starting.smp.inForce = false ∧ ∀ now, Instr.frameStart ≠ .anchorCheck now :=
  ⟨rfl, fun _ h => nomatch h⟩

end Sys2Proof.Tests
end

section
/-! SUPPORT. Start-up (R9, R11): what each check of R9 answers, what a failed start makes of the state, and the two host
writes that FAULTED takes. -/

namespace Sys2Proof.Machine

/-! ## The rows of start-up as commands -/

theorem exec_anchorWrite (v : Word) (s : State) : exec (.anchorWrite v) s = .next (writeAnchorRegister v s) := rfl

theorem exec_setRun (v : Word) (s : State) : exec (.setRun v) s = .next (writeControl v s) := rfl

theorem exec_anchorCheck (now : Bool) (s : State) : exec (.anchorCheck now) s =
    .next (if s.smp.frameDue && s.smp.dev == .starting then anchorCheck now (smpHandled s) else s) := rfl

/-! ## The checks of R9, in their order -/

section StartCheck

variable {s : State}

theorem startCheck_format (hformat : anchorWord s 0x00 ≠ 1) : startCheck s = .error .format :=
  if_pos hformat

variable (hformat : anchorWord s 0x00 = 1)
include hformat

theorem startCheck_cueLength (hcues : (anchorWord s 0x08).toNat < 16 ∨ 1024 < (anchorWord s 0x08).toNat) :
    startCheck s = .error .cueLength := by
  simp [startCheck, hformat, hcues]

variable (hcuesLo : 16 ≤ (anchorWord s 0x08).toNat) (hcuesHi : (anchorWord s 0x08).toNat ≤ 1024)
include hcuesLo hcuesHi

theorem startCheck_logLength (hlog : (anchorWord s 0x1C).toNat < 64 ∨ 65536 < (anchorWord s 0x1C).toNat) :
    startCheck s = .error .logLength := by
  simp [startCheck, hformat, hcuesLo.not_gt, hcuesHi.not_gt, hlog]

variable (hlogLo : 64 ≤ (anchorWord s 0x1C).toNat) (hlogHi : (anchorWord s 0x1C).toNat ≤ 65536)
include hlogLo hlogHi

theorem startCheck_logIndex (hindex : (anchorWord s 0x1C).toNat ≤ (anchorWord s 0x20).toNat) :
    startCheck s = .error .logIndex := by
  simp [startCheck, hformat, hcuesLo.not_gt, hcuesHi.not_gt, hlogLo.not_gt, hlogHi.not_gt, hindex]

variable (hindex : (anchorWord s 0x20).toNat < (anchorWord s 0x1C).toNat)
include hindex

theorem startCheck_region (hregions : regionsOk s = false) : startCheck s = .error .region := by
  simp [startCheck, hformat, hcuesLo.not_gt, hcuesHi.not_gt, hlogLo.not_gt, hlogHi.not_gt, hindex.not_ge, hregions]

theorem startCheck_commonLayout (hregions : regionsOk s = true) (hlayout : commonLayout s = none) :
    startCheck s = .error .commonLayout := by
  simp [startCheck, hformat, hcuesLo.not_gt, hcuesHi.not_gt, hlogLo.not_gt, hlogHi.not_gt, hindex.not_ge, hregions,
    hlayout]

end StartCheck

/-- The checks read show memory and the anchor offset alone. -/
@[simp] theorem startCheck_smpHandled (s : State) : startCheck (smpHandled s) = startCheck s := rfl

/-! ## Writes while no anchor is in force (R6) -/

theorem anchorWrite_of_not_inForce {s : State} (h : s.smp.inForce = false) (offset : Nat) (ws : List Word) :
    anchorWrite offset ws s = s := by
  simp [anchorWrite, h]

theorem setDev_of_not_inForce {s : State} (h : s.smp.inForce = false) (d : DevState) :
    setDev d s = s.onSmp fun m => { m with dev := d } :=
  anchorWrite_of_not_inForce (s := s.onSmp fun m => { m with dev := d }) h _ _

/-! ## A failed start (R11) -/

/-- What a failed start makes of a state with no anchor in force: the SMP alone changes. -/
theorem startFail_eq {s : State} (h : s.smp.inForce = false) (code : FaultCode) :
    startFail code s = { s with smp := { s.smp with dev := .faulted, fault := code, run := false,
                                                    events := s.smp.events ||| 0x200#10 } } := by
  have hdev := setDev_of_not_inForce (s := s.onSmp fun m => { m with run := false, fault := code }) h .faulted
  rw [startFail, hdev]
  rfl

@[simp] theorem startFail_dev (code : FaultCode) (s : State) : (startFail code s).smp.dev = .faulted := by
  simp [startFail, setDev]

@[simp] theorem startFail_run (code : FaultCode) (s : State) : (startFail code s).smp.run = false := by
  simp [startFail, setDev]

/-- Row ANCHOR_CHECK when a check of R9 fails: the frame start is handled and the start fails with that check's code. -/
theorem exec_anchorCheck_error {s : State} {code : FaultCode} (hdue : s.smp.frameDue = true)
    (hdev : s.smp.dev = .starting) (hcheck : startCheck s = .error code) (now : Bool) :
    exec (.anchorCheck now) s = .next (startFail code (smpHandled s)) := by
  simp [exec_anchorCheck, hdue, hdev, anchorCheck, hcheck]

/-! ## The host writes that FAULTED takes (R2, R3) -/

theorem enterStarting_dev (s : State) : (enterStarting s).smp.dev = .starting := by simp [enterStarting, setDev]

theorem enterStarting_run (s : State) : (enterStarting s).smp.run = s.smp.run := by
  simp [enterStarting, setDev, endAnchor]

/-- A write of RUN 1 in FAULTED starts the device again (R3). -/
theorem exec_setRun_of_faulted {s : State} (hdev : s.smp.dev = .faulted) (hrun : s.smp.run = false) :
    exec (.setRun 1) s = .next (enterStarting (setRunBit true s)) := by
  have hcontrol : writeControl 1 s = writeRun true s := rfl
  rw [exec_setRun, hcontrol]
  simp [writeRun, hdev, hrun]

/-- R2's discarding of the low 12 bits, as a mask. -/
theorem anchorOffset_eq_mask (v : Word) : anchorOffset v = v &&& 0xFFFFF000#32 :=
  BitVec.shiftLeft_ushiftRight

/-- A write to AV_ANCHOR while the device is stopped (R2). -/
theorem exec_anchorWrite_of_stopped {s : State} (hstopped : s.smp.dev.stopped = true) (v : Word) :
    exec (.anchorWrite v) s = .next (endAnchor (s.onSmp fun m => { m with anchor := anchorOffset v })) := by
  rw [exec_anchorWrite, writeAnchorRegister, if_pos hstopped]

/-! ## The obligation -/

/-- Settles O14: the first failing check gives the error of `startCheck`, whatever the later checks say; the rest is the
failed start and the two writes that FAULTED takes. -/
theorem failedStartFaults : Obligations.FailedStartFaults := by
  intro now code s hdue hdev hforce hfails
  have hcheck : startCheck s = .error code := by
    obtain ⟨rfl, hformat⟩ | ⟨hformat, hfails⟩ := hfails
    · exact startCheck_format hformat
    obtain ⟨rfl, hcues⟩ | ⟨hcuesLo, hcuesHi, hfails⟩ := hfails
    · exact startCheck_cueLength hformat hcues
    obtain ⟨rfl, hlog⟩ | ⟨hlogLo, hlogHi, hfails⟩ := hfails
    · exact startCheck_logLength hformat hcuesLo hcuesHi hlog
    obtain ⟨rfl, hindex⟩ | ⟨hindex, hfails⟩ := hfails
    · exact startCheck_logIndex hformat hcuesLo hcuesHi hlogLo hlogHi hindex
    obtain ⟨rfl, hregions⟩ | ⟨rfl, hregions, hlayout⟩ := hfails
    · exact startCheck_region hformat hcuesLo hcuesHi hlogLo hlogHi hindex hregions
    · exact startCheck_commonLayout hformat hcuesLo hcuesHi hlogLo hlogHi hindex hregions hlayout
  have hstopped : (startFail code (smpHandled s)).smp.dev.stopped = true := by simp [DevState.stopped]
  exact ⟨startFail code (smpHandled s), exec_anchorCheck_error hdue hdev hcheck now,
    startFail_eq (s := smpHandled s) hforce code,
    ⟨_, exec_setRun_of_faulted (startFail_dev ..) (startFail_run ..), enterStarting_dev _, enterStarting_run _⟩,
    fun v => ⟨_, exec_anchorWrite_of_stopped hstopped v, anchorOffset_eq_mask v⟩⟩

end Sys2Proof.Machine
end

section
/-! SUPPORT. An answer on a panel link (R77): the link states word, the report of a change of a link's state, and the
answer on an UP and on a DOWN link. -/

namespace Sys2Proof.Machine

/-! ## A change that finds nothing to change -/

theorem upd_of_fixed {α : Type} {n : Nat} {v : Vector α n} {i : Fin n} {f : α → α} (h : f v[i] = v[i]) :
    upd v i f = v := by
  ext j hj
  rw [← Fin.getElem_fin v ⟨j, hj⟩, ← Fin.getElem_fin (upd v i f) ⟨j, hj⟩, upd_get, ite_eq_right_iff]
  rintro rfl
  exact h

theorem onLink_of_fixed {n : Fin 4} {f : PanelLink → PanelLink} {s : State} (h : f s.clo.links[n] = s.clo.links[n]) :
    onLink n f s = s := by
  rw [onLink, State.onClo, upd_of_fixed h]

/-! ## The link states word (12.3) -/

theorem linkWord_bits (links : Vector PanelLink 4) :
    (linkWord links).getLsbD 0 = links[0].up ∧ (linkWord links).getLsbD 1 = links[1].up ∧
    (linkWord links).getLsbD 2 = links[2].up ∧ (linkWord links).getLsbD 3 = links[3].up := by
  unfold linkWord
  generalize links[0].up = a, links[1].up = b, links[2].up = c, links[3].up = d
  revert a b c d
  decide

/-- Bit m of the link states word is link m UP. -/
theorem linkWord_getLsbD (links : Vector PanelLink 4) (m : Fin 4) : (linkWord links).getLsbD m.val = links[m].up := by
  obtain ⟨h0, h1, h2, h3⟩ := linkWord_bits links
  fin_cases m
  · exact h0
  · exact h1
  · exact h2
  · exact h3

/-! ## The report of a change of a link's state (R77, R78) -/

/-- The link states lie inside show memory, wherever the anchor is (R2). -/
theorem linkStates_inside {s : State} (haligned : s.smp.anchor.toNat % 4096 = 0) :
    s.smp.anchor.toNat + 0x124 + 4 ≤ Config.memorySize := by
  have hword := s.smp.anchor.isLt
  simp only [Config.memorySize]
  omega

theorem reportLinks_mem_of_not_inForce {s : State} (h : s.smp.inForce = false) : (reportLinks s).mem = s.mem := by
  simp [reportLinks, anchorWrite_mem, h]

theorem reportLinks_linkBit {s : State} (haligned : s.smp.anchor.toNat % 4096 = 0) (hforce : s.smp.inForce = true)
    (m : Fin 4) : ((reportLinks s).mem.word (s.smp.anchor.toNat + 0x124)).getLsbD m.val = s.clo.links[m].up := by
  have hword : (reportLinks s).mem.word (s.smp.anchor.toNat + 0x124) = linkWord s.clo.links := by
    rw [reportLinks, raise_mem, anchorWrite_mem, if_pos hforce,
      Memory.word_storeWords_first _ _ _ _ (linkStates_inside haligned)]
  rw [hword, linkWord_getLsbD]

theorem reportLinks_get_outside {s : State} {a : Nat} (h : ¬AnchorByte s 0x124 0x128 a) :
    (reportLinks s).mem.get a = s.mem.get a := by
  rw [reportLinks, raise_mem, anchorWrite_mem]
  split
  · rw [AnchorByte] at h
    exact Memory.get_storeWords_outside _ _ _ _ (by simp only [List.length_singleton]; omega)
  · rfl

/-! ## An answer on a link, UP or DOWN before it (R77) -/

theorem exec_linkAnswer (n : Fin 4) (s : State) : exec (.linkAnswer n) s = .next (answerLink n s) := rfl

theorem answerLink_of_up {n : Fin 4} {s : State} (h : s.clo.links[n].up = true) :
    answerLink n s = onLink n (fun l => { l with seen := true }) s :=
  if_pos h

theorem answerLink_of_down {n : Fin 4} {s : State} (h : s.clo.links[n].up = false) :
    answerLink n s = reportLinks (onLink n (fun _ => { up := true, miss := 0, seen := true }) s) :=
  if_neg (ne_true_of_eq_false h)

/-- A link answered is UP with its answer seen, so a second answer finds nothing to change. -/
theorem answerLink_idem (n : Fin 4) (s : State) : answerLink n (answerLink n s) = answerLink n s := by
  have hanswered : (answerLink n s).clo.links[n].up = true ∧ (answerLink n s).clo.links[n].seen = true := by
    cases h : s.clo.links[n].up with
    | true => simpa [answerLink_of_up h] using h
    | false => rw [answerLink_of_down h]; simp [reportLinks]
  obtain ⟨hup, hseen⟩ := hanswered
  rw [answerLink_of_up hup]
  refine onLink_of_fixed ?_
  rw [← hseen]

/-! ## The obligation -/

/-- Settles O41: the UP link by its equation, the DOWN link by what the report of its change does to the flags and to the
link states. -/
theorem linkAnswerBringsLinkUp : Obligations.LinkAnswerBringsLinkUp := by
  intro n s haligned
  refine ⟨answerLink n s, exec_linkAnswer n s, ?second, answerLink_of_up, fun hdown => ?brought⟩
  case second => rw [exec_linkAnswer, answerLink_idem]
  case brought =>
    have honly : ChangesOnly [.mem, .events, .clo] s (answerLink n s) := answerLink_then n (.refl _ s) rfl
    rw [answerLink_of_down hdown] at honly ⊢
    refine ⟨by simp [reportLinks], by simp [reportLinks, Event.bit], honly,
      fun hforce => reportLinks_mem_of_not_inForce (s := onLink n _ s) hforce,
      fun hforce => ⟨fun m => ?_, fun a ha => reportLinks_get_outside (s := onLink n _ s) ha⟩⟩
    · refine (reportLinks_linkBit (s := onLink n _ s) haligned hforce m).trans ?_
      rw [onLink_clo, upd_get]
      by_cases hm : m = n <;> simp [hm]

end Sys2Proof.Machine
end

section
/-! SUPPORT. The strings of SCORE and CLOCK boxes (R88 to R90): the decimal places of a number, where they stand behind
what is put to their left, and each row of R88 and R89. -/

namespace Sys2Proof.Machine

/-! ## A number in decimal -/

/-- The character of a decimal digit has the code the model gives it. -/
theorem digitChar_toNat {d : Nat} (hd : d < 10) : (Nat.digitChar d).toNat = digitCode d := by
  have hall : ∀ d : Fin 10, (Nat.digitChar d).toNat = digitCode d := by decide
  exact hall ⟨d, hd⟩

theorem decimalFuel_eq_toDigits {k n : Nat} (h : n ≤ k) : decimalFuel k n = (Nat.toDigits 10 n).map Char.toNat := by
  induction k generalizing n with
  | zero =>
    obtain rfl := Nat.le_zero.1 h
    rfl
  | succ k ih =>
    unfold decimalFuel
    split
    · next hn => simp [Nat.toDigits_of_lt_base hn, digitChar_toNat hn]
    · next hn =>
      rw [ih (by omega), Nat.toDigits_of_base_le (by decide) (Nat.not_lt.1 hn)]
      simp [digitChar_toNat (Nat.mod_lt n (by decide : 10 > 0))]

/-- The decimal places of the model are those of Lean's own decimal numerals. -/
theorem decimal_eq_toDigits (n : Nat) : decimal n = (Nat.toDigits 10 n).map Char.toNat :=
  decimalFuel_eq_toDigits (Nat.le_refl n)

theorem decimal_of_lt_ten {n : Nat} (h : n < 10) : decimal n = [digitCode n] := by
  simp [decimal_eq_toDigits, Nat.toDigits_of_lt_base h, digitChar_toNat h]

theorem decimal_of_ten_le {n : Nat} (h : 10 ≤ n) : decimal n = decimal (n / 10) ++ [digitCode (n % 10)] := by
  simp [decimal_eq_toDigits, Nat.toDigits_of_base_le (by decide) h, digitChar_toNat (Nat.mod_lt n (by decide : 10 > 0))]

theorem decimal_length_le_iff {n k : Nat} (hk : 0 < k) : (decimal n).length ≤ k ↔ n < 10 ^ k := by
  simpa [decimal_eq_toDigits] using Nat.length_toDigits_le_iff (b := 10) (n := n) (by decide) hk

theorem decimal_length_pos (n : Nat) : 0 < (decimal n).length := by
  simpa [decimal_eq_toDigits] using Nat.length_toDigits_pos (b := 10) (n := n)

/-- The places of a number, counted from the last: the last one, and those up to its leading digit. -/
theorem lt_decimal_length_iff {n p : Nat} : p < (decimal n).length ↔ p = 0 ∨ n / 10 ^ p ≠ 0 := by
  obtain rfl | hp := Nat.eq_zero_or_pos p
  · simp [decimal_length_pos]
  · rw [← not_le, decimal_length_le_iff hp, Ne, Nat.div_eq_zero_iff_lt (Nat.pow_pos (by decide))]
    simp [hp.ne']

theorem lt_decimal_length_iff_of_pos {n p : Nat} (hn : 0 < n) : p < (decimal n).length ↔ n / 10 ^ p ≠ 0 := by
  rw [lt_decimal_length_iff]
  refine or_iff_right_of_imp ?_
  rintro rfl
  simpa using hn.ne'

/-- The decimal place p, counted from the last. -/
theorem decimal_getElem?_from_last {n p : Nat} (h : p < (decimal n).length) :
    (decimal n)[(decimal n).length - 1 - p]? = some (digitCode (n / 10 ^ p % 10)) := by
  induction n using Nat.strongRecOn generalizing p with
  | ind n ih =>
    by_cases hn : n < 10
    · have hp : p = 0 := by simpa [decimal_of_lt_ten hn] using h
      simp [decimal_of_lt_ten hn, hp, Nat.mod_eq_of_lt hn]
    · rw [decimal_of_ten_le (Nat.not_lt.1 hn)] at h ⊢
      cases p with
      | zero => simp
      | succ p =>
        have hp : p < (decimal (n / 10)).length := by simpa using h
        have hindex : (decimal (n / 10)).length + 1 - 1 - (p + 1) = (decimal (n / 10)).length - 1 - p := by omega
        rw [List.length_append, List.length_singleton, hindex, List.getElem?_append_left (by omega),
          ih (n / 10) (by omega) hp, Nat.div_div_eq_div_mul, Nat.pow_succ']

/-! ## A number at the right of d places -/

theorem append_decimal_getElem? {left : List Nat} {n d i : Nat} (hlength : left.length + (decimal n).length = d)
    (hi : i < d) : (left ++ decimal n)[i]? =
      if d - 1 - i < (decimal n).length then some (digitCode (n / 10 ^ (d - 1 - i) % 10)) else left[i]? := by
  split
  · next hplace =>
    have hindex : i - left.length = (decimal n).length - 1 - (d - 1 - i) := by omega
    rw [List.getElem?_append_right (by omega), hindex, decimal_getElem?_from_last hplace]
  · exact List.getElem?_append_left (by omega)

section Placed

variable {filler n d i : Nat} (hi : i < d)
include hi

/-- A number that has room in d places, behind a filler (R88). -/
theorem filled_decimal_getElem? (hfits : n < 10 ^ d) :
    (List.replicate (d - (decimal n).length) filler ++ decimal n)[i]? =
      some (if d - 1 - i < (decimal n).length then digitCode (n / 10 ^ (d - 1 - i) % 10) else filler) := by
  have hroom := (decimal_length_le_iff (by omega)).2 hfits
  rw [append_decimal_getElem? (d := d) (by simp [hroom]) hi]
  split
  · rfl
  · exact List.getElem?_replicate_of_lt (by omega)

/-- Behind zeros, every place is a decimal place. -/
theorem zero_filled_decimal_getElem? (hfits : n < 10 ^ d) :
    (List.replicate (d - (decimal n).length) (digitCode 0) ++ decimal n)[i]? =
      some (digitCode (n / 10 ^ (d - 1 - i) % 10)) := by
  rw [filled_decimal_getElem? hi hfits]
  split
  · rfl
  · next hleft =>
    have hzero : n / 10 ^ (d - 1 - i) = 0 := by
      by_contra h
      exact hleft (lt_decimal_length_iff.2 (.inr h))
    rw [hzero]

/-- A number behind a minus sign, and that behind a filler (R88): the sign stands one place left of the leading digit. -/
theorem minus_decimal_getElem? (hd : 1 < d) (hfits : n < 10 ^ (d - 1)) :
    (List.replicate (d - 1 - (decimal n).length) filler ++ minusCode :: decimal n)[i]? =
      some (if d - 1 - i < (decimal n).length then digitCode (n / 10 ^ (d - 1 - i) % 10)
        else if d - 2 - i < (decimal n).length then minusCode else filler) := by
  have hroom := (decimal_length_le_iff (by omega)).2 hfits
  have hpos := decimal_length_pos n
  have hlength :
      (List.replicate (d - 1 - (decimal n).length) filler ++ [minusCode]).length + (decimal n).length = d := by
    rw [List.length_append, List.length_replicate, List.length_singleton]
    omega
  rw [List.append_cons, append_decimal_getElem? hlength hi]
  split
  · rfl
  split
  · have hsign : i = d - 1 - (decimal n).length := by omega
    simp [hsign]
  · have hfill : i < d - 1 - (decimal n).length := by omega
    simp [List.getElem?_append_left, hfill]

end Placed

/-! ## The string of a SCORE box, row by row (R88) -/

section Score

variable {d : Nat} {pad : Bool} {v : Int}

theorem scoreString_above (h : (10 ^ d - 1 : Int) < v) : scoreString d pad v = List.replicate d (digitCode 9) :=
  if_pos h

theorem scoreString_below (h : v < -(10 ^ (d - 1) - 1 : Int)) :
    scoreString d pad v = minusCode :: List.replicate (d - 1) (digitCode 9) := by
  have hpow : (0 : Int) < 10 ^ d := by positivity
  have hpow' : (0 : Int) < 10 ^ (d - 1) := by positivity
  rw [scoreString, if_neg (by omega), if_pos h]

theorem scoreString_nonneg (h0 : 0 ≤ v) (h : v ≤ 10 ^ d - 1) : scoreString d pad v =
    List.replicate (d - (decimal v.natAbs).length) (if pad then digitCode 0 else spaceCode) ++ decimal v.natAbs := by
  have hpow : (0 : Int) < 10 ^ (d - 1) := by positivity
  rw [scoreString, if_neg (by omega), if_neg (by omega), if_pos h0, show v.toNat = v.natAbs by omega]

theorem natAbs_lt_of_nonneg (h0 : 0 ≤ v) (h : v ≤ 10 ^ d - 1) : v.natAbs < 10 ^ d := by
  have hcast : ((10 ^ d : Nat) : Int) = 10 ^ d := by push_cast; rfl
  omega

variable (h0 : v < 0) (h : -(10 ^ (d - 1) - 1 : Int) ≤ v)
include h0 h

theorem scoreString_neg : scoreString d pad v =
    if pad then minusCode :: (List.replicate (d - 1 - (decimal v.natAbs).length) (digitCode 0) ++ decimal v.natAbs)
    else List.replicate (d - 1 - (decimal v.natAbs).length) spaceCode ++ minusCode :: decimal v.natAbs := by
  have hpow : (0 : Int) < 10 ^ d := by positivity
  rw [scoreString, if_neg (by omega), if_neg (by omega), if_neg (by omega)]
  rfl

/-- No negative value is in the range of a single place. -/
theorem two_places_of_neg : 1 < d := by
  by_contra hd
  have hone : (10 : Int) ^ (d - 1) = 1 := by rw [Nat.sub_eq_zero_of_le (Nat.not_lt.1 hd), pow_zero]
  omega

/-- A negative value in range has room behind its sign. -/
theorem natAbs_lt_of_neg : v.natAbs < 10 ^ (d - 1) := by
  have hcast : ((10 ^ (d - 1) : Nat) : Int) = 10 ^ (d - 1) := by push_cast; rfl
  omega

end Score

/-! ## The places of a SCORE box with room for its value (R88) -/

theorem scoreString_nonneg_getElem? {d i : Nat} {pad : Bool} {v : Int} (hi : i < d) (h0 : 0 ≤ v) (h : v ≤ 10 ^ d - 1) :
    (scoreString d pad v)[i]? = some
      (if pad = false ∧ i + 1 < d ∧ v.natAbs / 10 ^ (d - 1 - i) = 0 then 0x20
       else 0x30 + v.natAbs / 10 ^ (d - 1 - i) % 10) := by
  have hfits := natAbs_lt_of_nonneg h0 h
  rw [scoreString_nonneg h0 h]
  cases pad with
  | true => simpa [digitCode] using zero_filled_decimal_getElem? hi hfits
  | false =>
    have hblank : ¬d - 1 - i < (decimal v.natAbs).length ↔
        false = false ∧ i + 1 < d ∧ v.natAbs / 10 ^ (d - 1 - i) = 0 := by
      rw [lt_decimal_length_iff, not_or, not_not, eq_self, true_and]
      exact and_congr_left' (by omega)
    rw [if_neg Bool.false_ne_true, filled_decimal_getElem? hi hfits, ← ite_not]
    simp only [hblank]
    rfl

theorem scoreString_neg_getElem? {d i : Nat} {v : Int} (hi : i < d) (h0 : v < 0) (h : -(10 ^ (d - 1) - 1 : Int) ≤ v) :
    (scoreString d false v)[i]? = some
      (if v.natAbs / 10 ^ (d - 1 - i) ≠ 0 then 0x30 + v.natAbs / 10 ^ (d - 1 - i) % 10
       else if v.natAbs / 10 ^ (d - 2 - i) ≠ 0 then 0x2D else 0x20) := by
  have hpos : 0 < v.natAbs := by omega
  rw [scoreString_neg h0 h, if_neg Bool.false_ne_true, minus_decimal_getElem? hi (two_places_of_neg h0 h)
    (natAbs_lt_of_neg h0 h)]
  simp only [lt_decimal_length_iff_of_pos hpos, digitCode, minusCode, spaceCode]

theorem scoreString_neg_padded {d : Nat} {v : Int} (h0 : v < 0) (h : -(10 ^ (d - 1) - 1 : Int) ≤ v) :
    (scoreString d true v)[0]? = some 0x2D ∧
    ∀ i, 1 ≤ i → i < d → (scoreString d true v)[i]? = some (0x30 + v.natAbs / 10 ^ (d - 1 - i) % 10) := by
  rw [scoreString_neg h0 h, if_pos rfl]
  refine ⟨rfl, fun i h1 hi => ?_⟩
  obtain ⟨i, rfl⟩ := Nat.exists_eq_add_of_le' h1
  rw [List.getElem?_cons_succ, zero_filled_decimal_getElem? (d := d - 1) (by omega) (natAbs_lt_of_neg h0 h),
    show d - 1 - 1 - i = d - 1 - (i + 1) by omega]
  rfl

/-- In every case of R88 the string has exactly the places of its box. -/
theorem scoreString_length {d : Nat} (hd : 1 ≤ d) (pad : Bool) (v : Int) : (scoreString d pad v).length = d := by
  by_cases habove : (10 ^ d - 1 : Int) < v
  · simp [scoreString_above habove]
  by_cases hbelow : v < -(10 ^ (d - 1) - 1 : Int)
  · simp [scoreString_below hbelow, hd]
  obtain h0 | h0 := Int.lt_or_le v 0
  · have h := Int.not_lt.1 hbelow
    have hplaces := two_places_of_neg h0 h
    have hroom := (decimal_length_le_iff (by omega)).2 (natAbs_lt_of_neg h0 h)
    rw [scoreString_neg h0 h]
    split <;> simp <;> omega
  · have hnonneg := Int.not_lt.1 habove
    have hroom := (decimal_length_le_iff (n := v.natAbs) hd).2 (natAbs_lt_of_nonneg h0 hnonneg)
    simp [scoreString_nonneg h0 hnonneg, hroom]

/-! ## The string of a CLOCK box (R89, R90) -/

theorem rounded_eq (mode : ClockMode) (count unit : Nat) (hunit : 0 < unit) :
    rounded mode count unit = if mode = .countDown then (count + (unit - 1)) / unit else count / unit := by
  cases mode with
  | countDown => simp [rounded, Nat.add_sub_assoc hunit]
  | countUp => rfl
  | tally => rfl

/-- Minutes and seconds, or the greatest string of them above 599:59 (R89). -/
theorem mssString_eq (seconds : Nat) : mssString seconds =
    if 35999 < seconds then [0x35, 0x39, 0x39, 0x3A, 0x35, 0x39]
    else decimal (seconds / 60) ++ [0x3A, 0x30 + seconds % 60 / 10, 0x30 + seconds % 60 % 10] := by
  split
  · next h =>
    rw [mssString, Nat.min_eq_right h.le]
    decide
  · next h =>
    rw [mssString, Nat.min_eq_left (Nat.not_lt.1 h)]
    rfl

/-! ## The string of a box (R86) -/

theorem boxString_score {w : FrameWork} {b : FieldBox} {f : Fin 32} {d : Nat} {pad : Bool} {v : Word}
    (hsource : b.source = .score f d pad) (hsample : w.scores.lookup f = some v) :
    boxString w b = scoreString d pad v.toInt := by
  simp [boxString, hsource, hsample]

theorem boxString_clock {w : FrameWork} {b : FieldBox} {c : Fin 4} {format : ClockFormat} {k : ClockSample}
    (hsource : b.source = .clock c format) (hsample : (w.clocks.find? fun k => k.channel == c) = some k) :
    boxString w b = clockString format k.mode k.count := by
  simp [boxString, hsource, hsample]

/-! ## The obligation -/

/-- Settles O52: each case of R88 is a row of `scoreString` with its places read off, and each of R89 and R90 a row of
`clockString` with its rounding and its numbers written out. -/
theorem boxStringsFollowRules : Obligations.BoxStringsFollowRules := by
  refine ⟨fun d pad v hd _ => ⟨scoreString_length hd pad _, ?above, ?below, ?nonneg, ?neg⟩,
    fun _ _ _ _ _ _ => boxString_score, fun _ _ _ _ _ => boxString_clock, ?clock⟩
  case above =>
    intro h i hi
    rw [scoreString_above h]
    exact List.getElem?_replicate_of_lt hi
  case below =>
    intro h
    rw [scoreString_below h]
    refine ⟨rfl, fun i h1 hi => ?_⟩
    obtain ⟨i, rfl⟩ := Nat.exists_eq_add_of_le' h1
    exact List.getElem?_replicate_of_lt (Nat.lt_sub_of_add_lt hi)
  case nonneg => exact fun h0 h i hi => scoreString_nonneg_getElem? hi h0 h
  case neg =>
    refine fun h0 h => ⟨?_, ?_⟩
    · rintro rfl
      exact scoreString_neg_padded h0 h
    · rintro rfl i hi
      exact scoreString_neg_getElem? hi h0 h
  case clock =>
    intro format mode count
    simp only [← rounded_eq _ _ 1000 (by decide), ← rounded_eq _ _ 100 (by decide), ← decimal_eq_toDigits,
      ← mssString_eq]
    refine ⟨?_, ?_, ?_, ?_⟩
    · rintro (rfl | rfl)
      · rfl
      · cases mode <;> rfl
    all_goals
      rintro hmode rfl
      cases mode with
      | countDown => rfl
      | countUp => rfl
      | tally => exact absurd rfl hmode

end Sys2Proof.Machine
end

section
/-! SUPPORT. What every operation keeps of the invariants: the parts of the state that each of them reads, and the
ledger of a group's zone-frames (R153). -/

namespace Sys2Proof.Machine

/-! ## What each invariant reads -/

theorem clockCountsBounded_congr {s t : State} (h : t.ccu.channels = s.ccu.channels) :
    ClockCountsBounded t ↔ ClockCountsBounded s := by
  simp only [ClockCountsBounded, h]

theorem claimListsFormed_congr {s t : State} (hz : t.zar.table = s.zar.table)
    (hg : ∀ g : Fin 8, t.sru.groups[g].zones = s.sru.groups[g].zones) :
    ClaimListsFormed t ↔ ClaimListsFormed s := by
  simp only [ClaimListsFormed, hz, hg]

theorem balancesSettled_congr {s t : State}
    (ha : ∀ (g : Fin 8) (i : Fin 64), t.sru.accounts[g][i].balance = s.sru.accounts[g][i].balance)
    (hg : ∀ g : Fin 8, t.sru.groups[g].saturated = s.sru.groups[g].saturated) :
    BalancesSettled t ↔ BalancesSettled s := by
  simp only [BalancesSettled, ha, hg]

/-! ## Vectors of accounts and groups -/

@[simp] theorem onAccount_get (g g' : Fin 8) (i i' : Fin 64) (f : Account → Account) (s : State) :
    (onAccount g i f s).sru.accounts[g'][i'] =
      if g' = g ∧ i' = i then f s.sru.accounts[g][i] else s.sru.accounts[g'][i'] := by
  rw [onAccount_sru]
  by_cases hg : g' = g
  · subst hg
    simp only [upd_get, if_true, true_and]
  · simp only [upd_get, hg, false_and, if_false]

/-- A function of a member that an update leaves as it was. -/
theorem upd_field {α β : Type} {n : Nat} (F : α → β) {v : Vector α n} {i : Fin n} {f : α → α} (hf : F (f v[i]) = F v[i])
    (j : Fin n) : F (upd v i f)[j] = F v[j] := by
  rw [upd_get]
  split
  · subst_vars; exact hf
  · rfl

theorem onGroup_get (g g' : Fin 8) (f : RotationGroup → RotationGroup) (s : State) :
    (onGroup g f s).sru.groups[g'] = if g' = g then f s.sru.groups[g] else s.sru.groups[g'] := by
  rw [onGroup_sru]
  exact upd_get _ _ _ _

@[simp] theorem onGroup_get_self (g : Fin 8) (f : RotationGroup → RotationGroup) (s : State) :
    (onGroup g f s).sru.groups[g] = f s.sru.groups[g] := by
  rw [onGroup_get, if_pos rfl]

theorem claimListsFormed_onGroup {g : Fin 8} {f : RotationGroup → RotationGroup} {s : State}
    (hf : (f s.sru.groups[g]).zones = s.sru.groups[g].zones) :
    ClaimListsFormed (onGroup g f s) ↔ ClaimListsFormed s :=
  claimListsFormed_congr rfl (upd_field RotationGroup.zones hf)

@[simp] theorem onGroup_accounts (g : Fin 8) (f : RotationGroup → RotationGroup) (s : State) :
    (onGroup g f s).sru.accounts = s.sru.accounts := rfl

/-! ## The ledger of zone-frames (R153) -/

/-- The zone-frames that a play record carries for an entry of a group. -/
def PlayRecord.framesFor (r : PlayRecord) (g : Fin 8) (i : Fin 64) : Nat :=
  if r.group = g ∧ r.entry = i ∧ r.preClear = false then r.zoneFrames else 0

/-- The zone-frames that the open slot of a group has run for an entry. -/
def RotationGroup.framesFor (r : RotationGroup) (i : Fin 64) : Nat :=
  match r.openSlot with
  | some x => if x.entry = i ∧ x.preClear = false then x.running else 0
  | none => 0

theorem openFrames_eq (s : State) (g : Fin 8) (i : Fin 64) : openFrames s g i = s.sru.groups[g].framesFor i := by
  unfold openFrames RotationGroup.framesFor
  cases s.sru.groups[g].openSlot <;> rfl

theorem heldFrames_eq (s : State) (g : Fin 8) (i : Fin 64) :
    heldFrames s g i = (s.plw.hold.map fun r => r.framesFor g i).sum := by
  unfold heldFrames
  induction s.plw.hold with
  | nil => rfl
  | cons r rs ih =>
    by_cases h : r.group = g ∧ r.entry = i ∧ r.preClear = false
    · have hkeep : (r.group == g && r.entry == i && !r.preClear) = true := by
        obtain ⟨hg, hi, hp⟩ := h
        simp [hg, hi, hp]
      rw [List.filter_cons, if_pos hkeep, List.map_cons, List.sum_cons, List.map_cons, List.sum_cons, ih,
        PlayRecord.framesFor, if_pos h]
    · have hdrop : ¬(r.group == g && r.entry == i && !r.preClear) = true := by
        simpa [and_assoc] using h
      rw [List.filter_cons, if_neg hdrop, List.map_cons, List.sum_cons, ih, PlayRecord.framesFor, if_neg h, Nat.zero_add]

/-- What is missing of an entry's zone-frames between those delivered and those logged, unlogged, held or running. -/
def owed (s : State) (g : Fin 8) (i : Fin 64) : BitVec 64 :=
  s.sru.accounts[g][i].delivered - (s.sru.accounts[g][i].logged + s.sru.accounts[g][i].unlogged +
    BitVec.ofNat 64 ((s.plw.hold.map fun r => r.framesFor g i).sum + s.sru.groups[g].framesFor i))

theorem deliveredConserved_iff (s : State) : DeliveredConserved s ↔ ∀ g i, owed s g i = 0 := by
  simp only [DeliveredConserved, owed, sub_eq_zero, heldFrames_eq, openFrames_eq]

theorem deliveredConserved_of_owed {s t : State} (h : ∀ g i, owed t g i = owed s g i) :
    DeliveredConserved t ↔ DeliveredConserved s := by
  simp only [deliveredConserved_iff, h]

/-! ### Each operation on a play record, in the ledger -/

theorem onAccount_owed (g' : Fin 8) (i' : Fin 64) (f : Account → Account) (n : BitVec 64)
    (hf : ∀ a : Account, (f a).delivered - ((f a).logged + (f a).unlogged) = a.delivered - (a.logged + a.unlogged) - n)
    (s : State) (g : Fin 8) (i : Fin 64) :
    owed (onAccount g' i' f s) g i = owed s g i - if g = g' ∧ i = i' then n else 0 := by
  simp only [owed, onAccount_get, onAccount_plw]
  have hgroups : (onAccount g' i' f s).sru.groups = s.sru.groups := rfl
  rw [hgroups]
  by_cases h : g = g' ∧ i = i'
  · obtain ⟨rfl, rfl⟩ := h
    simp only [and_self, if_true]
    rw [← sub_sub, hf]
    ring
  · simp only [h, if_false, sub_zero]

theorem addLogged_owed (g' : Fin 8) (i' : Fin 64) (n : Nat) (s : State) (g : Fin 8) (i : Fin 64) :
    owed (addLogged g' i' n s) g i = owed s g i - if g = g' ∧ i = i' then BitVec.ofNat 64 n else 0 :=
  onAccount_owed g' i' _ _ (fun a => by dsimp only; ring) s g i

theorem addUnlogged_owed (g' : Fin 8) (i' : Fin 64) (n : Nat) (s : State) (g : Fin 8) (i : Fin 64) :
    owed (addUnlogged g' i' n s) g i = owed s g i - if g = g' ∧ i = i' then BitVec.ofNat 64 n else 0 :=
  onAccount_owed g' i' _ _ (fun a => by dsimp only; ring) s g i

/-- The ledger reads the accounts, the groups and the hold queue alone. -/
theorem owed_congr {s t : State} (ha : t.sru.accounts = s.sru.accounts) (hg : t.sru.groups = s.sru.groups)
    (hh : t.plw.hold = s.plw.hold) (g : Fin 8) (i : Fin 64) : owed t g i = owed s g i := by
  simp only [owed, ha, hg, hh]

theorem framesFor_eq_ite (r : PlayRecord) (g : Fin 8) (i : Fin 64) : BitVec.ofNat 64 (r.framesFor g i) =
    if r.preClear = true then 0 else if g = r.group ∧ i = r.entry then BitVec.ofNat 64 r.zoneFrames else 0 := by
  unfold PlayRecord.framesFor
  cases r.preClear with
  | true => simp
  | false =>
    by_cases h : g = r.group ∧ i = r.entry
    · simp [h]
    · have h' : ¬(r.group = g ∧ r.entry = i ∧ False = False) := fun ⟨hg, hi, _⟩ => h ⟨hg.symm, hi.symm⟩
      simp [h, eq_comm (a := r.group), eq_comm (a := r.entry)]

theorem writeRecord_owed (r : PlayRecord) (s : State) (g : Fin 8) (i : Fin 64) :
    owed (writeRecord r s) g i = owed s g i - BitVec.ofNat 64 (r.framesFor g i) := by
  rw [framesFor_eq_ite]
  unfold writeRecord
  dsimp only
  split
  · rw [sub_zero]
    exact owed_congr (by simp) (by simp) (by simp) g i
  · rw [addLogged_owed]
    congr 1
    exact owed_congr (by simp) (by simp) (by simp) g i

theorem dropRecord_owed (r : PlayRecord) (s : State) (g : Fin 8) (i : Fin 64) :
    owed (dropRecord r s) g i = owed s g i - BitVec.ofNat 64 (r.framesFor g i) := by
  have hafter : owed (dropRecord r s) g i =
      owed (if r.preClear then s else addUnlogged r.group r.entry r.zoneFrames s) g i :=
    owed_congr (by simp [dropRecord]) (by simp [dropRecord]) (by simp [dropRecord]) g i
  rw [hafter, framesFor_eq_ite]
  split
  · rw [sub_zero]
  · rw [addUnlogged_owed]

theorem holdRecord_owed (r : PlayRecord) (s : State) (g : Fin 8) (i : Fin 64) :
    owed (holdRecord r s) g i = owed s g i - BitVec.ofNat 64 (r.framesFor g i) := by
  simp only [owed, holdRecord, State.onPlw_plw, State.onPlw_sru, List.map_append, List.sum_append, List.map_cons,
    List.map_nil, List.sum_cons, List.sum_nil, Nat.add_zero, BitVec.ofNat_add]
  ring

theorem testReadIndex_owed (s : State) (g : Fin 8) (i : Fin 64) : owed (testReadIndex s) g i = owed s g i := by
  unfold testReadIndex
  dsimp only
  split
  · split
    · rfl
    · exact owed_congr rfl rfl rfl g i
  · exact owed_congr rfl rfl rfl g i

/-- A record handed over leaves the ledger with its zone-frames entered, whether it is written, held or dropped. -/
theorem handRecord_owed (r : PlayRecord) (s : State) (g : Fin 8) (i : Fin 64) :
    owed (handRecord r s) g i = owed s g i - BitVec.ofNat 64 (r.framesFor g i) := by
  unfold handRecord
  split
  · exact dropRecord_owed r s g i
  · split
    · split
      · rw [writeRecord_owed, testReadIndex_owed]
      · rw [holdRecord_owed, testReadIndex_owed]
    · exact holdRecord_owed r s g i

end Sys2Proof.Machine
end

section
/-! SUPPORT. The relation that every operation of the blocks meets: it keeps the invariants, and writes show memory only
under an anchor in force. One lemma per operation, in the form in which the lemmas chain. -/

namespace Sys2Proof.Machine

/-- What an operation keeps whose claim lists and zone sets are in between two forms. -/
structure Sound (s t : State) : Prop where
  wf : s.mem.wf → t.mem.wf
  guard : s.smp.inForce = false → t.smp.inForce = false ∧ t.mem = s.mem
  clocks : ClockCountsBounded s → ClockCountsBounded t
  hold : HoldBounded s → HoldBounded t
  balances : BalancesSettled s → BalancesSettled t
  delivered : DeliveredConserved s → DeliveredConserved t

/-- What every whole operation keeps. -/
structure Orderly (s t : State) : Prop extends Sound s t where
  claims : ClaimListsFormed s → ClaimListsFormed t

theorem Sound.refl (s : State) : Sound s s := ⟨id, fun h => ⟨h, rfl⟩, id, id, id, id⟩

theorem Sound.trans {s t u : State} (h : Sound s t) (k : Sound t u) : Sound s u where
  wf := k.wf ∘ h.wf
  guard hf := ⟨(k.guard (h.guard hf).1).1, (k.guard (h.guard hf).1).2.trans (h.guard hf).2⟩
  clocks := k.clocks ∘ h.clocks
  hold := k.hold ∘ h.hold
  balances := k.balances ∘ h.balances
  delivered := k.delivered ∘ h.delivered

theorem Orderly.refl (s : State) : Orderly s s := ⟨Sound.refl s, id⟩

theorem Orderly.trans {s t u : State} (h : Orderly s t) (k : Orderly t u) : Orderly s u :=
  ⟨h.toSound.trans k.toSound, k.claims ∘ h.claims⟩

/-! ## Changes that the invariants do not read -/

/-- The parts that no invariant of `Orderly` reads. -/
def quietParts : List Part := [.pending, .events, .due, .ftu, .ciu, .clo, .cle, .msu, .etu, .free]

theorem Same.inForce {s t : State} (h : Same .smp s t) : t.smp.inForce = s.smp.inForce :=
  show t.smp.core.inForce = s.smp.core.inForce from congrArg Smp.inForce h

theorem Sound.of_same {s t : State} (hmem : t.mem = s.mem) (hforce : t.smp.inForce = s.smp.inForce)
    (hchannels : t.ccu.channels = s.ccu.channels) (hhold : t.plw.hold = s.plw.hold)
    (haccounts : t.sru.accounts = s.sru.accounts) (hgroups : t.sru.groups = s.sru.groups) : Sound s t where
  wf h := by rw [hmem]; exact h
  guard h := ⟨by rw [hforce, h], hmem⟩
  clocks := (clockCountsBounded_congr hchannels).2
  hold h := by rw [HoldBounded, hhold]; exact h
  balances := (balancesSettled_congr (fun g i => by rw [haccounts]) fun g => by rw [hgroups]).2
  delivered := (deliveredConserved_of_owed (owed_congr haccounts hgroups hhold)).2

theorem Orderly.of_same {s t : State} (hmem : t.mem = s.mem) (hforce : t.smp.inForce = s.smp.inForce)
    (hchannels : t.ccu.channels = s.ccu.channels) (hhold : t.plw.hold = s.plw.hold)
    (haccounts : t.sru.accounts = s.sru.accounts) (hgroups : t.sru.groups = s.sru.groups)
    (htable : t.zar.table = s.zar.table) : Orderly s t :=
  ⟨.of_same hmem hforce hchannels hhold haccounts hgroups,
    (claimListsFormed_congr htable fun g => by rw [hgroups]).2⟩

theorem Orderly.of_quiet {s t : State} (h : ChangesOnly quietParts s t) : Orderly s t :=
  .of_same (h .mem rfl) (h .smp rfl).inForce (congrArg Ccu.channels (h .ccu rfl)) (congrArg Plw.hold (h .plw rfl))
    (congrArg Sru.accounts (h .sru rfl)) (congrArg Sru.groups (h .sru rfl)) (congrArg Zar.table (h .zar rfl))

theorem Sound.of_zar {s t : State} (h : ChangesOnly (.zar :: quietParts) s t) : Sound s t :=
  .of_same (h .mem rfl) (h .smp rfl).inForce (congrArg Ccu.channels (h .ccu rfl)) (congrArg Plw.hold (h .plw rfl))
    (congrArg Sru.accounts (h .sru rfl)) (congrArg Sru.groups (h .sru rfl))

variable {s t : State}

theorem inOrder_orderly {α : Type} {l : List α} {f : α → State → State} (H : Orderly s t)
    (hf : ∀ x u, Orderly s u → Orderly s (f x u)) : Orderly s (inOrder l f t) :=
  inOrder_induct H fun x _ u hu => hf x u hu

theorem inOrder_sound {α : Type} {l : List α} {f : α → State → State} (H : Sound s t)
    (hf : ∀ x u, Sound s u → Sound s (f x u)) : Sound s (inOrder l f t) :=
  inOrder_induct H fun x _ u hu => hf x u hu

theorem onFtu_orderly (f : Ftu → Ftu) (H : Orderly s t) : Orderly s (t.onFtu f) :=
  H.trans (.of_quiet (onFtu_then f (.refl _ _) rfl))
theorem onCiu_orderly (f : Ciu → Ciu) (H : Orderly s t) : Orderly s (t.onCiu f) :=
  H.trans (.of_quiet (onCiu_then f (.refl _ _) rfl))
theorem onClo_orderly (f : Clo → Clo) (H : Orderly s t) : Orderly s (t.onClo f) :=
  H.trans (.of_quiet (onClo_then f (.refl _ _) rfl))
theorem onCle_orderly (f : Cle → Cle) (H : Orderly s t) : Orderly s (t.onCle f) :=
  H.trans (.of_quiet (onCle_then f (.refl _ _) rfl))
theorem onMsu_orderly (f : Msu → Msu) (H : Orderly s t) : Orderly s (t.onMsu f) :=
  H.trans (.of_quiet (onMsu_then f (.refl _ _) rfl))
theorem onEtu_orderly (f : Etu → Etu) (H : Orderly s t) : Orderly s (t.onEtu f) :=
  H.trans (.of_quiet (onEtu_then f (.refl _ _) rfl))
theorem onClip_orderly (k : Fin 8) (f : ClipSlot → ClipSlot) (H : Orderly s t) : Orderly s (onClip k f t) :=
  onCle_orderly _ H
theorem onMessage_orderly (k : Fin 8) (f : MessageSlot → MessageSlot) (H : Orderly s t) : Orderly s (onMessage k f t) :=
  onMsu_orderly _ H
theorem onTrigger_orderly (e : Fin 8) (f : TriggerEntry → TriggerEntry) (H : Orderly s t) :
    Orderly s (onTrigger e f t) :=
  onEtu_orderly _ H
theorem onLink_orderly (n : Fin 4) (f : PanelLink → PanelLink) (H : Orderly s t) : Orderly s (onLink n f t) :=
  onClo_orderly _ H
theorem raise_orderly (e : Event) (H : Orderly s t) : Orderly s (raise e t) :=
  H.trans (.of_quiet (raise_then e (.refl _ _) rfl))
theorem nextFree_orderly (H : Orderly s t) : Orderly s t.nextFree :=
  H.trans (.of_quiet (nextFree_then (.refl _ _) rfl))

theorem inFreeOrder_orderly {α : Type} {l : List α} {f : α → State → State} (H : Orderly s t)
    (hf : ∀ x u, Orderly s u → Orderly s (f x u)) : Orderly s (inFreeOrder l f t) :=
  inFreeOrder_induct (nextFree_orderly H) fun x _ u hu => hf x u hu

theorem inFreeOrder_sound {α : Type} {l : List α} {f : α → State → State} (H : Sound s t)
    (hf : ∀ x u, Sound s u → Sound s (f x u)) : Sound s (inFreeOrder l f t) :=
  inFreeOrder_induct (H.trans (nextFree_orderly (.refl _)).toSound) fun x _ u hu => hf x u hu

/-! ## Show memory -/

/-- A store under an anchor in force. -/
theorem withMem_orderly (a : Nat) (ws : List Word) (hforce : t.smp.inForce = true) (H : Orderly s t) :
    Orderly s (t.withMem (t.mem.storeWords a ws)) :=
  H.trans
    { wf := fun h => Memory.storeWords_wf h _ _
      guard := fun h => absurd (hforce.symm.trans h) (by decide)
      clocks := id, hold := id, balances := id, delivered := id, claims := id }

theorem anchorWrite_orderly (o : Nat) (ws : List Word) (H : Orderly s t) : Orderly s (anchorWrite o ws t) := by
  unfold anchorWrite
  split
  · exact withMem_orderly _ _ ‹_› H
  · exact H

theorem writeCue_orderly (i : Nat) (r : CueResult) (c : Word) (H : Orderly s t) : Orderly s (writeCue i r c t) := by
  unfold writeCue
  split
  · obtain ⟨hforce, -⟩ := ‹_ ∧ _›
    exact withMem_orderly _ [c] (t := t.withMem (t.mem.storeWords (cueOffset t i + 0x28) r.words)) hforce
      (withMem_orderly _ _ hforce H)
  · exact H

/-! ## The tests of the invariants on one member -/

/-- A channel whose count and presets are within their bounds. -/
def Channel.Bounded (c : Channel) : Prop :=
  c.count ≤ c.ceiling ∧ c.preset ≤ Config.ceilingDown ∧ ∀ p, c.pendingPreset = some p → p ≤ Config.ceilingDown

theorem clockCountsBounded_iff (s : State) : ClockCountsBounded s ↔ ∀ c : Fin 4, s.ccu.channels[c].Bounded := Iff.rfl

theorem onChannel_orderly (c : Fin 4) (f : Channel → Channel) (hf : t.ccu.channels[c].Bounded → (f t.ccu.channels[c]).Bounded)
    (H : Orderly s t) : Orderly s (onChannel c f t) :=
  H.trans
    { wf := id, guard := fun h => ⟨h, rfl⟩, hold := id, balances := id, delivered := id, claims := id
      clocks := fun h d => by
        have hget : (onChannel c f t).ccu.channels[d] = if d = c then f t.ccu.channels[c] else t.ccu.channels[d] :=
          upd_get _ _ _ _
        rw [hget]
        split
        · exact hf (h c)
        · exact h d }

theorem onCcu_orderly (f : Ccu → Ccu) (hf : (f t.ccu).channels = t.ccu.channels) (H : Orderly s t) :
    Orderly s (t.onCcu f) :=
  H.trans (.of_same rfl rfl hf rfl rfl rfl rfl)

theorem onLine_orderly (n : Fin 8) (f : ConsoleLine → ConsoleLine) (H : Orderly s t) : Orderly s (onLine n f t) :=
  onCcu_orderly _ rfl H

theorem onPlw_orderly (f : Plw → Plw) (hf : (f t.plw).hold = t.plw.hold) (H : Orderly s t) : Orderly s (t.onPlw f) :=
  H.trans (.of_same rfl rfl rfl hf rfl rfl rfl)

/-- A change of a group that its claims, its balances and its ledger do not read. -/
def RotationGroup.SameBooks (r r' : RotationGroup) : Prop :=
  r'.zones = r.zones ∧ r'.saturated = r.saturated ∧ ∀ i, r'.framesFor i = r.framesFor i

theorem Orderly.of_groups {s t : State} (hsame : ChangesOnly [.sru] s t) (haccounts : t.sru.accounts = s.sru.accounts)
    (hgroups : ∀ g : Fin 8, (s.sru.groups[g]).SameBooks t.sru.groups[g]) : Orderly s t where
  wf h := by rw [hsame .mem rfl]; exact h
  guard h := ⟨by rw [(hsame .smp rfl).inForce, h], hsame .mem rfl⟩
  clocks := (clockCountsBounded_congr (congrArg Ccu.channels (hsame .ccu rfl))).2
  hold h := by rw [HoldBounded, hsame .plw rfl]; exact h
  balances := (balancesSettled_congr (fun g i => by rw [haccounts]) fun g => (hgroups g).2.1).2
  delivered := (deliveredConserved_of_owed fun g i => by
    rw [owed, owed, haccounts, hsame .plw rfl, (hgroups g).2.2 i]).2
  claims := (claimListsFormed_congr (congrArg Zar.table (hsame .zar rfl)) fun g => (hgroups g).1).2

theorem onGroup_orderly (g : Fin 8) (f : RotationGroup → RotationGroup)
    (hf : (t.sru.groups[g]).SameBooks (f t.sru.groups[g])) (H : Orderly s t) : Orderly s (onGroup g f t) :=
  H.trans (.of_groups (onGroup_then g f (.refl _ _) rfl) rfl fun g' => by
    rw [onGroup_get]
    split
    · subst_vars; exact hf
    · exact ⟨rfl, rfl, fun _ => rfl⟩)

/-- A change of the sponsor rotation that leaves each account's balance and counts of zone-frames. -/
theorem Orderly.of_accounts {s t : State} (hsame : ChangesOnly [.sru] s t) (hgroups : t.sru.groups = s.sru.groups)
    (haccounts : ∀ (g : Fin 8) (i : Fin 64), t.sru.accounts[g][i].balance = s.sru.accounts[g][i].balance ∧
      t.sru.accounts[g][i].delivered = s.sru.accounts[g][i].delivered ∧
      t.sru.accounts[g][i].logged = s.sru.accounts[g][i].logged ∧
      t.sru.accounts[g][i].unlogged = s.sru.accounts[g][i].unlogged) : Orderly s t where
  wf h := by rw [hsame .mem rfl]; exact h
  guard h := ⟨by rw [(hsame .smp rfl).inForce, h], hsame .mem rfl⟩
  clocks := (clockCountsBounded_congr (congrArg Ccu.channels (hsame .ccu rfl))).2
  hold h := by rw [HoldBounded, hsame .plw rfl]; exact h
  balances := (balancesSettled_congr (fun g i => (haccounts g i).1) fun g => by rw [hgroups]).2
  delivered := (deliveredConserved_of_owed fun g i => by
    obtain ⟨-, hd, hl, hu⟩ := haccounts g i
    rw [owed, owed, hgroups, hsame .plw rfl, hd, hl, hu]).2
  claims := (claimListsFormed_congr (congrArg Zar.table (hsame .zar rfl)) fun g => by rw [hgroups]).2

end Sys2Proof.Machine
end

section
/-! SUPPORT. The play log, the sponsor slots and the accounts: what their operations keep of the invariants, with the
ledger of zone-frames in between (R135 to R137, R144 to R150, R153). -/

namespace Sys2Proof.Machine

/-! ## Entries in the ledger -/

/-- An operation that enters `n g i` zone-frames in the ledger and keeps the other invariants. -/
structure Entered (n : Fin 8 → Fin 64 → BitVec 64) (s t : State) : Prop where
  wf : s.mem.wf → t.mem.wf
  guard : s.smp.inForce = false → t.smp.inForce = false ∧ t.mem = s.mem
  clocks : ClockCountsBounded s → ClockCountsBounded t
  hold : HoldBounded s → HoldBounded t
  balances : BalancesSettled s → BalancesSettled t
  claims : ClaimListsFormed s → ClaimListsFormed t
  ledger : ∀ g i, owed t g i = owed s g i - n g i

theorem Entered.trans {n m : Fin 8 → Fin 64 → BitVec 64} {s t u : State} (h : Entered n s t) (k : Entered m t u) :
    Entered (n + m) s u where
  wf := k.wf ∘ h.wf
  guard hf := ⟨(k.guard (h.guard hf).1).1, (k.guard (h.guard hf).1).2.trans (h.guard hf).2⟩
  clocks := k.clocks ∘ h.clocks
  hold := k.hold ∘ h.hold
  balances := k.balances ∘ h.balances
  claims := k.claims ∘ h.claims
  ledger g i := by rw [k.ledger, h.ledger, Pi.add_apply, Pi.add_apply, sub_sub]

theorem Entered.orderly {n : Fin 8 → Fin 64 → BitVec 64} {s t : State} (h : Entered n s t) (hn : n = 0) :
    Orderly s t :=
  { wf := h.wf, guard := h.guard, clocks := h.clocks, hold := h.hold, balances := h.balances, claims := h.claims,
    delivered := (deliveredConserved_of_owed fun g i => by
      rw [h.ledger, hn, Pi.zero_apply, Pi.zero_apply, sub_zero]).2 }

theorem Orderly.entered {n : Fin 8 → Fin 64 → BitVec 64} {s t : State} (h : Orderly s t)
    (hl : ∀ g i, owed t g i = owed s g i - n g i) : Entered n s t :=
  { wf := h.wf, guard := h.guard, clocks := h.clocks, hold := h.hold, balances := h.balances, claims := h.claims,
    ledger := hl }

/-- What a play record enters. -/
def PlayRecord.entry_ (r : PlayRecord) (g : Fin 8) (i : Fin 64) : BitVec 64 := BitVec.ofNat 64 (r.framesFor g i)

/-! ## The play log writer (R144 to R149) -/

theorem testReadIndex_orderly {s t : State} (H : Orderly s t) : Orderly s (testReadIndex t) := by
  unfold testReadIndex
  dsimp only
  split
  · split
    · exact H
    · exact raise_orderly _ (onPlw_orderly _ rfl H)
  · exact onPlw_orderly _ rfl H

/-- A change of one account that leaves its balance. -/
theorem onAccount_keeps (g : Fin 8) (i : Fin 64) (f : Account → Account) (hf : ∀ a, (f a).balance = a.balance)
    (n : Fin 8 → Fin 64 → BitVec 64) (s : State) (hl : ∀ g' i', owed (onAccount g i f s) g' i' = owed s g' i' - n g' i') :
    Entered n s (onAccount g i f s) where
  wf := id
  guard h := ⟨h, rfl⟩
  clocks := id
  hold := id
  balances := Iff.mpr (balancesSettled_congr (fun g' i' => by
    rw [onAccount_get]
    split
    · rename_i h
      rw [hf, h.1, h.2]
    · rfl) fun _ => rfl)
  claims := id
  ledger := hl

theorem addLogged_entered (g : Fin 8) (i : Fin 64) (n : Nat) (s : State) :
    Entered (fun g' i' => if g' = g ∧ i' = i then BitVec.ofNat 64 n else 0) s (addLogged g i n s) :=
  onAccount_keeps g i (fun a => { a with logged := a.logged + BitVec.ofNat 64 n }) (fun _ => rfl) _ s (addLogged_owed g i n s)

theorem addUnlogged_entered (g : Fin 8) (i : Fin 64) (n : Nat) (s : State) :
    Entered (fun g' i' => if g' = g ∧ i' = i then BitVec.ofNat 64 n else 0) s (addUnlogged g i n s) :=
  onAccount_keeps g i (fun a => { a with unlogged := a.unlogged + BitVec.ofNat 64 n }) (fun _ => rfl) _ s (addUnlogged_owed g i n s)

theorem writeRecord_entered (r : PlayRecord) {s : State} (hforce : s.smp.inForce = true) :
    Entered r.entry_ s (writeRecord r s) := by
  have hstored : Orderly s (anchorWrite 0x10C [BitVec.ofNat 32 ((s.plw.writeIndex + 1) % s.plw.logLength)]
      ((s.withMem (s.mem.storeWords (s.plw.logOffset.toNat + 32 * s.plw.writeIndex) r.words)).onPlw
        fun p => { p with writeIndex := (p.writeIndex + 1) % p.logLength })) :=
    anchorWrite_orderly _ _ (onPlw_orderly _ rfl (withMem_orderly _ _ hforce (.refl s)))
  have hledger := writeRecord_owed r s
  unfold writeRecord at hledger ⊢
  dsimp only at hledger ⊢
  split at hledger
  · rw [if_pos ‹_›]
    exact hstored.entered hledger
  · rw [if_neg ‹_›]
    have hadded := addLogged_entered r.group r.entry r.zoneFrames (anchorWrite 0x10C
      [BitVec.ofNat 32 ((s.plw.writeIndex + 1) % s.plw.logLength)]
      ((s.withMem (s.mem.storeWords (s.plw.logOffset.toNat + 32 * s.plw.writeIndex) r.words)).onPlw
        fun p => { p with writeIndex := (p.writeIndex + 1) % p.logLength }))
    exact
      { wf := hadded.wf ∘ hstored.wf, guard := fun h => absurd (hforce.symm.trans h) (by decide)
        clocks := hadded.clocks ∘ hstored.clocks, hold := hadded.hold ∘ hstored.hold
        balances := hadded.balances ∘ hstored.balances, claims := hadded.claims ∘ hstored.claims
        ledger := hledger }

theorem dropRecord_entered (r : PlayRecord) (s : State) : Entered r.entry_ s (dropRecord r s) := by
  have hafter : ∀ u, Orderly u (raise .logOverflow (anchorWrite 0x110 [BitVec.ofNat 32 (saturate (u.plw.overflow + 1))]
      (u.onPlw fun p => { p with overflow := saturate (p.overflow + 1) }))) := fun u =>
    raise_orderly _ (anchorWrite_orderly _ _ (onPlw_orderly _ rfl (.refl u)))
  have hledger := dropRecord_owed r s
  unfold dropRecord at hledger ⊢
  dsimp only at hledger ⊢
  split at hledger
  · rw [if_pos ‹_›]
    exact (hafter s).entered hledger
  · rw [if_neg ‹_›]
    have hadded := addUnlogged_entered r.group r.entry r.zoneFrames s
    have h := hafter (addUnlogged r.group r.entry r.zoneFrames s)
    exact
      { wf := h.wf ∘ hadded.wf
        guard := fun hf => ⟨(h.guard (hadded.guard hf).1).1, (h.guard (hadded.guard hf).1).2.trans (hadded.guard hf).2⟩
        clocks := h.clocks ∘ hadded.clocks, hold := h.hold ∘ hadded.hold, balances := h.balances ∘ hadded.balances
        claims := h.claims ∘ hadded.claims, ledger := hledger }

theorem holdRecord_entered (r : PlayRecord) {s : State} (hroom : s.plw.hold.length < 8) :
    Entered r.entry_ s (holdRecord r s) where
  wf := id
  guard h := ⟨h, rfl⟩
  clocks := id
  hold _ := by simp only [HoldBounded, holdRecord, State.onPlw_plw, List.length_append, List.length_singleton]; omega
  balances := id
  claims := id
  ledger := holdRecord_owed r s

theorem testReadIndex_entered (s : State) : Entered 0 s (testReadIndex s) :=
  (testReadIndex_orderly (.refl s)).entered fun g i => by
    rw [testReadIndex_owed, Pi.zero_apply, Pi.zero_apply, sub_zero]

theorem testReadIndex_inForce (s : State) : (testReadIndex s).smp.inForce = s.smp.inForce :=
  (testReadIndex_then (ps := [.plw, .events]) (.refl _ s) rfl .smp rfl).inForce

@[simp] theorem testReadIndex_hold (s : State) : (testReadIndex s).plw.hold = s.plw.hold := by
  unfold testReadIndex
  dsimp only
  split <;> [split; skip] <;> rfl

theorem handRecord_entered (r : PlayRecord) (s : State) : Entered r.entry_ s (handRecord r s) := by
  unfold handRecord
  split
  · exact dropRecord_entered r s
  · rename_i hroom
    have htested := testReadIndex_entered s
    rw [← zero_add r.entry_]
    split
    · split
      · exact htested.trans (writeRecord_entered r ((testReadIndex_inForce s).trans (‹_ ∧ _›).2))
      · exact htested.trans (holdRecord_entered r (by rw [testReadIndex_hold]; omega))
    · rw [zero_add]
      exact holdRecord_entered r (by omega)

theorem retryFuel_orderly (n : Nat) (s : State) (hforce : s.smp.inForce = true) : Orderly s (retryFuel n s) := by
  induction n generalizing s with
  | zero => exact .refl s
  | succ n ih =>
    unfold retryFuel
    split
    · exact .refl s
    · rename_i r rest hhold
      split
      · have hforce' : (testReadIndex s).smp.inForce = true :=
          (testReadIndex_inForce s).trans hforce
        have hshort : Entered (-r.entry_) s ((testReadIndex s).onPlw fun p => { p with hold := rest }) :=
          { wf := (testReadIndex_entered s).wf, guard := (testReadIndex_entered s).guard
            clocks := (testReadIndex_entered s).clocks
            hold := fun h => by
              rw [HoldBounded, hhold, List.length_cons] at h
              simp only [HoldBounded, State.onPlw_plw]
              omega
            balances := (testReadIndex_entered s).balances, claims := (testReadIndex_entered s).claims
            ledger := fun g i => by
              have htest := testReadIndex_owed s g i
              simp only [owed, testReadIndex_hold, hhold, List.map_cons, List.sum_cons] at htest ⊢
              simp only [State.onPlw_plw, State.onPlw_sru, Pi.neg_apply, PlayRecord.entry_, sub_neg_eq_add]
              rw [← htest]
              simp only [Nat.add_assoc, BitVec.ofNat_add]
              ring }
        have hwritten := hshort.trans (writeRecord_entered r (s := (testReadIndex s).onPlw fun p => { p with hold := rest })
          hforce')
        have hkept := hwritten.orderly (neg_add_cancel _)
        exact hkept.trans (ih _ ((writeRecord_then (ps := [.mem, .plw, .sru]) r (.refl _ _) rfl .smp rfl).inForce.trans hforce'))
      · exact testReadIndex_orderly (.refl s)

theorem plwFrameStart_orderly {s t : State} (H : Orderly s t) : Orderly s (plwFrameStart t) := by
  unfold plwFrameStart
  split
  · split
    · exact testReadIndex_orderly H
    · exact H.trans (retryFuel_orderly _ _ ‹_›)
  · exact H

/-! ## Closing and cutting a slot (R134, R137, R138) -/

variable {s t : State}

theorem writeGroupStatus_orderly (H : Orderly s t) : Orderly s (writeGroupStatus t) := anchorWrite_orderly _ _ H

theorem writeSnapshot_orderly (g : Fin 8) (a : Vector Account 64) (H : Orderly s t) : Orderly s (writeSnapshot g a t) := by
  unfold writeSnapshot
  split
  · have hcounted : Orderly s (onGroup g (fun x => { x with snapshots := x.snapshots + 1 }) t) :=
      onGroup_orderly g _ ⟨rfl, rfl, fun _ => rfl⟩ H
    exact withMem_orderly _ [_] (t := State.withMem _ (Memory.storeWords _ _ _)) ‹_› (withMem_orderly _ _ ‹_› hcounted)
  · exact H

theorem Slot.record_framesFor (x : Slot) (g g' : Fin 8) (i : Fin 64) :
    (x.record g).framesFor g' i = if g' = g then (if x.entry = i ∧ x.preClear = false then x.running else 0) else 0 := by
  unfold PlayRecord.framesFor Slot.record
  by_cases hg : g' = g
  · subst hg
    simp
  · simp [hg, Ne.symm hg]

/-- The open slot taken out of its group, its zone-frames still to be entered. -/
theorem takeOut_entered (g : Fin 8) {s : State} {x : Slot} (hopen : s.sru.groups[g].openSlot = some x) :
    Entered (-(x.record g).entry_) s (onGroup g (fun r => { r with openSlot := none }) s) where
  wf := id
  guard h := ⟨h, rfl⟩
  clocks := id
  hold := id
  balances := Iff.mpr (balancesSettled_congr (fun _ _ => rfl) (upd_field RotationGroup.saturated rfl))
  claims := Iff.mpr (claimListsFormed_onGroup rfl)
  ledger g' i := by
    simp only [owed, Pi.neg_apply, PlayRecord.entry_, Slot.record_framesFor, onGroup_get, onGroup_accounts, onGroup_plw]
    by_cases hg : g' = g
    · subst hg
      simp only [if_true, RotationGroup.framesFor, hopen, Nat.add_zero, BitVec.ofNat_add]
      ring
    · simp only [if_neg hg]
      exact (sub_eq_self.2 neg_zero).symm

theorem closeSlot_orderly (g : Fin 8) (H : Orderly s t) : Orderly s (closeSlot g t) := by
  refine H.trans ?_
  unfold closeSlot
  split
  · exact .refl t
  · rename_i x hopen
    have hentered := (takeOut_entered g hopen).trans (handRecord_entered (x.record g) _)
    have hkept := hentered.orderly (neg_add_cancel _)
    dsimp only
    split
    · exact writeSnapshot_orderly _ _ (nextFree_orderly hkept)
    · exact nextFree_orderly hkept

/-- A change of the open slot alone that leaves what it has run and whether it is before a clear. -/
theorem sameBooks_openSlot {r : RotationGroup} {x y : Slot} (hopen : r.openSlot = some x)
    (hentry : y.entry = x.entry) (hclear : y.preClear = x.preClear) (hrun : y.running = x.running) :
    r.SameBooks { r with openSlot := some y } := by
  refine ⟨rfl, rfl, fun i => ?_⟩
  simp only [RotationGroup.framesFor, hopen, hentry, hclear, hrun]

theorem cutSlot_orderly (g : Fin 8) (H : Orderly s t) : Orderly s (cutSlot g t) := by
  unfold cutSlot
  split
  · exact H
  · rename_i x hopen
    have hcut : Orderly s (onGroup g (fun r => { r with openSlot := some { x with cut := true, closing := true } }) t) :=
      onGroup_orderly g _ (sameBooks_openSlot hopen rfl rfl rfl) H
    split
    · exact H
    · dsimp only
      split
      · exact closeSlot_orderly g hcut
      · exact hcut

theorem dwellEnd_orderly (g : Fin 8) (H : Orderly s t) : Orderly s (dwellEnd g t) := by
  unfold dwellEnd
  split
  · exact H
  · rename_i x hopen
    have hclosing : Orderly s (onGroup g (fun r => { r with openSlot := some { x with closing := true } }) t) :=
      onGroup_orderly g _ (sameBooks_openSlot hopen rfl rfl rfl) H
    split
    · dsimp only
      split
      · exact closeSlot_orderly g hclosing
      · exact hclosing
    · exact H

/-! ## Answering and crediting (R132 to R136) -/

theorem answerSlot_orderly (g : Fin 8) (f : Frame) (H : Orderly s t) : Orderly s (answerSlot g f t).2 := by
  unfold answerSlot
  split
  · exact H
  · split
    · exact H
    · rename_i x hopen _
      exact dwellEnd_orderly g (onGroup_orderly g _ (sameBooks_openSlot hopen rfl rfl rfl) H)

theorem selectSlot_orderly (g : Fin 8) (f : Frame) (hopen : t.sru.groups[g].openSlot = none) (H : Orderly s t) :
    Orderly s (selectSlot g f t) := by
  unfold selectSlot
  split
  · exact H
  · rename_i i _
    refine onGroup_orderly g _ ⟨rfl, rfl, fun j => ?_⟩ (H.trans (.of_accounts (onAccount_then g i _ (.refl _ _) rfl) rfl ?_))
    · have hnone : ∀ f : Account → Account, (onAccount g i f t).sru.groups[g].openSlot = none := fun _ => hopen
      simp only [RotationGroup.framesFor, hnone, newSlot, ite_self]
    · intro g' i'
      rw [onAccount_get]
      split
      · obtain ⟨rfl, rfl⟩ := ‹_ ∧ _›
        exact ⟨rfl, rfl, rfl, rfl⟩
      · exact ⟨rfl, rfl, rfl, rfl⟩

theorem groupRequest_orderly (g : Fin 8) (f : Frame) (H : Orderly s t) : Orderly s (groupRequest g f t).2 := by
  unfold groupRequest
  split
  · exact H
  · split
    · exact answerSlot_orderly g f (selectSlot_orderly g f ‹_› H)
    · exact answerSlot_orderly g f H

end Sys2Proof.Machine
end

section
/-! SUPPORT. The sponsor rotation unit: crediting keeps the sum of an unsaturated group (R135, R136), a clear empties
its ledger (R128, R150), and what enabling, cutting and the resets keep. -/

namespace Sys2Proof.Machine

/-! ## Crediting (R135, R136) -/

theorem holdBalance_range (b : Int) : Config.balanceMin ≤ holdBalance b ∧ holdBalance b ≤ Config.balanceMax := by
  simp only [holdBalance, Config.balanceMin, Config.balanceMax]
  omega

theorem creditAccounts_get (r : Sru) (g : Fin 8) (k : Nat) (shown i : Fin 64) :
    (creditAccounts r g k shown)[i] =
      if i = shown then { r.accounts[g][i] with
        balance := holdBalance (chargeSum r g k shown), delivered := r.accounts[g][i].delivered + BitVec.ofNat 64 k }
      else { r.accounts[g][i] with balance := gained r g k i } := by
  simp [creditAccounts]

theorem creditAccounts_range {r : Sru} {g : Fin 8} (k : Nat) (shown i : Fin 64)
    (h : Config.balanceMin ≤ r.accounts[g][i].balance ∧ r.accounts[g][i].balance ≤ Config.balanceMax) :
    Config.balanceMin ≤ (creditAccounts r g k shown)[i].balance ∧
      (creditAccounts r g k shown)[i].balance ≤ Config.balanceMax := by
  rw [creditAccounts_get]
  split
  · exact holdBalance_range _
  · simp only [gained]
    split
    · exact holdBalance_range _
    · exact h

/-- With no balance held, each entry gains its weight and the shown one is charged the sum of the weights. -/
theorem creditAccounts_balance {r : Sru} {g : Fin 8} {k : Nat} {shown : Fin 64} (h : creditHeld r g k shown = false)
    (i : Fin 64) : (creditAccounts r g k shown)[i].balance =
      r.accounts[g][i].balance + (eligibleWeight r g i : Int) * k - if i = shown then (weightSum r g : Int) * k else 0 := by
  simp only [creditHeld, Bool.or_eq_false_iff, List.any_eq_false, List.mem_finRange, Bool.and_eq_true, bne_iff_ne, ne_eq,
    not_and, not_not, forall_const, bne_eq_false_iff_eq] at h
  obtain ⟨hgain, hcharge⟩ := h
  have hgained : gained r g k i = r.accounts[g][i].balance + (eligibleWeight r g i : Int) * k := by
    unfold gained eligibleWeight
    split
    · rw [hgain i ‹_›, gainSum]
    · simp
  rw [creditAccounts_get]
  split
  · subst_vars
    rw [← hgained, hcharge]
    rfl
  · rw [← hgained, sub_zero]

theorem creditAccounts_sum {r : Sru} {g : Fin 8} {k : Nat} {shown : Fin 64} (h : creditHeld r g k shown = false) :
    ((List.finRange 64).map fun i => (creditAccounts r g k shown)[i].balance).sum =
      ((List.finRange 64).map fun i => r.accounts[g][i].balance).sum := by
  have hweights : (weightSum r g : Int) = ∑ i, (eligibleWeight r g i : Int) := by
    rw [weightSum, ← Fin.sum_univ_def, Nat.cast_sum]
  simp only [creditAccounts_balance h, ← Fin.sum_univ_def, Finset.sum_sub_distrib, Finset.sum_add_distrib,
    ← Finset.sum_mul, Finset.sum_ite_eq', Finset.mem_univ, if_true, hweights]
  ring

/-- The state once the accounts of a group have been credited, before SATURATED is set (R135). -/
def credited (g : Fin 8) (k : Nat) (shown : Fin 64) (s : State) : State :=
  s.onSru fun r => { r with accounts := upd r.accounts g fun _ => creditAccounts r g k shown }

/-- SATURATED set in the group, with its status written where it was clear, and GROUP_SATURATED raised (R136). -/
def saturated (g : Fin 8) (s : State) : State :=
  let t := onGroup g (fun r => { r with saturated := true }) s
  raise .groupSaturated (if s.sru.groups[g].saturated then t else writeGroupStatus t)

theorem creditGroup_eq (g : Fin 8) (k : Nat) (shown : Fin 64) (s : State) :
    creditGroup g k shown s =
      if creditHeld s.sru g k shown then saturated g (credited g k shown s) else credited g k shown s := rfl

theorem credited_accounts (g : Fin 8) (k : Nat) (shown : Fin 64) (s : State) (g' : Fin 8) :
    (credited g k shown s).sru.accounts[g'] = if g' = g then creditAccounts s.sru g k shown else s.sru.accounts[g'] :=
  upd_get _ _ _ _

theorem credited_owed (g : Fin 8) (k : Nat) (shown : Fin 64) (s : State) (g' : Fin 8) (i : Fin 64) :
    owed (credited g k shown s) g' i = owed s g' i - if g' = g ∧ i = shown then -BitVec.ofNat 64 k else 0 := by
  have hgroups : (credited g k shown s).sru.groups = s.sru.groups := rfl
  have hplw : (credited g k shown s).plw = s.plw := rfl
  simp only [owed, credited_accounts, hgroups, hplw]
  by_cases h : g' = g
  · subst h
    by_cases hi : i = shown
    · simp only [if_true, creditAccounts_get, hi, and_self]
      ring
    · simp only [if_true, creditAccounts_get, hi, if_false, and_false, sub_zero]
  · simp only [h, if_false, false_and, sub_zero]

theorem credited_range {s : State} (h : BalancesSettled s) (g : Fin 8) (k : Nat) (shown : Fin 64) (g' : Fin 8)
    (i : Fin 64) : Config.balanceMin ≤ (credited g k shown s).sru.accounts[g'][i].balance ∧
      (credited g k shown s).sru.accounts[g'][i].balance ≤ Config.balanceMax := by
  rw [credited_accounts]
  split
  · exact creditAccounts_range k shown i ((h g).1 i)
  · exact (h g').1 i

/-- Crediting with no balance held. -/
theorem credited_settled {s : State} (h : BalancesSettled s) {g : Fin 8} {k : Nat} {shown : Fin 64}
    (hheld : creditHeld s.sru g k shown = false) : BalancesSettled (credited g k shown s) := fun g' =>
  ⟨credited_range h g k shown g', fun hclear => by
    have hsum := (h g').2 hclear
    rw [credited_accounts]
    split
    · subst_vars
      rw [creditAccounts_sum hheld]
      exact hsum
    · exact hsum⟩

theorem saturated_orderly {s t : State} (g : Fin 8) (H : Orderly s (onGroup g (fun r => { r with saturated := true }) t)) :
    Orderly s (saturated g t) := by
  unfold saturated
  dsimp only
  split
  · exact raise_orderly _ H
  · exact raise_orderly _ (writeGroupStatus_orderly H)

theorem saturated_owed (g : Fin 8) (s : State) (g' : Fin 8) (i : Fin 64) : owed (saturated g s) g' i = owed s g' i := by
  have hgroup : (saturated g s).sru = (onGroup g (fun r => { r with saturated := true }) s).sru ∧
      (saturated g s).plw = s.plw := by
    unfold saturated
    dsimp only
    split <;> simp [writeGroupStatus]
  have hframes : ((onGroup g (fun r => { r with saturated := true }) s).sru.groups[g']).framesFor i =
      s.sru.groups[g'].framesFor i :=
    upd_field (fun r => RotationGroup.framesFor r i) rfl g'
  simp only [owed, hgroup.1, hgroup.2, hframes, onGroup_accounts]

theorem creditGroup_entered (g : Fin 8) (k : Nat) (shown : Fin 64) (s : State) :
    Entered (fun g' i => if g' = g ∧ i = shown then -BitVec.ofNat 64 k else 0) s (creditGroup g k shown s) := by
  rw [creditGroup_eq]
  cases hheld : creditHeld s.sru g k shown with
  | true =>
    have hmarked := saturated_orderly g (.refl (onGroup g (fun r => { r with saturated := true }) (credited g k shown s)))
    exact
      { wf := hmarked.wf, guard := hmarked.guard, clocks := hmarked.clocks, hold := hmarked.hold
        balances := fun h => hmarked.balances fun g' => ⟨credited_range h g k shown g', fun hclear => by
          rw [onGroup_get] at hclear
          split at hclear
          · cases hclear
          · have hne : g' ≠ g := ‹_›
            rw [onGroup_accounts, credited_accounts, if_neg hne]
            exact (h g').2 hclear⟩
        claims := fun h => hmarked.claims ((claimListsFormed_onGroup (s := credited g k shown s) rfl).2 h)
        ledger := fun g' i => by rw [if_pos rfl, saturated_owed, credited_owed] }
  | false =>
    exact
      { wf := id, guard := fun h => ⟨h, rfl⟩, clocks := id, hold := id
        balances := fun h => credited_settled h hheld
        claims := id
        ledger := credited_owed g k shown s }

/-- The slot after the shown report of its outstanding frame, `k` zones of which it lit (R135). -/
def Slot.reported (x : Slot) (k : Nat) : Slot :=
  { x with outstanding := none, running := x.running + k,
           preemptedFrames := if k = 0 then x.preemptedFrames + 1 else x.preemptedFrames }

/-- The slot with what a shown report adds to it, its zone-frames entered at the accounts next. -/
theorem runSlot_entered (g : Fin 8) {s : State} {x y : Slot} (k : Nat) (hopen : s.sru.groups[g].openSlot = some x)
    (hentry : y.entry = x.entry) (hclear : y.preClear = x.preClear) (hrun : y.running = x.running + k) :
    Entered (fun g' i => if (g' = g ∧ i = x.entry) ∧ x.preClear = false then BitVec.ofNat 64 k else 0) s
      (onGroup g (fun r => { r with openSlot := some y }) s) where
  wf := id
  guard h := ⟨h, rfl⟩
  clocks := id
  hold := id
  balances := Iff.mpr (balancesSettled_congr (fun _ _ => rfl) (upd_field RotationGroup.saturated rfl))
  claims := Iff.mpr (claimListsFormed_onGroup rfl)
  ledger g' i := by
    simp only [owed, onGroup_get, onGroup_accounts, onGroup_plw]
    by_cases hg : g' = g
    · subst hg
      simp only [if_true, RotationGroup.framesFor, hopen, hentry, hclear, hrun, true_and, eq_comm (a := i)]
      split
      · simp only [BitVec.ofNat_add]
        ring
      · rw [sub_zero]
    · simp only [hg, false_and, if_false, sub_zero]

theorem groupReport_orderly (g : Fin 8) (f : Frame) (report : List ReportEntry) {s t : State} (H : Orderly s t) :
    Orderly s (groupReport g f report t) := by
  unfold groupReport
  split
  · exact H
  · rename_i x hopen
    split
    · dsimp only
      generalize (report.filter fun e => creditsSlot g x e && e.lit).length = k
      have hrun := runSlot_entered g (y := x.reported k) k hopen rfl rfl rfl
      have hcredited : Orderly t (if x.preClear then onGroup g (fun r => { r with openSlot := some (x.reported k) }) t
          else creditGroup g k x.entry (onGroup g (fun r => { r with openSlot := some (x.reported k) }) t)) := by
        split
        · rename_i hclear
          refine hrun.orderly (funext fun _ => funext fun _ => if_neg fun h => ?_)
          rw [hclear] at h
          cases h.2
        · rename_i hclear
          refine (hrun.trans (creditGroup_entered g k x.entry _)).orderly (funext fun g' => funext fun i => ?_)
          simp only [Pi.add_apply, Bool.eq_false_iff.2 hclear, and_true]
          split
          · exact add_neg_cancel _
          · exact add_zero _
      split
      · exact closeSlot_orderly g (H.trans hcredited)
      · exact H.trans hcredited
    · exact H

end Sys2Proof.Machine
end

section
/-! SUPPORT. The sponsor rotation unit, after crediting: what clearing, cutting, retiring, a halt and a reset of its groups
keep (R127, R128, R134, R141 to R143, R150, R152). -/

namespace Sys2Proof.Machine

/-! ## What a handover and a snapshot leave of the groups -/

@[simp] theorem testReadIndex_sru (s : State) : (testReadIndex s).sru = s.sru :=
  testReadIndex_then (ps := [.plw, .events]) (.refl _ s) rfl .sru rfl

@[simp] theorem writeRecord_groups (r : PlayRecord) (s : State) : (writeRecord r s).sru.groups = s.sru.groups := by
  unfold writeRecord
  dsimp only
  split <;> simp [addLogged]

@[simp] theorem dropRecord_groups (r : PlayRecord) (s : State) : (dropRecord r s).sru.groups = s.sru.groups := by
  unfold dropRecord
  dsimp only
  split <;> simp [addUnlogged]

@[simp] theorem holdRecord_sru (r : PlayRecord) (s : State) : (holdRecord r s).sru = s.sru := rfl

@[simp] theorem handRecord_groups (r : PlayRecord) (s : State) : (handRecord r s).sru.groups = s.sru.groups := by
  unfold handRecord
  split
  · exact dropRecord_groups r s
  · split
    · split
      · rw [writeRecord_groups, testReadIndex_sru]
      · rw [holdRecord_sru, testReadIndex_sru]
    · rfl

/-- A record from before a clear reaches no account (R150). -/
theorem handRecord_sru_of_preClear {r : PlayRecord} (h : r.preClear = true) (s : State) :
    (handRecord r s).sru = s.sru := by
  unfold handRecord
  split
  · simp [dropRecord, h]
  · split
    · split
      · simp [writeRecord, h]
      · rw [holdRecord_sru, testReadIndex_sru]
    · rfl

@[simp] theorem writeSnapshot_accounts (g : Fin 8) (a : Vector Account 64) (s : State) :
    (writeSnapshot g a s).sru.accounts = s.sru.accounts := by
  unfold writeSnapshot
  split <;> rfl

theorem writeSnapshot_groups (g : Fin 8) (a : Vector Account 64) (s : State) (g' : Fin 8) :
    (writeSnapshot g a s).sru.groups[g'] =
      if g' = g ∧ s.smp.inForce = true then { s.sru.groups[g] with snapshots := s.sru.groups[g].snapshots + 1 }
      else s.sru.groups[g'] := by
  unfold writeSnapshot
  cases h : s.smp.inForce with
  | true =>
    simp only [if_true, and_true, State.withMem_sru]
    exact onGroup_get _ _ _ _
  | false => simp

/-! ## The group after a close and after a cut -/

/-- A close leaves a group without an open slot, its snapshots counted on while it writes one. -/
theorem closeSlot_groups (g : Fin 8) (s : State) (g' : Fin 8) :
    ∃ n, (closeSlot g s).sru.groups[g'] =
      if g' = g then { s.sru.groups[g] with openSlot := none, snapshots := n } else s.sru.groups[g'] := by
  unfold closeSlot
  split
  · rename_i hopen
    refine ⟨s.sru.groups[g].snapshots, ?_⟩
    split
    · subst_vars
      rw [← hopen]
    · rfl
  · dsimp only
    split
    · simp only [writeSnapshot_groups, State.nextFree_sru, handRecord_groups, onGroup_get, if_true, State.nextFree_smp]
      by_cases h : g' = g
      · by_cases hf : (handRecord (Slot.record ‹Slot› g) (onGroup g (fun r => { r with openSlot := none }) s)).smp.inForce
        · exact ⟨_, by simp only [h, hf, if_true, and_self]; rfl⟩
        · exact ⟨s.sru.groups[g].snapshots, by simp only [h, if_true, if_neg fun hand : True ∧ _ => hf hand.2]⟩
      · exact ⟨0, by simp only [h, false_and, if_false]⟩
    · refine ⟨s.sru.groups[g].snapshots, ?_⟩
      simp only [State.nextFree_sru, handRecord_groups, onGroup_get]

/-- What a close does not reach of the groups. -/
theorem closeSlot_field {α : Type} (F : RotationGroup → α)
    (hF : ∀ (r : RotationGroup) n, F { r with openSlot := none, snapshots := n } = F r) (g : Fin 8) (s : State)
    (g' : Fin 8) : F (closeSlot g s).sru.groups[g'] = F s.sru.groups[g'] := by
  obtain ⟨n, h⟩ := closeSlot_groups g s g'
  rw [h]
  split
  · subst_vars
    exact hF _ n
  · rfl

/-- The four things that a cut can do. -/
theorem cutSlot_cases (g : Fin 8) (s : State) :
    (s.sru.groups[g].openSlot = none ∧ cutSlot g s = s) ∨
    ∃ x, s.sru.groups[g].openSlot = some x ∧
      ((x.closing = true ∧ cutSlot g s = s) ∨
       (x.closing = false ∧ ∃ t, t = onGroup g (fun r => { r with openSlot := some { x with cut := true, closing := true } }) s ∧
          cutSlot g s = if x.outstanding = none then closeSlot g t else t)) := by
  unfold cutSlot
  cases hopen : s.sru.groups[g].openSlot with
  | none => exact .inl ⟨rfl, rfl⟩
  | some x =>
    refine .inr ⟨x, rfl, ?_⟩
    cases hc : x.closing with
    | true => exact .inl ⟨rfl, if_pos hc⟩
    | false => exact .inr ⟨rfl, _, rfl, if_neg (by rw [hc]; decide)⟩

/-- What a cut does not reach of the groups. -/
theorem cutSlot_field {α : Type} (F : RotationGroup → α)
    (hF : ∀ (r : RotationGroup) o n, F { r with openSlot := o, snapshots := n } = F r) (g : Fin 8) (s : State)
    (g' : Fin 8) : F (cutSlot g s).sru.groups[g'] = F s.sru.groups[g'] := by
  obtain ⟨-, h⟩ | ⟨x, -, ⟨-, h⟩ | ⟨-, t, ht, h⟩⟩ := cutSlot_cases g s
  · rw [h]
  · rw [h]
  · have hcut : ∀ g' : Fin 8, F t.sru.groups[g'] = F s.sru.groups[g'] := fun g' => by
      rw [ht]
      exact upd_field F (hF _ _ _) g'
    rw [h, ← hcut]
    split
    · exact closeSlot_field F (fun r n => hF r none n) g t g'
    · rfl

/-! ## Zone sets, enabling, disabling (R127, R129, R134) -/

variable {s t : State}

theorem takeZoneSet_sound (g : Fin 8) (zones : ZoneMask) (H : Sound s t) : Sound s (takeZoneSet g zones t) := by
  have hset : Sound t (onGroup g (fun r => { r with zones := zones }) t) :=
    { wf := id, guard := fun h => ⟨h, rfl⟩, clocks := id, hold := id
      balances := Iff.mpr (balancesSettled_congr (fun _ _ => rfl) (upd_field RotationGroup.saturated rfl))
      delivered := Iff.mpr (deliveredConserved_of_owed fun g' i => by
        have hframes := upd_field (v := t.sru.groups) (i := g) (f := fun r => { r with zones := zones })
          (fun r => RotationGroup.framesFor r i) rfl g'
        simp only [owed, onGroup_plw, onGroup_sru, hframes]) }
  unfold takeZoneSet
  dsimp only
  split
  · exact (H.trans hset).trans (cutSlot_orderly g (.refl _)).toSound
  · exact H.trans hset

/-- What a zone set taken makes of the groups' zones. -/
theorem takeZoneSet_zones (g : Fin 8) (zones : ZoneMask) (s : State) (g' : Fin 8) :
    (takeZoneSet g zones s).sru.groups[g'].zones = if g' = g then zones else s.sru.groups[g'].zones := by
  have hset : (onGroup g (fun r => { r with zones := zones }) s).sru.groups[g'].zones =
      if g' = g then zones else s.sru.groups[g'].zones := by
    rw [onGroup_get]
    split <;> rfl
  unfold takeZoneSet
  dsimp only
  split
  · rw [cutSlot_field RotationGroup.zones (fun _ _ _ => rfl), hset]
  · exact hset

theorem onSru_orderly (f : Sru → Sru) (ha : (f t.sru).accounts = t.sru.accounts) (hg : (f t.sru).groups = t.sru.groups)
    (H : Orderly s t) : Orderly s (t.onSru f) :=
  H.trans (.of_same rfl rfl rfl rfl ha hg rfl)

theorem activateEntry_orderly (i : Fin 64) (H : Orderly s t) : Orderly s (activateEntry i t) :=
  onSru_orderly _ rfl rfl H

theorem writeEntry_orderly (i : Fin 64) (d : Entry) (H : Orderly s t) : Orderly s (writeEntry i d t) := by
  refine H.trans (.of_accounts (writeEntry_then i d (.refl _ _) rfl) rfl fun g j => ?_)
  have hget : (writeEntry i d t).sru.accounts[g] = upd t.sru.accounts[g] i fun a => { a with cursor := 0 } := by
    simp [writeEntry]
  rw [hget]
  exact ⟨upd_field Account.balance rfl j, upd_field Account.delivered rfl j, upd_field Account.logged rfl j,
    upd_field Account.unlogged rfl j⟩

theorem retireEntry_orderly (i : Fin 64) (H : Orderly s t) : Orderly s (retireEntry i t) := by
  unfold retireEntry
  split
  · exact inFreeOrder_orderly (onSru_orderly _ rfl rfl H) fun g _ hu => cutSlot_orderly g hu
  · exact H

/-- A change of every group at once that no invariant reads. -/
theorem mapGroups_orderly (f : RotationGroup → RotationGroup) (hf : ∀ r : RotationGroup, r.SameBooks (f r)) (H : Orderly s t) :
    Orderly s (t.onSru fun r => { r with groups := r.groups.map f }) :=
  H.trans (.of_groups (onSru_then _ (.refl _ _) rfl) rfl fun g => by
    have hget : (t.sru.groups.map f)[g] = f t.sru.groups[g] := by simp
    exact hget ▸ hf _)

/-- A change of the open slot that leaves what it has run and whether it is before a clear. -/
theorem sameBooks_mapSlot (f : Slot → Slot)
    (hf : ∀ x, (f x).entry = x.entry ∧ (f x).preClear = x.preClear ∧ (f x).running = x.running) (r : RotationGroup) :
    r.SameBooks { r with openSlot := r.openSlot.map f } := by
  refine ⟨rfl, rfl, fun i => ?_⟩
  unfold RotationGroup.framesFor
  cases r.openSlot with
  | none => rfl
  | some x =>
    obtain ⟨he, hp, hr⟩ := hf x
    simp only [Option.map_some, he, hp, hr]

theorem sruFallback_orderly (H : Orderly s t) : Orderly s (sruFallback t) :=
  mapGroups_orderly _ (sameBooks_mapSlot _ fun _ => ⟨rfl, rfl, rfl⟩) H

theorem markHaltCuts_orderly (H : Orderly s t) : Orderly s (markHaltCuts t) := by
  refine mapGroups_orderly _ (fun r => ?_) H
  split
  · refine sameBooks_mapSlot _ (fun x => ?_) r
    unfold Slot.haltedAt
    split <;> exact ⟨rfl, rfl, rfl⟩
  · exact ⟨rfl, rfl, fun _ => rfl⟩

/-! ## GROUP_CLEAR (R128, R150) -/

/-- The accounts of the group zeroed and its open slot marked, before the cut. -/
def clearedBooks (g : Fin 8) (s : State) : State :=
  let t := s.onSru fun r =>
    { r with accounts := upd r.accounts g fun as => as.map fun a => { Account.zero with cursor := a.cursor } }
  let t := onGroup g (fun r => { r with saturated := false }) t
  let t := if s.sru.groups[g].saturated then writeGroupStatus t else t
  onGroup g (fun r => { r with openSlot := r.openSlot.map fun x => { x with preClear := true } }) t

theorem clearGroup_eq (g : Fin 8) (s : State) : clearGroup g s =
    writeSnapshot g (markHold g (cutSlot g (clearedBooks g s))).sru.accounts[g] (markHold g (cutSlot g (clearedBooks g s))) :=
  rfl

theorem clearedBooks_accounts (g : Fin 8) (s : State) (g' : Fin 8) : (clearedBooks g s).sru.accounts[g'] =
    if g' = g then s.sru.accounts[g].map fun a => { Account.zero with cursor := a.cursor } else s.sru.accounts[g'] := by
  have h : (clearedBooks g s).sru.accounts =
      upd s.sru.accounts g fun as => as.map fun a => { Account.zero with cursor := a.cursor } := by
    unfold clearedBooks
    dsimp only
    split <;> simp [writeGroupStatus]
  rw [h, upd_get]

theorem clearedBooks_groups (g : Fin 8) (s : State) (g' : Fin 8) : (clearedBooks g s).sru.groups[g'] =
    if g' = g then { s.sru.groups[g] with
      saturated := false, openSlot := s.sru.groups[g].openSlot.map fun x => { x with preClear := true } }
    else s.sru.groups[g'] := by
  have h : (clearedBooks g s).sru.groups =
      upd (upd s.sru.groups g fun r => { r with saturated := false }) g fun r =>
        { r with openSlot := r.openSlot.map fun x => { x with preClear := true } } := by
    unfold clearedBooks
    dsimp only
    split <;> simp [writeGroupStatus]
  rw [h, upd_get, upd_get, upd_get]
  split <;> simp_all

theorem clearedBooks_sound_but_ledger (g : Fin 8) (s : State) :
    (s.mem.wf → (clearedBooks g s).mem.wf) ∧
    (s.smp.inForce = false → (clearedBooks g s).smp.inForce = false ∧ (clearedBooks g s).mem = s.mem) ∧
    (clearedBooks g s).ccu = s.ccu ∧ (clearedBooks g s).plw = s.plw ∧ (clearedBooks g s).zar = s.zar := by
  unfold clearedBooks
  dsimp only
  split
  · refine ⟨fun h => ?_, fun h => ?_, ?_⟩
    · rw [onGroup_mem, writeGroupStatus]
      exact anchorWrite_wf (by exact h) _ _
    · simp [writeGroupStatus, anchorWrite, h]
    · simp [writeGroupStatus]
  · exact ⟨id, fun h => ⟨h, rfl⟩, rfl, rfl, rfl⟩

/-- Where every open slot of the group is marked, a cut reaches no account. -/
theorem cutSlot_accounts_of_preClear {g : Fin 8} {s : State}
    (h : ∀ x, s.sru.groups[g].openSlot = some x → x.preClear = true) : (cutSlot g s).sru.accounts = s.sru.accounts := by
  obtain ⟨-, hc⟩ | ⟨x, hopen, ⟨-, hc⟩ | ⟨-, t, ht, hc⟩⟩ := cutSlot_cases g s
  · rw [hc]
  · rw [hc]
  · have htacc : t.sru.accounts = s.sru.accounts := by rw [ht]; rfl
    have hy : t.sru.groups[g].openSlot = some { x with cut := true, closing := true } := by
      rw [ht, onGroup_get_self]
    rw [hc, ← htacc]
    split
    · unfold closeSlot
      rw [hy]
      dsimp only
      have hmarked : (Slot.record { x with cut := true, closing := true } g).preClear = true := h x hopen
      split
      · rw [writeSnapshot_accounts, State.nextFree_sru, handRecord_sru_of_preClear hmarked, onGroup_accounts]
      · rw [State.nextFree_sru, handRecord_sru_of_preClear hmarked, onGroup_accounts]
    · rfl

/-- A group whose open slot is marked, or that has none, owes the ledger nothing for it. -/
theorem framesFor_eq_zero {r : RotationGroup} (h : ∀ x, r.openSlot = some x → x.preClear = true) (i : Fin 64) :
    r.framesFor i = 0 := by
  unfold RotationGroup.framesFor
  cases hopen : r.openSlot with
  | none => rfl
  | some x => simp [h x hopen]

theorem cutSlot_preClear {g : Fin 8} {s : State} (h : ∀ x, s.sru.groups[g].openSlot = some x → x.preClear = true) :
    ∀ x, (cutSlot g s).sru.groups[g].openSlot = some x → x.preClear = true := by
  obtain ⟨-, hc⟩ | ⟨x, hopen, ⟨-, hc⟩ | ⟨-, t, ht, hc⟩⟩ := cutSlot_cases g s
  · rw [hc]; exact h
  · rw [hc]; exact h
  · rw [hc]
    split
    · obtain ⟨n, hn⟩ := closeSlot_groups g t g
      rw [hn, if_pos rfl]
      intro y hy
      cases hy
    · rw [ht, onGroup_get_self]
      rintro y ⟨⟩
      exact h x hopen

theorem closeSlot_owed (g : Fin 8) (s : State) (g' : Fin 8) (i : Fin 64) : owed (closeSlot g s) g' i = owed s g' i := by
  unfold closeSlot
  split
  · rfl
  · rename_i x hopen
    have hentered := (takeOut_entered g hopen).trans (handRecord_entered (x.record g) _)
    have hledger := hentered.ledger g' i
    rw [neg_add_cancel, Pi.zero_apply, Pi.zero_apply, sub_zero] at hledger
    rw [← hledger]
    dsimp only
    split
    · generalize handRecord (x.record g) (onGroup g (fun r => { r with openSlot := none }) s) = u
      have hframes : ∀ a, ((writeSnapshot g a u.nextFree).sru.groups[g']).framesFor i = u.sru.groups[g'].framesFor i := by
        intro a
        rw [writeSnapshot_groups]
        split
        · rename_i hg
          rw [hg.1]
          rfl
        · rfl
      have hplw : ∀ a, (writeSnapshot g a u.nextFree).plw = u.plw := fun a =>
        writeSnapshot_then (ps := [.sru, .mem, .free]) g a (nextFree_then (.refl _ u) rfl) rfl .plw rfl
      simp only [owed, writeSnapshot_accounts, hframes, hplw, State.nextFree_sru]
    · rfl

theorem cutSlot_owed (g : Fin 8) (s : State) (g' : Fin 8) (i : Fin 64) : owed (cutSlot g s) g' i = owed s g' i := by
  obtain ⟨-, hc⟩ | ⟨x, hopen, ⟨-, hc⟩ | ⟨-, t, ht, hc⟩⟩ := cutSlot_cases g s
  · rw [hc]
  · rw [hc]
  · have howed : owed t g' i = owed s g' i := by
      subst ht
      have hframes := upd_field (v := s.sru.groups) (i := g)
        (f := fun r => { r with openSlot := some { x with cut := true, closing := true } })
        (fun r => RotationGroup.framesFor r i) (by simp only [RotationGroup.framesFor, hopen]) g'
      simp only [owed, onGroup_plw, onGroup_sru, hframes]
    rw [hc, ← howed]
    split
    · exact closeSlot_owed g t g' i
    · rfl

theorem markHold_framesFor (g : Fin 8) (s : State) (g' : Fin 8) (i : Fin 64) :
    ((markHold g s).plw.hold.map fun r => r.framesFor g' i).sum =
      if g' = g then 0 else (s.plw.hold.map fun r => r.framesFor g' i).sum := by
  simp only [markHold, State.onPlw_plw, List.map_map]
  split
  · subst_vars
    refine List.sum_eq_zero fun n hn => ?_
    obtain ⟨r, -, rfl⟩ := List.mem_map.1 hn
    simp only [Function.comp_apply, PlayRecord.framesFor]
    split <;> split <;> simp_all
  · refine congrArg List.sum (List.map_congr_left fun r _ => ?_)
    have hne : g ≠ g' := Ne.symm ‹_›
    by_cases hr : r.group = g <;> simp [PlayRecord.framesFor, hr, hne]

theorem clearGroup_delivered (g : Fin 8) {s : State} (h : DeliveredConserved s) :
    DeliveredConserved (markHold g (cutSlot g (clearedBooks g s))) := by
  rw [deliveredConserved_iff] at h ⊢
  obtain ⟨-, -, -, hplw, -⟩ := clearedBooks_sound_but_ledger g s
  have hmark : ∀ x, (clearedBooks g s).sru.groups[g].openSlot = some x → x.preClear = true := by
    intro x hx
    rw [clearedBooks_groups, if_pos rfl] at hx
    obtain ⟨y, -, rfl⟩ := Option.map_eq_some_iff.1 hx
    rfl
  intro g' i
  by_cases hg : g' = g
  · subst hg
    have haccount : (cutSlot g' (clearedBooks g' s)).sru.accounts[g'][i] =
        { Account.zero with cursor := s.sru.accounts[g'][i].cursor } := by
      rw [cutSlot_accounts_of_preClear hmark, clearedBooks_accounts, if_pos rfl]
      simp
    have hheld := markHold_framesFor g' (cutSlot g' (clearedBooks g' s)) g' i
    rw [if_pos rfl] at hheld
    have hsru : (markHold g' (cutSlot g' (clearedBooks g' s))).sru = (cutSlot g' (clearedBooks g' s)).sru := rfl
    simp only [owed, hsru, hheld, haccount, framesFor_eq_zero (cutSlot_preClear hmark), Account.zero]
    decide
  · have hcleared : owed (clearedBooks g s) g' i = owed s g' i := by
      simp only [owed, clearedBooks_accounts, clearedBooks_groups, if_neg hg, hplw]
    have hheld := markHold_framesFor g (cutSlot g (clearedBooks g s)) g' i
    rw [if_neg hg] at hheld
    have hmarked : owed (markHold g (cutSlot g (clearedBooks g s))) g' i = owed (cutSlot g (clearedBooks g s)) g' i := by
      simp only [owed, hheld]
      rfl
    rw [hmarked, cutSlot_owed, hcleared]
    exact h g' i

theorem clearedBooks_balances (g : Fin 8) {s : State} (h : BalancesSettled s) : BalancesSettled (clearedBooks g s) := by
  intro g'
  rw [clearedBooks_accounts, clearedBooks_groups]
  split
  · refine ⟨fun i => ?_, fun _ => ?_⟩
    · simp [Account.zero, Config.balanceMin, Config.balanceMax]
    · simp [Account.zero]
  · exact h g'

theorem clearGroup_orderly (g : Fin 8) (H : Orderly s t) : Orderly s (clearGroup g t) := by
  refine H.trans ?_
  rw [clearGroup_eq]
  refine writeSnapshot_orderly _ _ ?_
  obtain ⟨hwf, hguard, hccu, hplw, hzar⟩ := clearedBooks_sound_but_ledger g t
  have hcut := cutSlot_orderly g (.refl (clearedBooks g t))
  exact
    { wf := hcut.wf ∘ hwf
      guard := fun h => ⟨(hcut.guard (hguard h).1).1, (hcut.guard (hguard h).1).2.trans (hguard h).2⟩
      clocks := fun h => hcut.clocks ((clockCountsBounded_congr (congrArg Ccu.channels hccu)).2 h)
      hold := fun h => by
        have hlen : (markHold g (cutSlot g (clearedBooks g t))).plw.hold.length =
            (cutSlot g (clearedBooks g t)).plw.hold.length := List.length_map _
        rw [HoldBounded, hlen]
        exact hcut.hold (by rw [HoldBounded, hplw]; exact h)
      balances := fun h => hcut.balances (clearedBooks_balances g h)
      delivered := clearGroup_delivered g
      claims := fun h => hcut.claims ((claimListsFormed_congr (congrArg Zar.table hzar) fun g' => by
        rw [clearedBooks_groups]
        split
        · subst_vars; rfl
        · rfl).2 h) }

end Sys2Proof.Machine
end

section
/-! SUPPORT. Zones and claims: masks of zones, the form of a claim list (R65, R66, R72), the updates of the zone table and
what the claim operations keep. -/

namespace Sys2Proof.Machine

/-! ## Masks of zones -/

theorem zoneBit_getLsbD (z y : Fin 16) : (zoneBit z).getLsbD y.val = (z == y) := by
  revert z y
  decide

theorem mem_zonesOf {m : ZoneMask} {z : Fin 16} : z ∈ zonesOf m ↔ m.getLsbD z.val = true := by
  simp [zonesOf]

theorem foldl_zoneBit (p : Fin 16 → Bool) (l : List (Fin 16)) (m : ZoneMask) (y : Fin 16) :
    (l.foldl (fun m z => if p z then m ||| zoneBit z else m) m).getLsbD y.val =
      (m.getLsbD y.val || l.any fun z => p z && z == y) := by
  induction l generalizing m with
  | nil => simp
  | cons z zs ih =>
    rw [List.foldl_cons, ih, List.any_cons]
    cases hp : p z with
    | true => simp only [if_true, BitVec.getLsbD_or, zoneBit_getLsbD, Bool.true_and, Bool.or_assoc]
    | false => simp

@[simp] theorem maskOf_getLsbD (p : Fin 16 → Bool) (z : Fin 16) : (maskOf p).getLsbD z.val = p z := by
  rw [maskOf, foldl_zoneBit]
  simp only [BitVec.ofNat_eq_ofNat, BitVec.getLsbD_zero, Bool.false_or]
  rw [Bool.eq_iff_iff, List.any_eq_true]
  constructor
  · rintro ⟨x, -, hx⟩
    obtain ⟨hp, he⟩ := Bool.and_eq_true_iff.1 hx
    rw [← beq_iff_eq.1 he]
    exact hp
  · intro h
    exact ⟨z, List.mem_finRange z, by simp [h]⟩

theorem zoneMask_ext {m n : ZoneMask} (h : ∀ z : Fin 16, m.getLsbD z.val = n.getLsbD z.val) : m = n :=
  BitVec.eq_of_getLsbD_eq fun i hi => h ⟨i, hi⟩

@[simp] theorem zoneSetOf_getLsbD (table : Vector (Option ZoneEntry) 16) (g : Fin 8) (z : Fin 16) :
    (zoneSetOf table g).getLsbD z.val = namesGroup table[z] g :=
  maskOf_getLsbD _ _

theorem namesGroup_iff {e : Option ZoneEntry} {g : Fin 8} :
    namesGroup e g = true ↔ ∃ x, e = some x ∧ x.defn.group = some g := by
  cases e <;> simp [namesGroup]

/-! ## Claim lists (R65, R66) -/

theorem insertClaim_perm (c : Claim) (cs : List Claim) : (insertClaim c cs).Perm (c :: cs) := by
  rw [insertClaim]
  exact List.perm_middle.trans (by rw [List.takeWhile_append_dropWhile])

theorem mem_insertClaim {c d : Claim} {cs : List Claim} : d ∈ insertClaim c cs ↔ d = c ∨ d ∈ cs := by
  rw [(insertClaim_perm c cs).mem_iff, List.mem_cons]

/-- In a list that stands by level, what stands behind the claims of equal or lower level number is of a higher one. -/
theorem lt_of_mem_dropWhile {cs : List Claim} (hsorted : cs.Pairwise fun c d => c.level ≤ d.level) {n : Nat} {d : Claim}
    (hd : d ∈ cs.dropWhile fun d => decide (d.level ≤ n)) : n < d.level := by
  induction cs with
  | nil => simp at hd
  | cons c cs ih =>
    obtain ⟨hhead, htail⟩ := List.pairwise_cons.1 hsorted
    rw [List.dropWhile_cons] at hd
    split at hd
    · exact ih htail hd
    · rename_i hc
      have hlt : n < c.level := by simpa using hc
      obtain rfl | hmem := List.mem_cons.1 hd
      · exact hlt
      · exact hlt.trans_le (hhead d hmem)

theorem le_of_mem_takeWhile {cs : List Claim} {n : Nat} {d : Claim}
    (hd : d ∈ cs.takeWhile fun d => decide (d.level ≤ n)) : d.level ≤ n := by
  simpa using List.mem_takeWhile_imp hd

theorem insertClaim_sorted {c : Claim} {cs : List Claim} (h : cs.Pairwise fun c d => c.level ≤ d.level) :
    (insertClaim c cs).Pairwise fun c d => c.level ≤ d.level := by
  refine List.pairwise_append.2 ⟨h.sublist (List.takeWhile_sublist _), List.pairwise_cons.2 ⟨fun d hd => ?_,
    h.sublist (List.dropWhile_sublist _)⟩, fun d hd e he => ?_⟩
  · exact (lt_of_mem_dropWhile h hd).le
  · obtain rfl | he := List.mem_cons.1 he
    · exact le_of_mem_takeWhile hd
    · exact (le_of_mem_takeWhile hd).trans (lt_of_mem_dropWhile h he).le

/-- The levels that a claim may stand at (R65, R72). -/
def Claim.LevelOk (c : Claim) : Prop :=
  (c.who.isGroup = true → c.level = groupLevel) ∧ (c.who.isGroup = false → c.level ≤ 5) ∧ ∀ k, c.who = .clip k → 1 ≤ c.level

theorem claimsWf_filter {cs : List Claim} (p : Claim → Bool) (h : claimsWf cs) : claimsWf (cs.filter p) := by
  obtain ⟨hn, hg, hsorted, hnodup, hlevel⟩ := h
  have hsub : (cs.filter p).Sublist cs := List.filter_sublist
  exact ⟨(hsub.filter _).length_le.trans hn, (hsub.filter _).length_le.trans hg, hsorted.sublist hsub,
    hnodup.sublist (hsub.map _), fun c hc => hlevel c (hsub.subset hc)⟩

theorem claimsWf_nil : claimsWf [] := by decide

theorem claimsWf_insertClaim {c : Claim} {cs : List Claim} (h : claimsWf cs) (hnew : c.who ∉ cs.map Claim.who)
    (hlevel : c.LevelOk) (hroom : c.who.isGroup = false → (nonGroup cs).length < 5)
    (hgroup : c.who.isGroup = true → ∀ d ∈ cs, d.who.isGroup = false) : claimsWf (insertClaim c cs) := by
  obtain ⟨hn, hg, hsorted, hnodup, hlevels⟩ := h
  have hperm := insertClaim_perm c cs
  refine ⟨?_, ?_, insertClaim_sorted hsorted, ?_, fun d hd => ?_⟩
  · rw [nonGroup, (hperm.filter _).length_eq, List.filter_cons]
    cases hc : c.who.isGroup with
    | true => simpa [nonGroup] using hn
    | false => simpa [nonGroup] using hroom hc
  · rw [(hperm.filter _).length_eq, List.filter_cons]
    cases hc : c.who.isGroup with
    | true =>
      have hnone : (cs.filter fun d => d.who.isGroup) = [] := List.filter_eq_nil_iff.2 fun d hd => by simp [hgroup hc d hd]
      simp [hnone]
    | false => simpa using hg
  · exact (hperm.map Claim.who).nodup_iff.2 (List.nodup_cons.2 ⟨hnew, hnodup⟩)
  · obtain rfl | hd := mem_insertClaim.1 hd
    · exact hlevel
    · exact hlevels d hd

theorem holdsIn_iff {who : Claimant} {cs : List Claim} : holdsIn who cs = true ↔ who ∈ cs.map Claim.who := by
  simp only [holdsIn, List.any_eq_true, beq_iff_eq, List.mem_map]

theorem mem_removeClaim {who : Claimant} {cs : List Claim} {c : Claim} : c ∈ removeClaim who cs ↔ c ∈ cs ∧ c.who ≠ who := by
  simp [removeClaim]

/-! ## The zone table -/

/-- A zone whose claims have their form, its group's claim that of the group its definition names. -/
def ZoneEntry.Formed (e : ZoneEntry) : Prop :=
  claimsWf e.claims ∧ ∀ c ∈ e.claims, ∀ g, c.who = .group g → e.defn.group = some g

def Zar.Formed (z : Zar) : Prop := ∀ (i : Fin 16) (e : ZoneEntry), z.table[i] = some e → e.Formed

theorem claimListsFormed_iff (s : State) : ClaimListsFormed s ↔
    s.zar.Formed ∧ ∀ g : Fin 8, s.sru.groups[g].zones = zoneSetOf s.zar.table g := Iff.rfl

theorem Zar.onClaims_get (z : Zar) (i : Fin 16) (f : List Claim → List Claim) (j : Fin 16) :
    (z.onClaims i f).table[j] =
      if j = i then z.table[i].map fun x => { x with claims := f x.claims } else z.table[j] :=
  upd_get _ _ _ _

theorem Zar.onAllClaims_get (z : Zar) (f : List Claim → List Claim) (j : Fin 16) :
    (z.onAllClaims f).table[j] = z.table[j].map fun x => { x with claims := f x.claims } := by
  simp [Zar.onAllClaims]

/-- The zone sets of the groups do not read the claims. -/
theorem zoneSetOf_congr {a b : Vector (Option ZoneEntry) 16}
    (h : ∀ i : Fin 16, (a[i].map ZoneEntry.defn) = b[i].map ZoneEntry.defn) (g : Fin 8) : zoneSetOf a g = zoneSetOf b g := by
  refine zoneMask_ext fun z => ?_
  rw [zoneSetOf_getLsbD, zoneSetOf_getLsbD, Bool.eq_iff_iff, namesGroup_iff, namesGroup_iff]
  have hz := h z
  cases ha : a[z] <;> cases hb : b[z] <;> rw [ha, hb] at hz <;> simp_all

theorem Zar.onClaims_defn (z : Zar) (i : Fin 16) (f : List Claim → List Claim) (j : Fin 16) :
    (z.onClaims i f).table[j].map ZoneEntry.defn = z.table[j].map ZoneEntry.defn := by
  rw [Zar.onClaims_get]
  split
  · subst_vars
    rw [Option.map_map]
    rfl
  · rfl

theorem Zar.onAllClaims_defn (z : Zar) (f : List Claim → List Claim) (j : Fin 16) :
    (z.onAllClaims f).table[j].map ZoneEntry.defn = z.table[j].map ZoneEntry.defn := by
  rw [Zar.onAllClaims_get, Option.map_map]
  rfl

/-- A change of the claims alone that keeps the form of each list. -/
theorem onZar_orderly (f : Zar → Zar) {s t : State}
    (hdefn : ∀ i : Fin 16, (f t.zar).table[i].map ZoneEntry.defn = t.zar.table[i].map ZoneEntry.defn)
    (hf : ClaimListsFormed t → (f t.zar).Formed) (H : Orderly s t) : Orderly s (t.onZar f) :=
  H.trans
    { toSound := .of_zar (onZar_then f (.refl _ _) rfl)
      claims := fun h => ⟨hf h, fun g => ((claimListsFormed_iff t).1 h).2 g |>.trans (zoneSetOf_congr hdefn g).symm⟩ }

theorem ZoneEntry.Formed.filter {e : ZoneEntry} (h : e.Formed) (p : Claim → Bool) :
    ZoneEntry.Formed { e with claims := e.claims.filter p } :=
  ⟨claimsWf_filter p h.1, fun c hc => h.2 c (List.mem_of_mem_filter hc)⟩

theorem Zar.Formed.onAllClaims {z : Zar} {f : List Claim → List Claim} (h : z.Formed)
    (hf : ∀ e : ZoneEntry, e.Formed → ZoneEntry.Formed { e with claims := f e.claims }) : (z.onAllClaims f).Formed := by
  intro i e he
  rw [Zar.onAllClaims_get] at he
  obtain ⟨x, hx, rfl⟩ := Option.map_eq_some_iff.1 he
  exact hf x (h i x hx)

theorem Zar.Formed.onClaims {z : Zar} {i : Fin 16} {f : List Claim → List Claim} (h : z.Formed)
    (hf : ∀ e, z.table[i] = some e → e.Formed → ZoneEntry.Formed { e with claims := f e.claims }) :
    (z.onClaims i f).Formed := by
  intro j e he
  rw [Zar.onClaims_get] at he
  split at he
  · obtain ⟨x, hx, rfl⟩ := Option.map_eq_some_iff.1 he
    exact hf x hx (h i x hx)
  · exact h j e he

/-! ## The claim operations (R64, R66, R71, R72) -/

variable {s t : State}

theorem releaseClaims_orderly (w : Claimant) (H : Orderly s t) : Orderly s (releaseClaims w t) :=
  onZar_orderly _ (Zar.onAllClaims_defn _ _) (fun h => Zar.Formed.onAllClaims h.1 fun _ he => he.filter _) H

theorem removeAllClaims_orderly (H : Orderly s t) : Orderly s (removeAllClaims t) :=
  onZar_orderly _ (Zar.onAllClaims_defn _ _)
    (fun h => Zar.Formed.onAllClaims h.1 fun _ _ => ⟨claimsWf_nil, fun _ hc => absurd hc List.not_mem_nil⟩) H

theorem setBank_orderly (b : Fin 4) (zs : List ZoneDef) (H : Orderly s t) : Orderly s (setBank b zs t) :=
  H.trans (.of_same rfl rfl rfl rfl rfl rfl rfl)

/-- A group's claim inserted in a zone that names the group. -/
theorem ZoneEntry.Formed.insertGroup {e : ZoneEntry} {g : Fin 8} (h : e.Formed) (hg : e.defn.group = some g) :
    ZoneEntry.Formed { e with claims := insertGroup g e.claims } := by
  unfold Machine.insertGroup
  split
  · exact h
  · rename_i hnew
    refine ⟨claimsWf_insertClaim h.1 (fun hm => hnew (holdsIn_iff.2 hm))
      ⟨fun _ => rfl, fun hc => Bool.noConfusion (show true = false from hc), fun _ hc => nomatch hc⟩
      (fun hc => Bool.noConfusion (show true = false from hc)) ?_, ?_⟩
    · intro _ d hd
      cases hw : d.who with
      | clip _ => rfl
      | message _ => rfl
      | group g' =>
        have hsame := h.2 d hd g' hw
        rw [hg, Option.some.injEq] at hsame
        subst hsame
        exact absurd (holdsIn_iff.2 (List.mem_map.2 ⟨d, hd, hw⟩)) hnew
    · intro c hc g' hw
      obtain rfl | hc := mem_insertClaim.1 hc
      · cases hw
        exact hg
      · exact h.2 c hc g' hw

theorem insertGroupClaims_orderly (g : Fin 8) (zones : ZoneMask) (hz : zones = t.sru.groups[g].zones) (H : Orderly s t) :
    Orderly s (insertGroupClaims g zones t) := by
  have hfold : ∀ (l : List (Fin 16)) (z : Zar), (∀ i : Fin 16,
      ((l.foldl (fun y i => y.onClaims i (insertGroup g)) z).table[i].map ZoneEntry.defn) = z.table[i].map ZoneEntry.defn) ∧
      (z.Formed → (∀ i ∈ l, ∀ e, z.table[i] = some e → e.defn.group = some g) →
        (l.foldl (fun y i => y.onClaims i (insertGroup g)) z).Formed) := by
    intro l
    induction l with
    | nil => exact fun z => ⟨fun _ => rfl, fun h _ => h⟩
    | cons a l ih =>
      intro z
      obtain ⟨hdefn, hform⟩ := ih (z.onClaims a (insertGroup g))
      refine ⟨fun i => (hdefn i).trans (Zar.onClaims_defn z a _ i), fun h hl => hform ?_ fun i hi e he => ?_⟩
      · exact h.onClaims fun e he hf => hf.insertGroup (hl a List.mem_cons_self e he)
      · have hd := Zar.onClaims_defn z a (insertGroup g) i
        rw [he, Option.map_some] at hd
        obtain ⟨x, hx, hdx⟩ := Option.map_eq_some_iff.1 hd.symm
        rw [← hdx]
        exact hl i (List.mem_cons_of_mem _ hi) x hx
  unfold insertGroupClaims
  split
  · refine onZar_orderly _ (fun i => (hfold _ _).1 i) (fun h => (hfold _ _).2 h.1 fun i hi e he => ?_) H
    rw [hz, ((claimListsFormed_iff t).1 h).2 g, mem_zonesOf, zoneSetOf_getLsbD, namesGroup_iff] at hi
    obtain ⟨x, hx, hg⟩ := hi
    rw [he, Option.some.injEq] at hx
    rw [hx]
    exact hg
  · exact H

theorem enableGroup_orderly (g : Fin 8) (H : Orderly s t) : Orderly s (enableGroup g t) := by
  unfold enableGroup
  split
  · exact H
  · exact writeGroupStatus_orderly (insertGroupClaims_orderly g _ (by rfl)
      (onGroup_orderly g _ ⟨rfl, rfl, fun _ => rfl⟩ H))

theorem disableGroup_orderly (g : Fin 8) (H : Orderly s t) : Orderly s (disableGroup g t) := by
  unfold disableGroup
  split
  · exact writeGroupStatus_orderly (cutSlot_orderly g (releaseClaims_orderly _
      (onGroup_orderly g _ ⟨rfl, rfl, fun _ => rfl⟩ H)))
  · exact H

theorem sruHalt_orderly (H : Orderly s t) : Orderly s (sruHalt t) :=
  inFreeOrder_orderly (inOrder_orderly (onSru_orderly _ rfl rfl (markHaltCuts_orderly H)) fun g _ hu =>
    disableGroup_orderly g hu) fun g _ hu => disableGroup_orderly g hu

end Sys2Proof.Machine
end

section
/-! SUPPORT. The clip and message slots, claim requests and layout switches: each keeps the invariants, and writes show
memory only under an anchor in force. -/

namespace Sys2Proof.Machine

variable {s t : State}

/-! ## Cue records and trigger reports -/

theorem writeDone_orderly (i : Nat) (r : CueResult) (H : Orderly s t) : Orderly s (writeDone i r t) := by
  unfold writeDone
  split
  · exact raise_orderly _ (writeCue_orderly _ _ _ H)
  · exact H

theorem completeCue_orderly (e i : Nat) (r : CueResult) (H : Orderly s t) : Orderly s (completeCue e i r t) := by
  unfold completeCue
  split
  · exact writeDone_orderly _ _ H
  · exact H

theorem writeReport_orderly (e : Fin 8) (H : Orderly s t) : Orderly s (writeReport e t) := by
  unfold writeReport
  repeat'
    with_reducible first
      | assumption | apply anchorWrite_orderly

theorem takeSource_orderly (ev : TriggerSource) (H : Orderly s t) : Orderly s (takeSource ev t) := by
  unfold takeSource
  repeat'
    with_reducible first
      | assumption | apply inOrder_orderly | apply onTrigger_orderly | apply writeReport_orderly
      | intro _ _ _

theorem sourceEvent_orderly (ev : TriggerSource) (H : Orderly s t) : Orderly s (sourceEvent ev t) := by
  unfold sourceEvent
  repeat'
    with_reducible first
      | assumption | apply onEtu_orderly | apply takeSource_orderly | intro _ _ _ | split

theorem triggerResult_orderly (e : Fin 8) (st : Status) (a b : Nat) (H : Orderly s t) :
    Orderly s (triggerResult e st a b t) := by
  unfold triggerResult
  repeat'
    with_reducible first
      | assumption | apply onTrigger_orderly | apply writeReport_orderly

/-! ## Clips (chapter 6) -/

theorem completeClip_orderly (k : Fin 8) (H : Orderly s t) : Orderly s (completeClip k t) := by
  unfold completeClip
  repeat'
    with_reducible first
      | assumption | apply completeCue_orderly | apply onClip_orderly | apply sourceEvent_orderly
      | apply triggerResult_orderly | intro _ _ _ | split

theorem endClip_orderly (st : Status) (k : Fin 8) (H : Orderly s t) : Orderly s (endClip st k t) := by
  unfold endClip
  repeat'
    with_reducible first
      | assumption | apply completeClip_orderly | apply onClip_orderly | apply releaseClaims_orderly
      | intro _ _ _ | split | dsimp only

theorem preemptClip_orderly (k : Fin 8) (H : Orderly s t) : Orderly s (preemptClip k t) := by
  unfold preemptClip
  repeat'
    with_reducible first
      | assumption | apply onClip_orderly | intro _ _ _ | split

theorem loseClip_orderly (st : Status) (k : Fin 8) (z : ZoneMask) (H : Orderly s t) :
    Orderly s (loseClip st k z t) := by
  unfold loseClip
  repeat'
    with_reducible first
      | assumption | apply endClip_orderly | apply onClip_orderly | intro _ _ _ | split | dsimp only

theorem exhaustClip_orderly (k : Fin 8) (H : Orderly s t) : Orderly s (exhaustClip k t) := by
  unfold exhaustClip
  repeat'
    with_reducible first
      | assumption | apply endClip_orderly | apply onClip_orderly | intro _ _ _ | split

theorem clipRequest_orderly (k : Fin 8) (f : Frame) (z : ZoneMask) (H : Orderly s t) :
    Orderly s (clipRequest k f z t).2 := by
  unfold clipRequest
  repeat'
    with_reducible first
      | assumption | apply exhaustClip_orderly | apply onClip_orderly | intro _ _ _ | split
      | dsimp only

theorem clipReport_orderly (k : Fin 8) (f : Frame) (r : List ReportEntry) (H : Orderly s t) :
    Orderly s (clipReport k f r t) := by
  unfold clipReport
  repeat'
    with_reducible first
      | assumption | apply completeClip_orderly | apply onClip_orderly | intro _ _ _ | split
      | dsimp only

theorem cleFallback_orderly (H : Orderly s t) : Orderly s (cleFallback t) := by
  unfold cleFallback
  repeat'
    with_reducible first
      | assumption | apply endClip_orderly | apply inFreeOrder_orderly | apply onCle_orderly
      | intro _ _ _

theorem cleHalt_orderly (H : Orderly s t) : Orderly s (cleHalt t) := by
  unfold cleHalt
  repeat'
    with_reducible first
      | assumption | apply endClip_orderly | apply inFreeOrder_orderly | apply onCle_orderly
      | intro _ _ _

theorem cleReset_orderly (H : Orderly s t) : Orderly s (cleReset t) := by
  unfold cleReset
  repeat'
    with_reducible first
      | assumption | apply onCle_orderly

/-! ## Messages (chapter 7) -/

theorem completeOrigin_orderly (m : MessageSlot) (st : Status) (f : Frame) (H : Orderly s t) :
    Orderly s (completeOrigin m st f t) := by
  unfold completeOrigin
  repeat'
    with_reducible first
      | assumption | apply completeCue_orderly | apply triggerResult_orderly | intro _ _ _ | split

theorem completeMessage_orderly (k : Fin 8) (H : Orderly s t) : Orderly s (completeMessage k t) := by
  unfold completeMessage
  repeat'
    with_reducible first
      | assumption | apply completeOrigin_orderly | apply onMessage_orderly
      | apply sourceEvent_orderly

theorem endMessageAt_orderly (st : Status) (f : Frame) (k : Fin 8) (H : Orderly s t) :
    Orderly s (endMessageAt st f k t) := by
  unfold endMessageAt
  repeat'
    with_reducible first
      | assumption | apply completeMessage_orderly | apply onMessage_orderly
      | apply releaseClaims_orderly | intro _ _ _ | split | dsimp only

theorem endMessage_orderly (st : Status) (k : Fin 8) (H : Orderly s t) : Orderly s (endMessage st k t) := by
  unfold endMessage
  repeat'
    with_reducible first
      | assumption | apply endMessageAt_orderly

theorem preemptMessage_orderly (k : Fin 8) (H : Orderly s t) : Orderly s (preemptMessage k t) := by
  unfold preemptMessage
  repeat'
    with_reducible first
      | assumption | apply onMessage_orderly | intro _ _ _ | split

theorem loseMessage_orderly (st : Status) (k : Fin 8) (z : ZoneMask) (H : Orderly s t) :
    Orderly s (loseMessage st k z t) := by
  unfold loseMessage
  repeat'
    with_reducible first
      | assumption | apply endMessage_orderly | apply onMessage_orderly | intro _ _ _ | split
      | dsimp only

theorem runOut_orderly (k : Fin 8) (f : Frame) (H : Orderly s t) : Orderly s (runOut k f t) := by
  unfold runOut
  repeat'
    with_reducible first
      | assumption | apply endMessageAt_orderly | apply onMessage_orderly

theorem countMessage_orderly (f : Frame) (k : Fin 8) (H : Orderly s t) : Orderly s (countMessage f k t) := by
  unfold countMessage
  repeat'
    with_reducible first
      | assumption | apply onMessage_orderly | apply runOut_orderly | intro _ _ _ | split
      | dsimp only

theorem msuFrameStart_orderly (f : Frame) (H : Orderly s t) : Orderly s (msuFrameStart f t) := by
  unfold msuFrameStart
  repeat'
    with_reducible first
      | assumption | apply countMessage_orderly | apply inFreeOrder_orderly | intro _ _ _

theorem messageRequest_orderly (k : Fin 8) (f : Frame) (z : ZoneMask) (H : Orderly s t) :
    Orderly s (messageRequest k f z t).2 := by
  unfold messageRequest
  repeat'
    with_reducible first
      | assumption | apply countMessage_orderly | apply onMessage_orderly | intro _ _ _ | split
      | dsimp only

theorem messageReport_orderly (k : Fin 8) (f : Frame) (r : List ReportEntry) (H : Orderly s t) :
    Orderly s (messageReport k f r t) := by
  unfold messageReport
  repeat'
    with_reducible first
      | assumption | apply completeMessage_orderly | apply onMessage_orderly | intro _ _ _ | split
      | dsimp only

theorem msuHalt_orderly (H : Orderly s t) : Orderly s (msuHalt t) := by
  unfold msuHalt
  repeat'
    with_reducible first
      | assumption | apply endMessage_orderly | apply inFreeOrder_orderly | apply onMsu_orderly
      | intro _ _ _

theorem msuReset_orderly (H : Orderly s t) : Orderly s (msuReset t) := by
  unfold msuReset
  repeat'
    with_reducible first
      | assumption | apply onMsu_orderly

/-! ## Claim requests (R66 to R69) -/

theorem reportPreempted_orderly (w : Option Claimant) (H : Orderly s t) : Orderly s (reportPreempted w t) := by
  unfold reportPreempted
  repeat'
    with_reducible first
      | assumption | apply preemptClip_orderly | apply preemptMessage_orderly | intro _ _ _ | split

theorem reportLost_orderly (st : Status) (w : Claimant) (z : ZoneMask) (H : Orderly s t) :
    Orderly s (reportLost st w z t) := by
  unfold reportLost
  repeat'
    with_reducible first
      | assumption | apply loseClip_orderly | apply loseMessage_orderly | intro _ _ _ | split

theorem placeClaim_orderly (z : Fin 16) (c : Claim) (hlevel : c.LevelOk) (hgroup : c.who.isGroup = false)
    (hroom : ClaimListsFormed t → ∀ e, t.zar.table[z] = some e →
      holdsIn c.who e.claims = false ∧ (nonGroup e.claims).length < 5)
    (H : Orderly s t) : Orderly s (placeClaim z c t) := by
  have hplaced : Orderly s (t.onZar fun a => a.onClaims z (insertClaim c)) := by
    refine onZar_orderly _ (Zar.onClaims_defn _ _ _) (fun h => Zar.Formed.onClaims h.1 fun e he hf => ?_) H
    obtain ⟨hnew, hlen⟩ := hroom h e he
    refine ⟨claimsWf_insertClaim hf.1 (fun hm => ?_) hlevel (fun _ => hlen) (fun hc => ?_), fun d hd g hw => ?_⟩
    · rw [holdsIn_iff.2 hm] at hnew
      cases hnew
    · rw [hgroup] at hc
      cases hc
    · obtain rfl | hd := mem_insertClaim.1 hd
      · rw [hw] at hgroup
        cases hgroup
      · exact hf.2 d hd g hw
  unfold placeClaim
  dsimp only
  split
  · exact reportPreempted_orderly _ hplaced
  · exact hplaced

theorem nonGroup_removeClaim_length_lt {cs : List Claim} {v : Claim} (hv : v ∈ nonGroup cs) :
    (nonGroup (removeClaim v.who cs)).length < (nonGroup cs).length := by
  have hcomm : nonGroup (removeClaim v.who cs) = (nonGroup cs).filter fun c => c.who != v.who := by
    simp only [nonGroup, removeClaim, List.filter_filter, Bool.and_comm]
  rw [hcomm, List.length_filter_lt_length_iff_exists]
  exact ⟨v, hv, by simp⟩

theorem evictable_mem {cs : List Claim} {v : Claim} (h : evictable cs = some v) : v ∈ nonGroup cs := by
  unfold evictable at h
  split at h
  · split at h
    · cases h
    · cases h
      exact List.mem_of_getLast? ‹_›
  · cases h

theorem evictAndPlace_orderly (z : Fin 16) (v c : Claim) (hlevel : c.LevelOk) (hgroup : c.who.isGroup = false)
    {e : ZoneEntry} (he : t.zar.table[z] = some e) (hnew : holdsIn c.who e.claims = false) (hv : v ∈ nonGroup e.claims)
    (H : Orderly s t) : Orderly s (evictAndPlace z v c t) := by
  have hremoved : Orderly s (t.onZar fun a => a.onClaims z (removeClaim v.who)) :=
    onZar_orderly _ (Zar.onClaims_defn _ _ _) (fun h => Zar.Formed.onClaims h.1 fun _ _ hf => hf.filter _) H
  refine reportLost_orderly _ _ _ ?_
  by_cases hform : ClaimListsFormed t
  · refine placeClaim_orderly z c hlevel hgroup (fun _ d hd => ?_) hremoved
    rw [State.onZar_zar, Zar.onClaims_get, if_pos rfl, he, Option.map_some, Option.some.injEq] at hd
    subst hd
    refine ⟨?_, (nonGroup_removeClaim_length_lt hv).trans_le (hform.1 z e he).1.1⟩
    rw [← Bool.not_eq_true, holdsIn_iff] at hnew ⊢
    exact fun hm => hnew ((List.filter_sublist.map _).subset hm)
  · have hsound : Sound s (placeClaim z c (t.onZar fun a => a.onClaims z (removeClaim v.who))) :=
      hremoved.toSound.trans (.of_zar (placeClaim_then z c (.refl _ _) rfl))
    exact ⟨hsound, fun h => absurd (H.claims h) hform⟩

theorem claimZone_orderly (c : Claim) (safety : Bool) (z : Fin 16) (hlevel : c.LevelOk) (hgroup : c.who.isGroup = false)
    (H : Orderly s t) : Orderly s (claimZone c safety z t).2 := by
  unfold claimZone
  split
  · exact H
  · split
    · exact H
    · rename_i e he
      split
      · exact H
      · have hnew : holdsIn c.who e.claims = false := Bool.eq_false_iff.2 ‹_›
        split
        · split
          · split
            · exact evictAndPlace_orderly z _ c hlevel hgroup he hnew (evictable_mem ‹_›) H
            · exact H
          · exact H
        · rename_i hfull
          refine placeClaim_orderly z c hlevel hgroup (fun _ d hd => ?_) H
          rw [he, Option.some.injEq] at hd
          subst hd
          exact ⟨hnew, by simpa [fullList] using hfull⟩

theorem claimZones_orderly (c : Claim) (safety : Bool) (zs : List (Fin 16)) (hlevel : c.LevelOk)
    (hgroup : c.who.isGroup = false) (H : Orderly s t) : Orderly s (claimZones c safety zs t).2 := by
  have hfold : ∀ (zs : List (Fin 16)) (a : ClaimAnswer × State), Orderly s a.2 → Orderly s (zs.foldl (fun acc z =>
      let r := claimZone c safety z acc.2
      (if r.1 then { acc.1 with taken := acc.1.taken ||| zoneBit z }
       else { acc.1 with refused := acc.1.refused ||| zoneBit z }, r.2)) a).2 := by
    intro zs
    induction zs with
    | nil => exact fun _ h => h
    | cons z zs ih => exact fun a h => ih _ (claimZone_orderly c safety z hlevel hgroup h)
  exact hfold zs _ H

theorem claimRequest_orderly (who : Claimant) (level : Nat) (safety : Bool) (zones : ZoneMask)
    (hgroup : who.isGroup = false) (hclip : safety = true → ∀ k, who ≠ .clip k) (H : Orderly s t) :
    Orderly s (claimRequest who level safety zones t).2 := by
  refine claimZones_orderly _ _ _ ⟨fun h => ?_, fun _ => ?_, fun k hk => ?_⟩ hgroup H
  · rw [hgroup] at h
    cases h
  · dsimp only
    split
    · omega
    · simp only [clampNat]
      omega
  · dsimp only
    rw [if_neg fun h => hclip h k hk]
    simp only [clampNat]
    omega

/-! ## Zone sets and layout switches (R60, R62, R129) -/

theorem reportZoneSet_sound (g : Fin 8) (H : Sound s t) : Sound s (reportZoneSet g t) := takeZoneSet_sound g _ H

theorem reportZoneSets_sound (gs : List (Fin 8)) (H : Sound s t) : Sound s (reportZoneSets gs t) :=
  inFreeOrder_sound (inOrder_sound H fun g _ hu => reportZoneSet_sound g hu) fun g _ hu => reportZoneSet_sound g hu

theorem reportZoneSet_zar (g : Fin 8) (s : State) : (reportZoneSet g s).zar = s.zar :=
  reportZoneSet_then (ps := [.sru, .plw, .events, .mem, .free]) g (.refl _ s) rfl .zar rfl

theorem foldl_reportZoneSet (l : List (Fin 8)) (s : State) :
    (l.foldl (fun t g => reportZoneSet g t) s).zar = s.zar ∧
    ∀ g : Fin 8, (l.foldl (fun t g => reportZoneSet g t) s).sru.groups[g].zones =
      if g ∈ l then zoneSetOf s.zar.table g else s.sru.groups[g].zones := by
  induction l generalizing s with
  | nil => exact ⟨rfl, fun g => rfl⟩
  | cons a l ih =>
    obtain ⟨hzar, hzones⟩ := ih (reportZoneSet a s)
    rw [reportZoneSet_zar] at hzar hzones
    refine ⟨hzar, fun g => ?_⟩
    rw [List.foldl_cons, hzones, reportZoneSet, takeZoneSet_zones]
    by_cases hg : g = a
    · subst hg
      simp
    · simp [hg]

/-- Every group of the list has its zone set, and no other group's is reached. -/
theorem reportZoneSets_zones (gs : List (Fin 8)) (s : State) :
    (reportZoneSets gs s).zar = s.zar ∧
    ∀ g : Fin 8, (reportZoneSets gs s).sru.groups[g].zones =
      if g ∈ gs then zoneSetOf s.zar.table g else s.sru.groups[g].zones := by
  obtain ⟨hzar, hzones⟩ := foldl_reportZoneSet (gs.filter fun g => !cutByZoneSet s g) s
  generalize hfirst : (gs.filter fun g => !cutByZoneSet s g).foldl (fun t g => reportZoneSet g t) s = t at hzar hzones
  obtain ⟨hzar', hzones'⟩ := foldl_reportZoneSet (freeOrder t.free (gs.filter (cutByZoneSet s))) t.nextFree
  have heq : reportZoneSets gs s =
      (freeOrder t.free (gs.filter (cutByZoneSet s))).foldl (fun t g => reportZoneSet g t) t.nextFree := by
    rw [← hfirst]
    rfl
  rw [heq]
  refine ⟨hzar'.trans hzar, fun g => ?_⟩
  rw [hzones', State.nextFree_zar, State.nextFree_sru, hzones, hzar]
  simp only [freeOrder_mem, List.mem_filter]
  cases cutByZoneSet s g <;> by_cases hg : g ∈ gs <;> simp [hg]

/-- Ending a working clip releases its claims, and reaches no others. -/
theorem endClip_zar (st : Status) (k : Fin 8) (s : State) : (endClip st k s).zar =
    if s.cle.slots[k].working then s.zar.onAllClaims (removeClaim (.clip k)) else s.zar := by
  unfold endClip
  split
  · dsimp only
    split
    · exact completeClip_then (ps := [.cle, .mem, .events, .etu]) k (.refl _ _) rfl .zar rfl
    · rfl
  · rfl

theorem endMessageAt_zar (st : Status) (f : Frame) (k : Fin 8) (s : State) : (endMessageAt st f k s).zar =
    if s.msu.slots[k].working then s.zar.onAllClaims (removeClaim (.message k)) else s.zar := by
  unfold endMessageAt
  split
  · dsimp only
    split
    · exact completeMessage_then (ps := [.msu, .mem, .events, .etu]) k (.refl _ _) rfl .zar rfl
    · rfl
  · rfl

/-- What a report of lost zones leaves of the claims: all of them, or all but those of the claimant. -/
theorem reportLost_zar (st : Status) (w : Claimant) (lost : ZoneMask) (s : State) :
    (reportLost st w lost s).zar = s.zar ∨ (reportLost st w lost s).zar = s.zar.onAllClaims (removeClaim w) := by
  cases w with
  | clip k =>
    simp only [reportLost, loseClip]
    split
    · split
      · exact .inl rfl
      · rw [endClip_zar]
        split
        · exact .inr rfl
        · exact .inl rfl
    · exact .inl rfl
  | message k =>
    simp only [reportLost, loseMessage]
    split
    · split
      · exact .inl rfl
      · rw [endMessage, endMessageAt_zar]
        split
        · exact .inr rfl
        · exact .inl rfl
    · exact .inl rfl
  | group g => exact .inl rfl

theorem reportLost_sru (st : Status) (w : Claimant) (lost : ZoneMask) (s : State) : (reportLost st w lost s).sru = s.sru :=
  reportLost_then (ps := [.cle, .msu, .zar, .mem, .events, .etu]) st w lost (.refl _ s) rfl .sru rfl

theorem switchTable_get (b : Fin 4) (s : State) (i : Fin 16) : (switchTable b s).zar.table[i] = switchedZone s b i := by
  simp [switchTable]

theorem switchedZone_formed {s : State} (h : s.zar.Formed) (b : Fin 4) (i : Fin 16) {e : ZoneEntry}
    (he : switchedZone s b i = some e) : e.Formed := by
  have hentering : ∀ d : ZoneDef, ZoneEntry.Formed { bank := b, defn := d, claims := enteringClaims s d } := by
    intro d
    unfold enteringClaims
    split
    · rename_i g hg
      split
      · refine ⟨by simp [claimsWf, nonGroup, Claimant.isGroup], fun c hc g' hw => ?_⟩
        rw [List.mem_singleton] at hc
        subst hc
        cases hw
        exact hg
      · exact ⟨claimsWf_nil, fun _ hc => absurd hc List.not_mem_nil⟩
    · exact ⟨claimsWf_nil, fun _ hc => absurd hc List.not_mem_nil⟩
  have hentry : ∀ e, (if b = 0 then none else (bankZone s.zar.banks[b] i).map fun d =>
      ({ bank := b, defn := d, claims := enteringClaims s d } : ZoneEntry)) = some e → e.Formed := by
    intro e he
    split at he
    · cases he
    · obtain ⟨d, -, rfl⟩ := Option.map_eq_some_iff.1 he
      exact hentering d
  unfold switchedZone at he
  dsimp only at he
  split at he
  · rename_i x hx
    split at he
    · cases he
      exact h i _ hx
    · exact hentry e he
  · exact hentry e he

theorem switchLayout_orderly (b : Fin 4) (H : Orderly s t) : Orderly s (switchLayout b t) := by
  refine H.trans ?_
  unfold switchLayout
  split
  · exact .refl t
  · dsimp only
    let lose := fun w u => reportLost .noZone w (lostZones t w) u
    have hswitched : Sound t (switchTable b t) := .of_zar (switchTable_then b (.refl _ _) rfl)
    have hlost : Sound t (inFreeOrder (losers t) lose (switchTable b t)) :=
      inFreeOrder_sound hswitched fun w u hu => hu.trans (reportLost_orderly _ w _ (.refl u)).toSound
    refine ⟨reportZoneSets_sound _ hlost, fun h => ?_⟩
    have htable : (inFreeOrder (losers t) lose (switchTable b t)).zar.Formed ∧
        (inFreeOrder (losers t) lose (switchTable b t)).sru.groups = t.sru.groups := by
      refine inFreeOrder_induct (P := fun u => u.zar.Formed ∧ u.sru.groups = t.sru.groups) ⟨fun i e he => ?_, rfl⟩ fun w _ u hu => ?_
      · rw [State.nextFree_zar, switchTable_get] at he
        exact switchedZone_formed h.1 b i he
      · refine ⟨?_, (congrArg Sru.groups (reportLost_sru .noZone w _ u)).trans hu.2⟩
        obtain hz | hz := reportLost_zar .noZone w (lostZones t w) u
        · rw [show (lose w u).zar = u.zar from hz]
          exact hu.1
        · rw [show (lose w u).zar = _ from hz]
          exact hu.1.onAllClaims fun _ he => he.filter _
    generalize inFreeOrder (losers t) lose (switchTable b t) = u at htable
    obtain ⟨hform, hgroups⟩ := htable
    obtain ⟨hzar, hzones⟩ := reportZoneSets_zones (changedGroups t.zar.table u.zar.table) u
    refine (claimListsFormed_iff _).2 ⟨by rw [hzar]; exact hform, fun g => ?_⟩
    rw [hzones, hzar]
    split
    · rfl
    · rename_i hsame
      rw [hgroups, h.2 g]
      simpa [changedGroups] using hsame

theorem startTable_formed (zs : List ZoneDef) (i : Fin 16) {e : ZoneEntry} (he : (startTable zs)[i] = some e) : e.Formed := by
  have hget : (startTable zs)[i] = (bankZone zs i).map fun d => { bank := 0, defn := d, claims := [] } := by
    simp [startTable]
  obtain ⟨d, -, rfl⟩ := Option.map_eq_some_iff.1 (hget.symm.trans he)
  exact ⟨claimsWf_nil, fun _ hc => absurd hc List.not_mem_nil⟩

theorem reportAllZoneSets_orderly (hform : t.zar.Formed) (H : Sound s t) :
    Orderly s (reportZoneSets (List.finRange 8) t) := by
  obtain ⟨hzar, hzones⟩ := reportZoneSets_zones (List.finRange 8) t
  refine ⟨reportZoneSets_sound _ H, fun _ => (claimListsFormed_iff _).2 ⟨?_, fun g => ?_⟩⟩
  · rw [hzar]
    exact hform
  · rw [hzones, if_pos (List.mem_finRange g), hzar]

theorem loadCommon_orderly (zs : List ZoneDef) (H : Orderly s t) : Orderly s (loadCommon zs t) := by
  unfold loadCommon
  refine reportAllZoneSets_orderly (fun i e he => startTable_formed zs i he) (H.toSound.trans (.of_zar ?_))
  exact onZar_then _ (setBank_then 0 zs (.refl _ t) rfl) rfl

end Sys2Proof.Machine
end

section
/-! SUPPORT. The takes, the triggers, the clocks, the scan, the compositor, the frame timing and the show memory port: each
keeps the invariants, and writes show memory only under an anchor in force. -/

namespace Sys2Proof.Machine

variable {s t : State}

/-! ## Taking and withdrawing (chapters 6 and 7) -/

theorem takeClip_orderly (ho : Handover) (r : RunSlots) (p : ClipPayload) (H : Orderly s t) :
    Orderly s (takeClip ho r p t).2 := by
  have hrequest : ∀ k, Orderly s (claimRequest (.clip k) p.level.toNat false p.zones t).2 := fun k =>
    claimRequest_orderly _ _ _ _ rfl (fun h => nomatch h) H
  unfold takeClip
  repeat'
    with_reducible first
      | assumption | apply onClip_orderly | exact hrequest _ | split | dsimp only

theorem repost_orderly (k : Fin 8) (ho : Handover) (p : MessagePayload) (H : Orderly s t) :
    Orderly s (repost k ho p t) := by
  unfold repost
  repeat'
    with_reducible first
      | assumption | apply completeOrigin_orderly | apply onMessage_orderly

theorem takeMessage_orderly (ho : Handover) (r : RunSlots) (p : MessagePayload) (H : Orderly s t) :
    Orderly s (takeMessage ho r p t).2 := by
  have hrequest : ∀ k, Orderly s (claimRequest (.message k) p.level.toNat (p.cls == 1) p.zones t).2 := fun k =>
    claimRequest_orderly _ _ _ _ rfl (fun _ _ h => nomatch h) H
  unfold takeMessage
  repeat'
    with_reducible first
      | assumption | apply onMessage_orderly | apply repost_orderly | exact hrequest _ | split
      | dsimp only

theorem withdrawClip_orderly (tag : Tag) (r : RunSlots) (H : Orderly s t) : Orderly s (withdrawClip tag r t).2.2 := by
  unfold withdrawClip
  repeat'
    with_reducible first
      | assumption | apply endClip_orderly | intro _ _ _ | split

theorem withdrawMessage_orderly (tag : Tag) (r : RunSlots) (H : Orderly s t) :
    Orderly s (withdrawMessage tag r t).2.2 := by
  unfold withdrawMessage
  repeat'
    with_reducible first
      | assumption | apply endMessage_orderly | intro _ _ _ | split

/-! ## Event triggers (chapter 11) -/

theorem recordTaking_orderly (e : Fin 8) (tk : Taking) (H : Orderly s t) : Orderly s (recordTaking e tk t) := by
  unfold recordTaking
  repeat'
    with_reducible first
      | assumption | apply onTrigger_orderly | apply writeReport_orderly

theorem armTrigger_orderly (e : Fin 8) (c : TriggerSource) (b : Bool) (a : TriggerAction) (H : Orderly s t) :
    Orderly s (armTrigger e c b a t) := by
  unfold armTrigger
  repeat'
    with_reducible first
      | assumption | apply onTrigger_orderly | apply writeReport_orderly

theorem disarmTrigger_orderly (e : Fin 8) (H : Orderly s t) : Orderly s (disarmTrigger e t) := by
  unfold disarmTrigger
  repeat'
    with_reducible first
      | assumption | apply onTrigger_orderly | intro _ _ _ | split

theorem handAction_orderly (e : Fin 8) (H : Orderly s t) : Orderly s (handAction e t).2 := by
  unfold handAction
  repeat'
    with_reducible first
      | assumption | apply takeClip_orderly | apply takeMessage_orderly | intro _ _ _ | split

theorem fireTrigger_orderly (f : Frame) (e : Fin 8) (H : Orderly s t) : Orderly s (fireTrigger f e t) := by
  unfold fireTrigger
  repeat'
    with_reducible first
      | assumption | apply handAction_orderly | apply onTrigger_orderly | apply recordTaking_orderly

theorem dropFiring_orderly (e : Fin 8) (H : Orderly s t) : Orderly s (dropFiring e t) := by
  unfold dropFiring
  repeat'
    with_reducible first
      | assumption | apply onTrigger_orderly | apply writeReport_orderly

theorem takeInbox_orderly (H : Orderly s t) : Orderly s (takeInbox t) := by
  unfold takeInbox
  repeat'
    with_reducible first
      | assumption | apply inOrder_orderly | apply onEtu_orderly | apply takeSource_orderly
      | intro _ _ _

theorem etuFrameStart_orderly (f : Frame) (H : Orderly s t) : Orderly s (etuFrameStart f t) := by
  unfold etuFrameStart
  repeat'
    with_reducible first
      | assumption | apply dropFiring_orderly | apply fireTrigger_orderly | apply inOrder_orderly
      | apply onEtu_orderly | apply takeInbox_orderly | intro _ _ _ | split

theorem etuReset_orderly (H : Orderly s t) : Orderly s (etuReset t) := by
  unfold etuReset
  repeat'
    with_reducible first
      | assumption | apply onEtu_orderly

/-! ## Clock channels (chapter 10) -/

theorem Channel.Bounded.load {c : Channel} (h : c.Bounded) : c.load.Bounded := by
  obtain ⟨-, hpreset, hpending⟩ := h
  unfold Channel.load
  split
  · rename_i hmode
    exact ⟨by simp only [Channel.ceiling, hmode]; exact hpreset, hpreset, hpending⟩
  · exact ⟨Nat.zero_le _, hpreset, hpending⟩

theorem Channel.Bounded.takePreset {c : Channel} (h : c.Bounded) : c.takePreset.Bounded := by
  obtain ⟨hcount, hpreset, hpending⟩ := h
  refine ⟨hcount, ?_, fun _ hp => nomatch hp⟩
  simp only [Channel.takePreset]
  cases hp : c.pendingPreset with
  | none => exact hpreset
  | some p => exact hpending p hp

theorem Channel.Bounded.step {c : Channel} (h : c.Bounded) : c.step.Bounded := by
  obtain ⟨hcount, hpreset, hpending⟩ := h
  unfold Channel.step
  split
  · exact ⟨(Nat.sub_le _ _).trans hcount, hpreset, hpending⟩
  · rename_i hmode
    refine ⟨?_, hpreset, hpending⟩
    have hceiling : ∀ n, ({ c with count := n } : Channel).ceiling = c.limit := by
      intro n
      unfold Channel.ceiling
      split
      · exact absurd ‹_› hmode
      · rfl
    rw [hceiling]
    exact Nat.min_le_left _ _

theorem Channel.Bounded.expire {c : Channel} (h : c.Bounded) : c.expire.Bounded := by
  unfold Channel.expire
  dsimp only
  have hcounted : ({ c with expiries := c.expiries + 1 } : Channel).Bounded := h
  split
  · exact hcounted.takePreset.load
  · exact hcounted

theorem Channel.Bounded.applyRequests {c : Channel} (h : c.Bounded) : c.applyRequests.Bounded := by
  have hreset : c.applyReset.Bounded := by
    unfold Channel.applyReset
    split
    · exact h.takePreset.load
    · exact h
  have hrun : c.applyReset.applyRun.Bounded := by
    unfold Channel.applyRun
    split
    · exact hreset
    · split <;> exact hreset
  exact hrun

theorem Channel.Bounded.adjusted {c : Channel} (h : c.Bounded) (delta : Int) :
    ({ c with count := c.adjusted delta, state := .stopped } : Channel).Bounded := by
  obtain ⟨-, hpreset, hpending⟩ := h
  exact ⟨Nat.min_le_left _ _, hpreset, hpending⟩

theorem Channel.configured_bounded (c : Channel) (mode : ClockMode) (auto : Bool) (p : ClockSetPayload)
    (hpreset : p.preset.toNat ≤ Config.ceilingDown) : (c.configured mode auto p).Bounded := by
  unfold Channel.configured Channel.load
  dsimp only
  split
  · exact ⟨by simp only [Channel.ceiling]; exact hpreset, hpreset, fun _ hp => nomatch hp⟩
  · exact ⟨Nat.zero_le _, hpreset, fun _ hp => nomatch hp⟩

theorem gather_orderly (c : Fin 4) {f : Channel → Channel} (hf : f = Channel.gatherStart ∨ f = Channel.gatherStop ∨
    f = Channel.gatherReset) (H : Orderly s t) : Orderly s (onChannel c f t) := by
  refine onChannel_orderly c f (fun h => ?_) H
  obtain rfl | rfl | rfl := hf <;> exact h

theorem expireChannel_orderly (c : Fin 4) (H : Orderly s t) : Orderly s (expireChannel c t) := by
  have hexpired := raise_orderly .clockExpiry (onChannel_orderly c Channel.expire Channel.Bounded.expire H)
  unfold expireChannel
  dsimp only
  refine sourceEvent_orderly _ ?_
  split
  · exact onCcu_orderly _ rfl hexpired
  · exact hexpired

theorem expireChain_orderly (n : Nat) (c : Fin 4) (H : Orderly s t) : Orderly s (expireChain n c t) := by
  induction n generalizing c t with
  | zero => exact expireChannel_orderly c H
  | succ n ih =>
    unfold expireChain
    refine inOrder_orderly (expireChannel_orderly c H) fun d u hu => ?_
    have hstepped := onChannel_orderly d Channel.step Channel.Bounded.step hu
    dsimp only
    split
    · split
      · exact ih d hstepped
      · exact hstepped
    · exact hu

theorem withHorn_orderly {act : State → State} {rest : Nat → Nat} (hact : ∀ u, Orderly s u → Orderly s (act u))
    (H : Orderly s t) : Orderly s (withHorn act rest t) := by
  have hacted := hact _ (onCcu_orderly (fun u => { u with horn := 0 }) rfl H)
  unfold withHorn
  dsimp only
  split
  · exact onCcu_orderly _ rfl hacted
  · exact hacted

theorem countChannel_orderly (c : Fin 4) (H : Orderly s t) : Orderly s (countChannel c t) := by
  have hstepped := onChannel_orderly c Channel.step Channel.Bounded.step H
  unfold countChannel
  dsimp only
  split
  · split
    · split
      · exact expireChain_orderly 3 c (nextFree_orderly H)
      · exact nextFree_orderly H
    · split
      · exact expireChain_orderly 3 c hstepped
      · exact hstepped
  · exact H

theorem pressLine_orderly (n : Fin 8) (H : Orderly s t) : Orderly s (pressLine n t) := by
  unfold pressLine
  dsimp only
  split
  · exact H
  · exact gather_orderly _ (.inl rfl) H
  · exact gather_orderly _ (.inr (.inl rfl)) H
  · split
    · exact gather_orderly _ (.inr (.inl rfl)) H
    · exact gather_orderly _ (.inl rfl) H
  · exact gather_orderly _ (.inr (.inr rfl)) H
  · exact onLine_orderly _ _ H
  · exact H

theorem qualifyLine_orderly (n : Fin 8) (H : Orderly s t) : Orderly s (qualifyLine n t) := by
  unfold qualifyLine
  repeat'
    with_reducible first
      | assumption | apply onLine_orderly | apply pressLine_orderly | apply sourceEvent_orderly
      | intro _ _ _ | split | dsimp only

theorem sampleLine_orderly (n : Fin 8) (H : Orderly s t) : Orderly s (sampleLine n t) := by
  unfold sampleLine
  repeat'
    with_reducible first
      | assumption | apply onLine_orderly | apply qualifyLine_orderly

theorem applyRequests_orderly (H : Orderly s t) :
    Orderly s (t.onCcu fun u => { u with channels := u.channels.map Channel.applyRequests }) :=
  H.trans
    { wf := id, guard := fun h => ⟨h, rfl⟩, hold := id, balances := id, delivered := id, claims := id
      clocks := fun h c => by
        have hget : (t.ccu.channels.map Channel.applyRequests)[c] = t.ccu.channels[c].applyRequests := by simp
        have hbounded : (t.ccu.channels.map Channel.applyRequests)[c].Bounded := by
          rw [hget]
          exact Channel.Bounded.applyRequests (h c)
        exact hbounded }

theorem millisecond_orderly (H : Orderly s t) : Orderly s (millisecond t) :=
  inOrder_orderly (applyRequests_orderly (withHorn_orderly (fun _ hu => inOrder_orderly hu fun c _ hv =>
    countChannel_orderly c hv) H)) fun n _ hu => sampleLine_orderly n hu

theorem writeClockSnapshot_orderly (H : Orderly s t) : Orderly s (writeClockSnapshot t) := by
  unfold writeClockSnapshot
  repeat'
    with_reducible first
      | assumption | apply anchorWrite_orderly

theorem setClock_orderly (p : ClockSetPayload) (H : Orderly s t) : Orderly s (setClock p t).2 := by
  unfold setClock
  split
  · rename_i c mode auto _ _ _
    split
    · exact H
    · have hpreset : p.preset.toNat ≤ Config.ceilingDown := Nat.le_of_not_lt ‹_›
      repeat' split
      all_goals first | exact H | skip
      · exact onChannel_orderly c _ (fun h => ⟨h.1, h.2.1, fun q hq => by cases hq; exact hpreset⟩) H
      · exact onChannel_orderly c _ (fun _ => Channel.configured_bounded _ _ _ _ hpreset) H
  · exact H

theorem runStart_orderly (c : Fin 4) (H : Orderly s t) : Orderly s (runStart c t).2 := by
  unfold runStart
  split
  · exact H
  · exact gather_orderly c (.inl rfl) H

theorem runAdjust_orderly (c : Fin 4) (d : Int) (H : Orderly s t) : Orderly s (runAdjust c d t).2 := by
  unfold runAdjust
  split
  · exact H
  · exact onChannel_orderly c _ (fun h => h.adjusted d) H

theorem runClock_orderly (c a : BitVec 8) (d : Word) (H : Orderly s t) : Orderly s (runClock c a d t).2 := by
  unfold runClock
  split
  · exact H
  · split
    · exact runStart_orderly _ H
    · exact gather_orderly _ (.inr (.inl rfl)) H
    · exact gather_orderly _ (.inr (.inr rfl)) H
    · exact runAdjust_orderly _ _ H
    · exact H

theorem setConsole_orderly (p : ConsolePayload) (H : Orderly s t) : Orderly s (setConsole p t).2 := by
  unfold setConsole
  repeat'
    with_reducible first
      | assumption | apply onLine_orderly | intro _ _ _ | split

theorem setLevels_orderly (l : BitVec 8) (H : Orderly s t) : Orderly s (setLevels l t) := onCcu_orderly _ rfl H

/-! ## Cue intake (chapter 3) -/

theorem withdrawTrigger_orderly (e : BitVec 8) (H : Orderly s t) : Orderly s (withdrawTrigger e t).2 := by
  unfold withdrawTrigger
  repeat'
    with_reducible first
      | assumption | apply disarmTrigger_orderly | intro _ _ _ | split

theorem takeWithdraw_orderly (tgt e : BitVec 8) (g : Tag) (r : RunSlots) (H : Orderly s t) :
    Orderly s (takeWithdraw tgt e g r t).2.2 := by
  unfold takeWithdraw
  repeat'
    with_reducible first
      | assumption | apply withdrawClip_orderly | apply withdrawMessage_orderly
      | apply withdrawTrigger_orderly | intro _ _ _ | split

theorem takeLoadLayout_orderly (b : BitVec 8) (o : Word) (H : Orderly s t) : Orderly s (takeLoadLayout b o t).2 := by
  unfold takeLoadLayout takeChecked
  repeat'
    with_reducible first
      | assumption | apply setBank_orderly | intro _ _ _ | split

theorem takeSelectLayout_orderly (b : BitVec 8) (H : Orderly s t) : Orderly s (takeSelectLayout b t).2 := by
  unfold takeSelectLayout takeChecked
  repeat'
    with_reducible first
      | assumption | apply switchLayout_orderly | intro _ _ _ | split

theorem takeSponsorWrite_orderly (e : BitVec 8) (o : Word) (H : Orderly s t) :
    Orderly s (takeSponsorWrite e o t).2 := by
  unfold takeSponsorWrite takeChecked
  repeat'
    with_reducible first
      | assumption | apply writeEntry_orderly | intro _ _ _ | split

theorem takeActivate_orderly (e : BitVec 8) (H : Orderly s t) : Orderly s (takeActivate e t).2 := by
  unfold takeActivate takeChecked
  repeat'
    with_reducible first
      | assumption | apply activateEntry_orderly | intro _ _ _ | split

theorem takeRetire_orderly (e : BitVec 8) (H : Orderly s t) : Orderly s (takeRetire e t).2 := by
  unfold takeRetire takeChecked
  repeat'
    with_reducible first
      | assumption | apply retireEntry_orderly | intro _ _ _ | split

theorem takeSponsorState_orderly (e a : BitVec 8) (H : Orderly s t) : Orderly s (takeSponsorState e a t).2 := by
  unfold takeSponsorState
  repeat'
    with_reducible first
      | assumption | apply takeActivate_orderly | apply takeRetire_orderly | intro _ _ _ | split

theorem takeEnable_orderly (g : BitVec 8) (H : Orderly s t) : Orderly s (takeEnable g t).2 := by
  unfold takeEnable takeChecked
  repeat'
    with_reducible first
      | assumption | apply enableGroup_orderly | intro _ _ _ | split

theorem takeDisable_orderly (g : BitVec 8) (H : Orderly s t) : Orderly s (takeDisable g t).2 := by
  unfold takeDisable takeChecked
  repeat'
    with_reducible first
      | assumption | apply disableGroup_orderly | intro _ _ _ | split

theorem takeGroupSet_orderly (g a : BitVec 8) (H : Orderly s t) : Orderly s (takeGroupSet g a t).2 := by
  unfold takeGroupSet
  repeat'
    with_reducible first
      | assumption | apply takeDisable_orderly | apply takeEnable_orderly | intro _ _ _ | split

theorem takeGroupClear_orderly (g : BitVec 8) (H : Orderly s t) : Orderly s (takeGroupClear g t).2 := by
  unfold takeGroupClear takeChecked
  repeat'
    with_reducible first
      | assumption | apply clearGroup_orderly | intro _ _ _ | split

theorem takeTriggerArm_orderly (p : Payload) (H : Orderly s t) : Orderly s (takeTriggerArm p t).2 := by
  unfold takeTriggerArm takeChecked
  repeat'
    with_reducible first
      | assumption | apply armTrigger_orderly | intro _ _ _ | split

theorem takeTriggerDisarm_orderly (e : BitVec 8) (H : Orderly s t) : Orderly s (takeTriggerDisarm e t).2 := by
  unfold takeTriggerDisarm takeChecked
  repeat'
    with_reducible first
      | assumption | apply disarmTrigger_orderly | intro _ _ _ | split

theorem writeTaking_orderly (i : Nat) (l : Bool) (tk : Taking) (H : Orderly s t) :
    Orderly s (writeTaking i l tk t) := by
  unfold writeTaking
  repeat'
    with_reducible first
      | assumption | apply writeCue_orderly | apply writeDone_orderly | intro _ _ _ | split

theorem actMember_orderly (m : Member) (r : RunSlots) (H : Orderly s t) : Orderly s (actMember m r t).2.2 := by
  unfold actMember takeStatus
  repeat'
    with_reducible first
      | assumption | apply runClock_orderly | apply setClock_orderly | apply setConsole_orderly
      | apply takeClip_orderly | apply takeGroupClear_orderly | apply takeGroupSet_orderly
      | apply takeLoadLayout_orderly | apply takeMessage_orderly | apply takeSelectLayout_orderly
      | apply takeSponsorState_orderly | apply takeSponsorWrite_orderly
      | apply takeTriggerArm_orderly | apply takeTriggerDisarm_orderly | apply takeWithdraw_orderly
      | intro _ _ _ | split

theorem takeSingle_orderly (m : Member) (H : Orderly s t) : Orderly s (takeSingle m t) := by
  unfold takeSingle
  repeat'
    with_reducible first
      | assumption | apply actMember_orderly | apply writeTaking_orderly

theorem writeRefusedRun_orderly (ms : List Member) (i : Nat) (tk : Taking) (H : Orderly s t) :
    Orderly s (writeRefusedRun ms i tk t) := by
  unfold writeRefusedRun
  repeat'
    with_reducible first
      | assumption | apply inOrder_orderly | apply writeTaking_orderly | intro _ _ _

theorem actRun_orderly (ms : List Member) (r : RunSlots) {s u : State} (h : actRun ms r s = .ok u) : Orderly s u := by
  induction ms generalizing r s with
  | nil =>
    simp only [actRun, Except.ok.injEq] at h
    rw [h]
    exact .refl _
  | cons m ms ih =>
    unfold actRun at h
    dsimp only at h
    split at h
    · cases h
    · exact (writeTaking_orderly _ _ _ (actMember_orderly m r (.refl s))).trans (ih _ h)

theorem handleRun_orderly (ms : List Member) (H : Orderly s t) : Orderly s (handleRun ms t) := by
  unfold handleRun
  split
  · exact H.trans (actRun_orderly ms _ ‹_›)
  · exact writeRefusedRun_orderly _ _ _ H

theorem moveScan_orderly (n : Nat) (H : Orderly s t) : Orderly s (moveScan n t) := by
  unfold moveScan
  repeat'
    with_reducible first
      | assumption | apply onCiu_orderly

theorem setRefusing_orderly (b : Bool) (H : Orderly s t) : Orderly s (setRefusing b t) := by
  unfold setRefusing
  repeat'
    with_reducible first
      | assumption | apply onCiu_orderly

theorem refuseTooLong_orderly (i : Nat) (r : CueRecord) (H : Orderly s t) : Orderly s (refuseTooLong i r t) := by
  unfold refuseTooLong
  repeat'
    with_reducible first
      | assumption | apply moveScan_orderly | apply setRefusing_orderly | apply writeTaking_orderly
      | intro _ _ _ | split

theorem scanStep_orderly (b : Nat) (r : Nat × State) {s : State} (h : scanStep b s = some r) : Orderly s r.2 := by
  unfold scanStep at h
  dsimp only at h
  repeat' split at h
  all_goals first | cases h
  · exact refuseTooLong_orderly _ _ (.refl s)
  · exact setRefusing_orderly _ (.refl s)
  · exact moveScan_orderly _ (handleRun_orderly _ (.refl s))
  · exact moveScan_orderly _ (takeSingle_orderly _ (.refl s))

theorem scanFuel_orderly (n b : Nat) (H : Orderly s t) : Orderly s (scanFuel n b t).2 := by
  induction n generalizing b t with
  | zero => exact H
  | succ n ih =>
    unfold scanFuel
    split
    · exact H
    · exact ih _ (H.trans (scanStep_orderly b _ ‹_›))

theorem scan_orderly (H : Orderly s t) : Orderly s (scan t) := by
  unfold scan
  repeat'
    with_reducible first
      | assumption | apply anchorWrite_orderly | apply scanFuel_orderly | intro _ _ _ | split
      | dsimp only

theorem ciuFrameStart_orderly (H : Orderly s t) : Orderly s (ciuFrameStart t) := by
  unfold ciuFrameStart
  repeat'
    with_reducible first
      | assumption | apply scan_orderly | intro _ _ _ | split

theorem ciuHandling_orderly (levels : BitVec 8) (H : Orderly s t) : Orderly s (ciuHandling levels t) := by
  unfold ciuHandling
  repeat'
    with_reducible first
      | assumption | apply ciuFrameStart_orderly | apply setLevels_orderly | apply onCiu_orderly
      | intro _ _ _ | split

theorem ciuReset_orderly (H : Orderly s t) : Orderly s (ciuReset t) := by
  unfold ciuReset
  repeat'
    with_reducible first
      | assumption | apply onCiu_orderly

/-! ## Compositor (chapter 5) -/

theorem reportLinks_orderly (H : Orderly s t) : Orderly s (reportLinks t) := by
  unfold reportLinks
  repeat'
    with_reducible first
      | assumption | apply anchorWrite_orderly | apply raise_orderly

theorem closeLinks_orderly (H : Orderly s t) : Orderly s (closeLinks t) := by
  unfold closeLinks
  repeat'
    with_reducible first
      | assumption | apply onClo_orderly | apply reportLinks_orderly | intro _ _ _ | split
      | dsimp only

theorem answerLink_orderly (n : Fin 4) (H : Orderly s t) : Orderly s (answerLink n t) := by
  unfold answerLink
  repeat'
    with_reducible first
      | assumption | apply onLink_orderly | apply reportLinks_orderly | intro _ _ _ | split

theorem issueReport_orderly (f : Frame) (r : List ReportEntry) (w : Claimant) (H : Orderly s t) :
    Orderly s (issueReport f r w t) := by
  unfold issueReport
  repeat'
    with_reducible first
      | assumption | apply clipReport_orderly | apply groupReport_orderly
      | apply messageReport_orderly | intro _ _ _ | split

theorem closeAndReport_orderly (H : Orderly s t) : Orderly s (closeAndReport t) := by
  unfold closeAndReport
  repeat'
    with_reducible first
      | assumption | apply closeLinks_orderly | apply inFreeOrder_orderly
      | apply issueReport_orderly | apply onClo_orderly | intro _ _ _ | split | dsimp only

theorem contentRequest_orderly (f : Frame) (z : ZoneMask) (w : Claimant) (H : Orderly s t) :
    Orderly s (contentRequest f z w t).2 := by
  unfold contentRequest
  repeat'
    with_reducible first
      | assumption | apply clipRequest_orderly | apply groupRequest_orderly
      | apply messageRequest_orderly | intro _ _ _ | split

theorem askAll_orderly (f : Frame) (v : List ViewEntry) (ws : List Claimant) (H : Orderly s t) :
    Orderly s (askAll f v ws t).2 := by
  have hfold : ∀ (ws : List Claimant) (a : List (Claimant × Answer) × State), Orderly s a.2 →
      Orderly s (ws.foldl (fun acc w =>
        let r := contentRequest f (headedZones v w) w acc.2
        (acc.1 ++ [(w, r.1)], r.2)) a).2 := by
    intro ws
    induction ws with
    | nil => exact fun _ h => h
    | cons w ws ih => exact fun a h => ih _ (contentRequest_orderly f _ w h)
  exact hfold ws _ H

theorem viewAndCompose_orderly (f : Frame) (H : Orderly s t) : Orderly s (viewAndCompose f t) := by
  unfold viewAndCompose
  repeat'
    with_reducible first
      | assumption | apply askAll_orderly | apply nextFree_orderly | apply onClo_orderly
      | intro _ _ _ | split

theorem cloFrameStart_orderly (f : Frame) (H : Orderly s t) : Orderly s (cloFrameStart f t) := by
  unfold cloFrameStart
  repeat'
    with_reducible first
      | assumption | apply closeAndReport_orderly | apply viewAndCompose_orderly

theorem cloReset_orderly (H : Orderly s t) : Orderly s (cloReset t) := by
  unfold cloReset
  repeat'
    with_reducible first
      | assumption | apply onClo_orderly

/-! ## Frame timing (chapter 2) -/

theorem deliver_orderly (H : Orderly s t) : Orderly s (deliver t) := H.trans (.of_same rfl rfl rfl rfl rfl rfl rfl)

theorem writeReference_orderly (H : Orderly s t) : Orderly s (writeReference t) := by
  unfold writeReference
  repeat'
    with_reducible first
      | assumption | apply anchorWrite_orderly

theorem reportLock_orderly (H : Orderly s t) : Orderly s (reportLock t) := by
  unfold reportLock
  repeat'
    with_reducible first
      | assumption | apply raise_orderly | apply writeReference_orderly

theorem enterFree_orderly (H : Orderly s t) : Orderly s (enterFree t) := by
  unfold enterFree
  repeat'
    with_reducible first
      | assumption | apply onFtu_orderly | apply reportLock_orderly

theorem enterAcquiring_orderly (H : Orderly s t) : Orderly s (enterAcquiring t) := by
  unfold enterAcquiring
  repeat'
    with_reducible first
      | assumption | apply onFtu_orderly | apply reportLock_orderly

theorem readSettings_orderly (H : Orderly s t) : Orderly s (readSettings t) := by
  unfold readSettings
  repeat'
    with_reducible first
      | assumption | apply onFtu_orderly

theorem actOnEnable_orderly (H : Orderly s t) : Orderly s (actOnEnable t) := by
  unfold actOnEnable
  repeat'
    with_reducible first
      | assumption | apply enterAcquiring_orderly | apply enterFree_orderly | intro _ _ _ | split

theorem markKeptEntry_orderly (H : Orderly s t) : Orderly s (markKeptEntry t) := onFtu_orderly _ H

theorem settingsAtStart_orderly (H : Orderly s t) : Orderly s (settingsAtStart t) := by
  unfold settingsAtStart
  repeat'
    with_reducible first
      | assumption | apply actOnEnable_orderly | apply readSettings_orderly
      | apply markKeptEntry_orderly | intro _ _ _ | split

theorem scheduleByPeriod_orderly (H : Orderly s t) : Orderly s (scheduleByPeriod t) := by
  unfold scheduleByPeriod
  repeat'
    with_reducible first
      | assumption | apply onFtu_orderly

theorem beginFrame_orderly (tick : Nat) (H : Orderly s t) : Orderly s (beginFrame tick t) := by
  unfold beginFrame
  repeat'
    with_reducible first
      | assumption | apply anchorWrite_orderly | apply deliver_orderly | apply onFtu_orderly
      | apply settingsAtStart_orderly

theorem placeAfterIssue_orderly (H : Orderly s t) : Orderly s (placeAfterIssue t) := by
  unfold placeAfterIssue
  repeat'
    with_reducible first
      | assumption | apply scheduleByPeriod_orderly | intro _ _ _ | split

theorem issueAt_orderly (tick : Nat) (H : Orderly s t) : Orderly s (issueAt tick t) := by
  unfold issueAt
  repeat'
    with_reducible first
      | assumption | apply beginFrame_orderly | apply placeAfterIssue_orderly

theorem placeByPeriod_orderly (tick : Nat) (H : Orderly s t) : Orderly s (placeByPeriod tick t) := by
  unfold placeByPeriod
  repeat'
    with_reducible first
      | assumption | apply issueAt_orderly | apply scheduleByPeriod_orderly | intro _ _ _ | split

theorem frameStart_orderly (H : Orderly s t) : Orderly s (frameStart t) := by
  unfold frameStart
  repeat'
    with_reducible first
      | assumption | apply issueAt_orderly | apply onFtu_orderly | intro _ _ _ | split

theorem propose_orderly (e : Nat) (H : Orderly s t) : Orderly s (propose e t) := by
  unfold propose
  repeat'
    with_reducible first
      | assumption | apply issueAt_orderly | apply onFtu_orderly | intro _ _ _ | split | dsimp only

theorem enterLocked_orderly (e : Nat) (H : Orderly s t) : Orderly s (enterLocked e t) := by
  unfold enterLocked
  repeat'
    with_reducible first
      | assumption | apply onFtu_orderly | apply propose_orderly | apply reportLock_orderly

theorem edgeAcquiring_orderly (e : Nat) (H : Orderly s t) : Orderly s (edgeAcquiring e t) := by
  unfold edgeAcquiring
  repeat'
    with_reducible first
      | assumption | apply enterLocked_orderly | apply onFtu_orderly | apply writeReference_orderly
      | intro _ _ _ | split | dsimp only

theorem edgeLocked_orderly (e : Nat) (H : Orderly s t) : Orderly s (edgeLocked e t) := by
  unfold edgeLocked
  repeat'
    with_reducible first
      | assumption | apply enterAcquiring_orderly | apply onFtu_orderly
      | apply placeByPeriod_orderly | apply propose_orderly | apply writeReference_orderly
      | intro _ _ _ | split | dsimp only

theorem referenceEdge_orderly (e : Nat) (H : Orderly s t) : Orderly s (referenceEdge e t) := by
  unfold referenceEdge
  repeat'
    with_reducible first
      | assumption | apply edgeAcquiring_orderly | apply edgeLocked_orderly
      | apply enterAcquiring_orderly | apply placeByPeriod_orderly | intro _ _ _ | split

theorem reachTick_orderly (tick : Nat) (H : Orderly s t) : Orderly s (reachTick tick t) := by
  unfold reachTick
  repeat'
    with_reducible first
      | assumption | apply onFtu_orderly

theorem enterHoldover_orderly (H : Orderly s t) : Orderly s (enterHoldover t) := by
  unfold enterHoldover
  repeat'
    with_reducible first
      | assumption | apply onFtu_orderly | apply placeByPeriod_orderly | apply reportLock_orderly

theorem reachPresent_orderly (H : Orderly s t) : Orderly s (reachPresent t) := reachTick_orderly _ (nextFree_orderly H)

theorem ftuReset_orderly (H : Orderly s t) : Orderly s (ftuReset t) := by
  unfold ftuReset
  repeat'
    with_reducible first
      | assumption | apply onFtu_orderly | apply placeByPeriod_orderly

/-! ## Show memory port (chapter 1) -/

/-- A change of the port's own state that brings no anchor into force. -/
theorem onSmp_orderly (f : Smp → Smp) (hf : t.smp.inForce = false → (f t.smp).inForce = false) (H : Orderly s t) :
    Orderly s (t.onSmp f) :=
  H.trans
    { wf := id, guard := fun h => ⟨hf h, rfl⟩, clocks := id, hold := id, balances := id, delivered := id, claims := id }

theorem setDev_orderly (d : DevState) (H : Orderly s t) : Orderly s (setDev d t) :=
  anchorWrite_orderly _ _ (onSmp_orderly _ id H)

theorem takeBackEntry_orderly (H : Orderly s t) : Orderly s (takeBackEntry t) := by
  unfold takeBackEntry
  split
  · split
    · exact writeReference_orderly (onSmp_orderly _ id (onFtu_orderly _ H))
    · exact H
  · exact H

theorem settingsAtSuccess_orderly (H : Orderly s t) : Orderly s (settingsAtSuccess t) := by
  unfold settingsAtSuccess
  repeat'
    with_reducible first
      | assumption | apply onFtu_orderly | apply placeByPeriod_orderly | apply actOnEnable_orderly
      | apply takeBackEntry_orderly | apply readSettings_orderly | intro _ _ _ | split | dsimp only

theorem writePartArea_orderly (H : Orderly s t) : Orderly s (writePartArea t) := anchorWrite_orderly _ _ H

theorem haltDevice_orderly (H : Orderly s t) : Orderly s (haltDevice t) :=
  sruHalt_orderly (msuHalt_orderly (cleHalt_orderly (removeAllClaims_orderly (setDev_orderly _ H))))

theorem endAnchor_orderly (H : Orderly s t) : Orderly s (endAnchor t) := onSmp_orderly _ (fun _ => rfl) H

theorem writeAnchorRegister_orderly (v : Word) (H : Orderly s t) : Orderly s (writeAnchorRegister v t) := by
  unfold writeAnchorRegister
  split
  · exact endAnchor_orderly (onSmp_orderly _ id H)
  · exact H

theorem enterStarting_orderly (H : Orderly s t) : Orderly s (enterStarting t) :=
  setDev_orderly _ (onSmp_orderly _ id (endAnchor_orderly H))

theorem abandonStart_orderly (H : Orderly s t) : Orderly s (abandonStart t) := setDev_orderly _ (onSmp_orderly _ id H)

theorem writeRun_orderly (b : Bool) (H : Orderly s t) : Orderly s (writeRun b t) := by
  have hset : Orderly s (setRunBit b t) := onSmp_orderly _ id H
  unfold writeRun
  dsimp only
  split
  · exact H
  · split
    · exact enterStarting_orderly hset
    · exact enterStarting_orderly hset
    · exact abandonStart_orderly hset
    · exact haltDevice_orderly hset
    · exact haltDevice_orderly hset
    · exact hset

theorem clearEvents_orderly (v : Word) (H : Orderly s t) : Orderly s (clearEvents v t) := onSmp_orderly _ id H

theorem writeEnables_orderly (v : Word) (H : Orderly s t) : Orderly s (writeEnables v t) := onSmp_orderly _ id H

theorem smpHandled_orderly (H : Orderly s t) : Orderly s (smpHandled t) := onSmp_orderly _ id H

theorem startFail_orderly (c : FaultCode) (H : Orderly s t) : Orderly s (startFail c t) :=
  raise_orderly _ (setDev_orderly _ (onSmp_orderly _ id H))

theorem setMissCount_orderly (n : Nat) (H : Orderly s t) : Orderly s (setMissCount n t) := by
  unfold setMissCount
  split
  · exact H
  · exact anchorWrite_orderly _ _ (onSmp_orderly _ id H)

theorem enterFallback_orderly (H : Orderly s t) : Orderly s (enterFallback t) :=
  sruFallback_orderly (cleFallback_orderly (raise_orderly _ (setDev_orderly _ H)))

theorem resume_orderly (H : Orderly s t) : Orderly s (resume t) :=
  raise_orderly _ (onCle_orderly _ (setDev_orderly _ H))

theorem heartbeatWatch_orderly (H : Orderly s t) : Orderly s (heartbeatWatch t) := by
  have hseen := setMissCount_orderly 0 (onSmp_orderly (fun m => { m with lastSeen := anchorWord t 0x28 }) id H)
  have hcounted := setMissCount_orderly (nextMiss t.smp.missCount (heartbeatWindow t)) H
  unfold heartbeatWatch
  dsimp only
  split
  · split
    · exact resume_orderly hseen
    · exact hseen
  · split
    · exact setMissCount_orderly 0 H
    · split
      · split
        · exact enterFallback_orderly hcounted
        · exact hcounted
      · exact H

end Sys2Proof.Machine
end

section
/-! SUPPORT. The resets, the start of a successful run, and every command: what each keeps of the invariants. -/

namespace Sys2Proof.Machine

/-! ## The state after a power-on reset (R18) -/

theorem reset_clockCountsBounded : ClockCountsBounded State.reset := by
  intro c
  simp [State.reset, Ccu.reset, Channel.reset, Channel.ceiling]

theorem reset_holdBounded : HoldBounded State.reset := Nat.zero_le 8

theorem reset_account (g : Fin 8) (i : Fin 64) : State.reset.sru.accounts[g][i] = Account.zero := by
  simp [State.reset, Sru.reset]

theorem reset_group (g : Fin 8) : State.reset.sru.groups[g] = RotationGroup.reset := by
  simp [State.reset, Sru.reset]

theorem reset_balancesSettled : BalancesSettled State.reset := by
  intro g
  simp only [reset_account, Account.zero]
  exact ⟨fun _ => by decide, fun _ => by simp⟩

theorem reset_deliveredConserved : DeliveredConserved State.reset := by
  rw [deliveredConserved_iff]
  intro g i
  rw [owed, reset_account, reset_group]
  simp [Account.zero, RotationGroup.framesFor, RotationGroup.reset, State.reset, Plw.reset]

theorem reset_zone (i : Fin 16) : Zar.reset.table[i] = none := by simp [Zar.reset]

theorem zoneSetOf_reset (g : Fin 8) : zoneSetOf Zar.reset.table g = 0 := by
  refine zoneMask_ext fun z => ?_
  rw [zoneSetOf_getLsbD, reset_zone]
  simp [namesGroup]

/-- With no zone in the table, and no zone set, the claim lists have their form. -/
theorem claimListsFormed_of_reset {s : State} (hz : s.zar = Zar.reset) (hg : ∀ g : Fin 8, s.sru.groups[g].zones = 0) :
    ClaimListsFormed s := by
  refine (claimListsFormed_iff s).2 ⟨fun i e he => ?_, fun g => ?_⟩
  · rw [hz, reset_zone] at he
    cases he
  · rw [hz, hg, zoneSetOf_reset]

theorem reset_claimListsFormed : ClaimListsFormed State.reset :=
  claimListsFormed_of_reset rfl fun g => by rw [reset_group]; rfl

/-- Settles O59: each invariant, on the power-on values of the blocks it reads. -/
theorem resetMeetsEveryInvariant : Obligations.ResetMeetsEveryInvariant :=
  ⟨by unfold SmpConsistent; decide, reset_mem_wf, reset_claimListsFormed, reset_clockCountsBounded, reset_holdBounded, reset_balancesSettled,
    reset_deliveredConserved, rfl, rfl⟩

/-! ## Soft and link resets (R143, R152) -/

theorem resetSlot_groups (g : Fin 8) (s : State) : (resetSlot g s).sru.groups = s.sru.groups := by
  unfold resetSlot
  split
  · split <;> rfl
  · rfl

/-- A reset enters the zone-frames of a group's open slot as unlogged. -/
theorem resetSlot_entered (g : Fin 8) (s : State) :
    Entered (fun g' i => if g' = g then BitVec.ofNat 64 (s.sru.groups[g].framesFor i) else 0) s (resetSlot g s) := by
  have hnothing : ∀ h : ∀ i, s.sru.groups[g].framesFor i = 0,
      Entered (fun g' i => if g' = g then BitVec.ofNat 64 (s.sru.groups[g].framesFor i) else 0) s s := fun h =>
    (Orderly.refl s).entered fun g' i => by simp only [h]; split <;> exact (sub_zero _).symm
  unfold resetSlot
  split
  · rename_i x hopen
    split
    · exact hnothing (framesFor_eq_zero fun y hy => by rw [hopen] at hy; cases hy; assumption)
    · rename_i hclear
      have hadded := addUnlogged_entered g x.entry x.running s
      have hamount : (fun g' i => if g' = g ∧ i = x.entry then BitVec.ofNat 64 x.running else 0) =
          fun g' i => if g' = g then BitVec.ofNat 64 (s.sru.groups[g].framesFor i) else 0 := by
        funext g' i
        simp only [RotationGroup.framesFor, hopen, Bool.eq_false_iff.2 hclear, and_true]
        by_cases hg : g' = g <;> by_cases hi : i = x.entry <;> simp [hg, hi, eq_comm]
      rw [hamount] at hadded
      exact hadded
  · rename_i hopen
    exact hnothing (framesFor_eq_zero fun y hy => by rw [hopen] at hy; cases hy)

theorem inOrder_resetSlot (l : List (Fin 8)) (hl : l.Nodup) (s : State) :
    Entered (fun g i => if g ∈ l then BitVec.ofNat 64 (s.sru.groups[g].framesFor i) else 0) s
      (inOrder l resetSlot s) ∧
    (inOrder l resetSlot s).sru.groups = s.sru.groups := by
  induction l generalizing s with
  | nil => exact ⟨(Orderly.refl s).entered fun g i => by simp, rfl⟩
  | cons a l ih =>
    obtain ⟨hnew, hl⟩ := List.nodup_cons.1 hl
    obtain ⟨hentered, hgroups⟩ := ih hl (resetSlot a s)
    rw [resetSlot_groups] at hgroups
    refine ⟨?_, hgroups⟩
    have hboth := (resetSlot_entered a s).trans hentered
    have hamount : (fun g' i => if g' = a then BitVec.ofNat 64 (s.sru.groups[a].framesFor i) else 0) +
        (fun g i => if g ∈ l then BitVec.ofNat 64 ((resetSlot a s).sru.groups[g].framesFor i) else 0) =
        fun g i => if g ∈ a :: l then BitVec.ofNat 64 (s.sru.groups[g].framesFor i) else 0 := by
      funext g i
      simp only [Pi.add_apply, resetSlot_groups, List.mem_cons]
      by_cases hg : g = a
      · subst hg
        simp [hnew]
      · simp [hg]
    rw [hamount] at hboth
    exact hboth

/-- The groups as a reset leaves them (R143). -/
def RotationGroup.afterReset (r : RotationGroup) : RotationGroup :=
  { r with enabled := false, zones := 0, openSlot := none }

theorem sruReset_eq (s : State) : sruReset s =
    (inOrder (List.finRange 8) resetSlot s).onSru fun r => { r with groups := r.groups.map RotationGroup.afterReset } :=
  rfl

theorem sruReset_groups (s : State) (g : Fin 8) : (sruReset s).sru.groups[g] = s.sru.groups[g].afterReset := by
  have h := (inOrder_resetSlot (List.finRange 8) (List.nodup_finRange 8) s).2
  rw [sruReset_eq]
  generalize inOrder (List.finRange 8) resetSlot s = u at h
  rw [State.onSru_sru, h]
  simp

theorem sruReset_sound {s t : State} (H : Sound s t) : Sound s (sruReset t) := by
  obtain ⟨hentered, hgroups⟩ := inOrder_resetSlot (List.finRange 8) (List.nodup_finRange 8) t
  have hreset := sruReset_eq t
  generalize inOrder (List.finRange 8) resetSlot t = u at hentered hgroups hreset
  have haccounts : (sruReset t).sru.accounts = u.sru.accounts := by rw [hreset]; rfl
  have hplw : (sruReset t).plw = u.plw := by rw [hreset]; rfl
  refine H.trans
    { wf := by rw [hreset]; exact hentered.wf, guard := by rw [hreset]; exact hentered.guard
      clocks := by rw [hreset]; exact hentered.clocks, hold := by rw [hreset]; exact hentered.hold
      balances := fun h => Iff.mpr (balancesSettled_congr (fun g i => by rw [haccounts]) fun g => by
        rw [sruReset_groups, hgroups]
        rfl) (hentered.balances h)
      delivered := Iff.mpr (deliveredConserved_of_owed fun g i => ?_) }
  have hledger := hentered.ledger g i
  rw [if_pos (List.mem_finRange g)] at hledger
  have hnone : ((sruReset t).sru.groups[g]).framesFor i = 0 := by
    rw [sruReset_groups]
    rfl
  simp only [owed, hgroups] at hledger
  simp only [owed, haccounts, hplw, hnone, Nat.add_zero]
  rw [BitVec.ofNat_add] at hledger
  linear_combination hledger

/-- A held record counted as unlogged, unless it is from before a clear (R152). -/
def countUnlogged (s : State) (r : PlayRecord) : State :=
  if r.preClear then s else addUnlogged r.group r.entry r.zoneFrames s

theorem countUnlogged_entered (r : PlayRecord) (s : State) : Entered r.entry_ s (countUnlogged s r) := by
  have hamount : r.entry_ = fun g i => if r.preClear = true then 0
      else if g = r.group ∧ i = r.entry then BitVec.ofNat 64 r.zoneFrames else 0 :=
    funext fun g => funext fun i => framesFor_eq_ite r g i
  rw [hamount]
  unfold countUnlogged
  cases r.preClear with
  | true => exact (Orderly.refl s).entered fun g i => by simp
  | false => exact addUnlogged_entered r.group r.entry r.zoneFrames s

theorem foldl_countUnlogged (l : List PlayRecord) (s : State) :
    Entered (fun g i => BitVec.ofNat 64 (l.map fun r => r.framesFor g i).sum) s (l.foldl countUnlogged s) ∧
      (l.foldl countUnlogged s).plw = s.plw ∧ (l.foldl countUnlogged s).sru.groups = s.sru.groups := by
  induction l generalizing s with
  | nil => exact ⟨(Orderly.refl s).entered fun g i => by simp, rfl, rfl⟩
  | cons r l ih =>
    obtain ⟨hrest, hplw, hgroups⟩ := ih (countUnlogged s r)
    refine ⟨?_, hplw.trans ?_, hgroups.trans ?_⟩
    · have hboth := (countUnlogged_entered r s).trans hrest
      have hamount : (r.entry_ + fun g i => BitVec.ofNat 64 (l.map fun r => r.framesFor g i).sum) =
          fun g i => BitVec.ofNat 64 ((r :: l).map fun r => r.framesFor g i).sum := by
        funext g i
        rw [List.map_cons, List.sum_cons, BitVec.ofNat_add]
        rfl
      rw [hamount] at hboth
      exact hboth
    · unfold countUnlogged
      split <;> rfl
    · unfold countUnlogged
      split <;> rfl

theorem plwReset_eq (s : State) : plwReset s =
    (s.plw.hold.foldl countUnlogged s).onPlw fun p => { p with hold := [], badIndex := none } := rfl

theorem plwReset_orderly {s t : State} (H : Orderly s t) : Orderly s (plwReset t) := by
  obtain ⟨hentered, hplw, hgroups⟩ := foldl_countUnlogged t.plw.hold t
  rw [plwReset_eq]
  refine H.trans
    { wf := hentered.wf, guard := hentered.guard, clocks := hentered.clocks, hold := fun _ => Nat.zero_le 8
      balances := hentered.balances, claims := hentered.claims
      delivered := Iff.mpr (deliveredConserved_of_owed fun g i => ?_) }
  have hledger := hentered.ledger g i
  simp only [owed, hplw, State.onPlw_plw, State.onPlw_sru, List.map_nil, List.sum_nil, Nat.zero_add,
    BitVec.ofNat_add] at hledger ⊢
  linear_combination hledger

theorem resetDevice_orderly (cause : ResetCause) {s t : State} (H : Orderly s t) : Orderly s (resetDevice cause t) := by
  refine H.trans ?_
  let u := msuReset (cleReset (cloReset (zarReset (ciuReset (t.onSmp fun m => m.afterReset cause)))))
  have hblocks : Sound t u := by
    have hciu : Orderly t (ciuReset (t.onSmp fun m => m.afterReset cause)) :=
      ciuReset_orderly (onSmp_orderly _ (fun _ => rfl) (.refl t))
    refine hciu.toSound.trans (.of_zar ?_)
    exact msuReset_then (cleReset_then (cloReset_then (zarReset_then (.refl _ _) rfl) rfl) rfl) rfl
  have hsru : Orderly t (sruReset u) := by
    refine ⟨sruReset_sound hblocks, fun _ => claimListsFormed_of_reset ?_ fun g => ?_⟩
    · exact sruReset_then (ps := [.sru]) (.refl _ u) rfl .zar rfl
    · rw [sruReset_groups]
      rfl
  exact ftuReset_orderly (reachPresent_orderly (etuReset_orderly (plwReset_orderly hsru)))

theorem powerOn_orderly {s t : State} (H : Orderly s t) : Orderly s (powerOn t) :=
  H.trans
    { wf := id, guard := fun _ => ⟨rfl, rfl⟩
      clocks := fun _ => Iff.mpr (clockCountsBounded_congr rfl) reset_clockCountsBounded
      hold := fun _ => reset_holdBounded
      balances := fun _ => Iff.mpr (balancesSettled_congr (fun _ _ => rfl) fun _ => rfl) reset_balancesSettled
      delivered := fun _ => Iff.mpr (deliveredConserved_of_owed (owed_congr rfl rfl rfl)) reset_deliveredConserved
      claims := fun _ => Iff.mpr (claimListsFormed_congr rfl fun _ => rfl) reset_claimListsFormed }

theorem writeControl_orderly (v : Word) {s t : State} (H : Orderly s t) : Orderly s (writeControl v t) := by
  unfold writeControl
  split
  · exact resetDevice_orderly _ H
  · exact writeRun_orderly _ H

theorem writeWindow_orderly (o : BitVec 8) (v : Word) {s t : State} (H : Orderly s t) : Orderly s (writeWindow o v t) := by
  unfold writeWindow
  split
  · exact writeAnchorRegister_orderly v H
  · split
    · exact writeControl_orderly v H
    · split
      · exact clearEvents_orderly v H
      · split
        · exact writeEnables_orderly v H
        · exact H

/-! ## A successful start (R10) -/

/-- From the anchor in force on, a successful start is like every other operation. -/
theorem startSuccess_orderly (now : Bool) (zs : List ZoneDef) (s : State) : Orderly (takeAnchor s) (startSuccess now zs s) := by
  have hrunning := setDev_orderly .running (loadCommon_orderly zs (.refl (takeAnchor s)))
  unfold startSuccess
  dsimp only
  split
  · exact writePartArea_orderly (settingsAtSuccess_orderly hrunning)
  · exact writePartArea_orderly hrunning

theorem anchorCheck_orderly (now : Bool) (s : State) :
    Orderly s (anchorCheck now s) ∨ Orderly (takeAnchor s) (anchorCheck now s) := by
  unfold anchorCheck
  split
  · exact .inl (startFail_orderly _ (.refl s))
  · exact .inr (startSuccess_orderly now _ s)

/-! ## Every command -/

/-- A cue kind as a command: the act, and the record written. -/
theorem takeAndWrite_orderly {s t : State} (take : CueTake) {act : State → Taking × State}
    (hact : Orderly s (act t).2) : Orderly s (takeAndWrite take act t) :=
  writeTaking_orderly _ _ _ hact

theorem writeHandover_orderly {s : State} (h : Handover) {r : Taking × State} (hr : Orderly s r.2) :
    Orderly s (writeHandover h r) := by
  unfold writeHandover
  split
  · exact writeTaking_orderly _ _ _ hr
  · exact recordTaking_orderly _ _ hr

/-- Every command completes, and every one but the anchor check keeps the invariants and writes show memory only under
an anchor in force. -/
theorem exec_orderly (i : Instr) (hcheck : ∀ now, i ≠ .anchorCheck now) (s : State) :
    ∃ t, exec i s = .next t ∧ Orderly s t := by
  have hs : Orderly s s := .refl s
  cases i
  case anchorCheck now => exact absurd rfl (hcheck now)
  case anchorWrite v => exact ⟨_, rfl, writeAnchorRegister_orderly v hs⟩
  case setRun v => exact ⟨_, rfl, writeControl_orderly v hs⟩
  case halt v => exact ⟨_, rfl, writeControl_orderly v hs⟩
  case softReset v => exact ⟨_, rfl, writeControl_orderly v hs⟩
  case eventClear v => exact ⟨_, rfl, clearEvents_orderly v hs⟩
  case eventEnableWrite v => exact ⟨_, rfl, writeEnables_orderly v hs⟩
  case controlWindowWrite o v => exact ⟨_, rfl, writeWindow_orderly o v hs⟩
  case linkReset => exact ⟨_, rfl, resetDevice_orderly _ hs⟩
  case powerOnReset => exact ⟨_, rfl, powerOn_orderly hs⟩
  case frameStart => exact ⟨_, rfl, frameStart_orderly hs⟩
  case referenceEdge tick => exact ⟨_, rfl, referenceEdge_orderly _ (reachTick_orderly _ hs)⟩
  case enterLocked tick =>
    refine ⟨_, rfl, ?_⟩
    split
    · exact edgeAcquiring_orderly _ (reachTick_orderly _ hs)
    · exact hs
  case holdoverExpiry =>
    refine ⟨_, rfl, ?_⟩
    split
    · exact enterHoldover_orderly (reachTick_orderly _ hs)
    · exact hs
  case heartbeatWatch =>
    refine ⟨_, rfl, ?_⟩
    split
    · split
      · exact heartbeatWatch_orderly (smpHandled_orderly hs)
      · exact smpHandled_orderly hs
    · exact hs
  case enterFallback =>
    refine ⟨_, rfl, ?_⟩
    split
    · exact heartbeatWatch_orderly (smpHandled_orderly hs)
    · exact hs
  case ciuScan levels => exact ⟨_, rfl, ciuHandling_orderly _ hs⟩
  case playClip ho p => exact ⟨_, rfl, writeHandover_orderly _ (takeClip_orderly _ _ _ hs)⟩
  case postMessage ho p => exact ⟨_, rfl, writeHandover_orderly _ (takeMessage_orderly _ _ _ hs)⟩
  case withdraw take target entry tag => exact ⟨_, rfl, takeAndWrite_orderly _ (takeWithdraw_orderly _ _ _ _ hs)⟩
  case loadLayout take bank offset => exact ⟨_, rfl, takeAndWrite_orderly _ (takeLoadLayout_orderly _ _ hs)⟩
  case selectLayout take bank => exact ⟨_, rfl, takeAndWrite_orderly _ (takeSelectLayout_orderly _ hs)⟩
  case sponsorWrite take entry offset => exact ⟨_, rfl, takeAndWrite_orderly _ (takeSponsorWrite_orderly _ _ hs)⟩
  case sponsorActivate take entry => exact ⟨_, rfl, takeAndWrite_orderly _ (takeActivate_orderly _ hs)⟩
  case sponsorRetire take entry => exact ⟨_, rfl, takeAndWrite_orderly _ (takeRetire_orderly _ hs)⟩
  case groupEnable take group => exact ⟨_, rfl, takeAndWrite_orderly _ (takeEnable_orderly _ hs)⟩
  case groupDisable take group => exact ⟨_, rfl, takeAndWrite_orderly _ (takeDisable_orderly _ hs)⟩
  case groupClear take group => exact ⟨_, rfl, takeAndWrite_orderly _ (takeGroupClear_orderly _ hs)⟩
  case clockSet take p => exact ⟨_, rfl, takeAndWrite_orderly _ (setClock_orderly _ hs)⟩
  case clockRunStart take channel => exact ⟨_, rfl, takeAndWrite_orderly _ (runClock_orderly _ _ _ hs)⟩
  case clockRunStop take channel => exact ⟨_, rfl, takeAndWrite_orderly _ (runClock_orderly _ _ _ hs)⟩
  case clockRunReset take channel => exact ⟨_, rfl, takeAndWrite_orderly _ (runClock_orderly _ _ _ hs)⟩
  case clockRunAdjust take channel delta => exact ⟨_, rfl, takeAndWrite_orderly _ (runClock_orderly _ _ _ hs)⟩
  case consoleSet take levels p => exact ⟨_, rfl, takeAndWrite_orderly _ (setConsole_orderly _ (setLevels_orderly _ hs))⟩
  case triggerArm take p => exact ⟨_, rfl, takeAndWrite_orderly _ (takeTriggerArm_orderly _ hs)⟩
  case triggerDisarm take entry => exact ⟨_, rfl, takeAndWrite_orderly _ (takeTriggerDisarm_orderly _ hs)⟩
  case cloFrameStart =>
    refine ⟨_, rfl, ?_⟩
    split
    · exact cloFrameStart_orderly _ (onClo_orderly _ hs)
    · exact hs
  case linkDown link =>
    refine ⟨_, rfl, ?_⟩
    split
    · exact reportLinks_orderly (onLink_orderly _ _ hs)
    · exact hs
  case linkAnswer link => exact ⟨_, rfl, answerLink_orderly _ hs⟩
  case clipExhausted slot => exact ⟨_, rfl, exhaustClip_orderly _ hs⟩
  case msuFrameStart =>
    refine ⟨_, rfl, ?_⟩
    split
    · exact msuFrameStart_orderly _ (onMsu_orderly _ hs)
    · exact hs
  case durationRunOut slot =>
    refine ⟨_, rfl, ?_⟩
    split
    · exact countMessage_orderly _ _ hs
    · exact hs
  case blinkPhaseChange slot =>
    refine ⟨_, rfl, ?_⟩
    split
    · exact countMessage_orderly _ _ hs
    · exact hs
  case dwellEnd group => exact ⟨_, rfl, dwellEnd_orderly _ hs⟩
  case holdQueueRetry =>
    refine ⟨_, rfl, ?_⟩
    split
    · exact plwFrameStart_orderly (onPlw_orderly _ rfl hs)
    · exact hs
  case millisecondBoundary levels => exact ⟨_, rfl, millisecond_orderly (setLevels_orderly _ hs)⟩
  case channelExpiry channel =>
    refine ⟨_, rfl, ?_⟩
    split
    · exact withHorn_orderly (fun _ hu => expireChain_orderly _ _ (onChannel_orderly _ _ Channel.Bounded.step hu)) hs
    · exact hs
  case consoleQualified line => exact ⟨_, rfl, qualifyLine_orderly _ hs⟩
  case hornPulseEnd =>
    refine ⟨_, rfl, ?_⟩
    split
    · exact onCcu_orderly _ rfl hs
    · exact hs
  case clockSnapshot =>
    refine ⟨_, rfl, ?_⟩
    split
    · exact writeClockSnapshot_orderly (onCcu_orderly _ rfl hs)
    · exact hs
  case etuFrameStart =>
    refine ⟨_, rfl, ?_⟩
    split
    · exact etuFrameStart_orderly _ (onEtu_orderly _ hs)
    · exact hs

/-- What every orderly change keeps, and taking an anchor too, every command keeps. -/
theorem invariant_of_orderly {P : State → Prop} (hP : ∀ {s t}, Orderly s t → P s → P t)
    (htake : ∀ {s}, P s → P (takeAnchor s)) : Invariant P := by
  intro i s hs t ht
  by_cases hcheck : ∀ now, i ≠ .anchorCheck now
  · obtain ⟨u, hu, horderly⟩ := exec_orderly i hcheck s
    rw [hu] at ht
    cases ht
    exact hP horderly hs
  · obtain ⟨now, rfl⟩ := not_forall_not.1 hcheck
    rw [exec_anchorCheck] at ht
    cases ht
    split
    · have hhandled := hP (smpHandled_orderly (.refl s)) hs
      obtain h | h := anchorCheck_orderly now (smpHandled s)
      · exact hP h hhandled
      · exact hP h (htake hhandled)
    · exact hs

/-! ## The obligations -/

/-- Settles O54. -/
theorem everyCommandKeepsMemoryCanonical : Obligations.EveryCommandKeepsMemoryCanonical :=
  invariant_of_orderly (fun h => h.wf) id

/-- Settles O55. -/
theorem everyCommandKeepsClaimListsFormed : Obligations.EveryCommandKeepsClaimListsFormed :=
  invariant_of_orderly (fun h => h.claims) id

/-- Settles O56. -/
theorem everyCommandKeepsCountsBounded : Obligations.EveryCommandKeepsCountsBounded :=
  ⟨invariant_of_orderly (fun h => h.clocks) id, invariant_of_orderly (fun h => h.hold) id⟩

/-- Settles O57. -/
theorem everyCommandKeepsBalancesSettled : Obligations.EveryCommandKeepsBalancesSettled :=
  invariant_of_orderly (fun h => h.balances) id

/-- Settles O58. -/
theorem everyCommandConservesDelivered : Obligations.EveryCommandConservesDelivered :=
  invariant_of_orderly (fun h => h.delivered) id

/-- Settles O60. -/
theorem partWritesOnlyUnderAnchor : Obligations.PartWritesOnlyUnderAnchor := by
  intro i s hforce hcheck
  obtain ⟨t, ht, horderly⟩ := exec_orderly i hcheck s
  exact ⟨t, ht, (horderly.guard hforce).2⟩

end Sys2Proof.Machine
end

section
/-! SUPPORT. The device state (R2 to R4, R6, R13): which commands reach the show memory port's own registers, and what they
make of them. -/

namespace Sys2Proof.Machine

/-! ## The registers that the device state is in -/

theorem smpConsistent_congr {s t : State} (h : t.smp.core = s.smp.core) : SmpConsistent t ↔ SmpConsistent s := by
  have hrun := congrArg Smp.run h
  have hdev := congrArg Smp.dev h
  have hforce := congrArg Smp.inForce h
  have hfault := congrArg Smp.fault h
  have hanchor := congrArg Smp.anchor h
  have hmiss := congrArg Smp.missCount h
  simp only [Smp.core] at hrun hdev hforce hfault hanchor hmiss
  simp only [SmpConsistent, hrun, hdev, hforce, hfault, hanchor, hmiss]

theorem anchorOffset_aligned (v : Word) : (anchorOffset v).toNat % 4096 = 0 := by
  simp only [anchorOffset, BitVec.toNat_shiftLeft, BitVec.toNat_ushiftRight, Nat.shiftLeft_eq, Nat.shiftRight_eq_div_pow]
  omega

theorem heartbeatWindow_le (s : State) : heartbeatWindow s ≤ 600 := Nat.min_le_left _ _

theorem nextMiss_le {miss window : Nat} (hm : miss ≤ 600) (hw : window ≤ 600) : nextMiss miss window ≤ 600 := by
  unfold nextMiss
  split <;> omega

/-! ## The core of the port's registers after each operation that reaches them -/

theorem haltDevice_core (s : State) : (haltDevice s).smp.core = { s.smp with dev := .halted }.core := by
  have hdev : ((setDev .halted s).smp).core = { s.smp with dev := .halted }.core := by rw [setDev_smp]
  rw [← hdev]
  exact sruHalt_then (ps := [.sru, .plw, .events, .mem, .free, .zar, .cle, .msu, .etu])
    (msuHalt_then (cleHalt_then (removeAllClaims_then (.refl _ _) rfl) rfl) rfl) rfl .smp rfl

theorem resetDevice_core (cause : ResetCause) (s : State) :
    (resetDevice cause s).smp.core = (s.smp.afterReset cause).core := by
  have h := ftuReset_then (ps := [.events, .due, .ciu, .zar, .clo, .cle, .msu, .sru, .plw, .etu, .ftu, .mem, .ccu, .free])
    (reachPresent_then (etuReset_then (plwReset_then (sruReset_then (msuReset_then (cleReset_then (cloReset_then
      (zarReset_then (ciuReset_then (.refl _ (s.onSmp fun m => m.afterReset cause)) rfl) rfl) rfl) rfl) rfl) rfl) rfl)
      rfl) rfl) rfl .smp rfl
  exact h

theorem startSuccess_core (now : Bool) (zs : List ZoneDef) (s : State) :
    (startSuccess now zs s).smp.core = { (takeAnchor s).smp with dev := .running }.core := by
  have hload : (loadCommon zs (takeAnchor s)).smp.core = (takeAnchor s).smp.core :=
    loadCommon_then (ps := [.sru, .plw, .events, .mem, .free, .zar]) zs (.refl _ _) rfl .smp rfl
  have hdev : (setDev .running (loadCommon zs (takeAnchor s))).smp.core =
      { (takeAnchor s).smp with dev := .running }.core := by
    rw [setDev_smp]
    exact congrArg (fun m : Smp => { m with dev := .running }) hload
  rw [← hdev]
  unfold startSuccess
  dsimp only
  split
  · exact writePartArea_then (ps := [.events, .due, .ciu, .clo, .msu, .plw, .ccu, .etu, .ftu, .mem])
      (settingsAtSuccess_then (.refl _ _) rfl) rfl .smp rfl
  · exact writePartArea_then (ps := [.mem]) (.refl _ _) rfl .smp rfl

theorem setMissCount_smp (n : Nat) (s : State) : (setMissCount n s).smp = { s.smp with missCount := n } := by
  unfold setMissCount
  split
  · rename_i h
    rw [← h]
  · simp

theorem enterFallback_core (s : State) : (enterFallback s).smp.core = { s.smp with dev := .fallback }.core := by
  have hdev : (raise .fallback (setDev .fallback s)).smp.core = { s.smp with dev := .fallback }.core := by
    rw [raise_smp, setDev_smp]
    rfl
  rw [← hdev]
  exact sruFallback_then (ps := [.cle, .mem, .events, .etu, .zar, .free, .sru]) (cleFallback_then (.refl _ _) rfl) rfl .smp rfl

/-! ## Each of them keeps the registers consistent -/

variable {s : State}

theorem smpConsistent_halted (hdev : s.smp.dev = .halted) (hrun : s.smp.run = false) (hfault : s.smp.fault = .none)
    (hanchor : s.smp.anchor.toNat % 4096 = 0) (hmiss : s.smp.missCount ≤ 600) : SmpConsistent s := by
  simp [SmpConsistent, hdev, hrun, hfault, hanchor, hmiss, DevState.stopped, DevState.live]

theorem smpConsistent_starting (hdev : s.smp.dev = .starting) (hrun : s.smp.run = true) (hforce : s.smp.inForce = false)
    (hfault : s.smp.fault = .none) (hanchor : s.smp.anchor.toNat % 4096 = 0) (hmiss : s.smp.missCount ≤ 600) :
    SmpConsistent s := by
  simp [SmpConsistent, hdev, hrun, hforce, hfault, hanchor, hmiss, DevState.stopped, DevState.live]

theorem smpConsistent_running (hdev : s.smp.dev = .running) (hrun : s.smp.run = true) (hforce : s.smp.inForce = true)
    (hfault : s.smp.fault = .none) (hanchor : s.smp.anchor.toNat % 4096 = 0) (hmiss : s.smp.missCount ≤ 600) :
    SmpConsistent s := by
  simp [SmpConsistent, hdev, hrun, hforce, hfault, hanchor, hmiss, DevState.stopped, DevState.live]

theorem smpConsistent_faulted (hdev : s.smp.dev = .faulted) (hrun : s.smp.run = false)
    (hanchor : s.smp.anchor.toNat % 4096 = 0) (hmiss : s.smp.missCount ≤ 600) : SmpConsistent s := by
  simp [SmpConsistent, hdev, hrun, hanchor, hmiss, DevState.stopped, DevState.live]

theorem SmpConsistent.writeAnchorRegister (h : SmpConsistent s) (v : Word) : SmpConsistent (writeAnchorRegister v s) := by
  obtain ⟨hrun, -, -, hfault, -, hmiss⟩ := id h
  unfold Machine.writeAnchorRegister
  split
  · refine ⟨hrun, fun _ => rfl, fun hlive => ?_, hfault, anchorOffset_aligned v, hmiss⟩
    rename_i hstopped
    simp only [endAnchor, State.onSmp_smp] at hlive
    cases hd : s.smp.dev <;> rw [hd] at hstopped hlive <;> simp [DevState.stopped, DevState.live] at hstopped hlive
  · exact h

theorem enterStarting_consistent (hrun : s.smp.run = true) (hanchor : s.smp.anchor.toNat % 4096 = 0)
    (hmiss : s.smp.missCount ≤ 600) : SmpConsistent (enterStarting s) := by
  apply smpConsistent_starting <;> simp only [enterStarting, endAnchor, setDev_smp, State.onSmp_smp]
  · exact hrun
  · exact hanchor
  · exact hmiss

theorem SmpConsistent.writeRun (h : SmpConsistent s) (b : Bool) : SmpConsistent (writeRun b s) := by
  obtain ⟨hrun, -, -, hfault, hanchor, hmiss⟩ := id h
  unfold Machine.writeRun
  split
  · exact h
  · rename_i hb
    have hset : b = s.smp.dev.stopped := by
      rw [hrun] at hb
      revert hb
      cases b <;> cases s.smp.dev.stopped <;> decide
    have hhalted : SmpConsistent (haltDevice (setRunBit false s)) ↔
        SmpConsistent ((setRunBit false s).onSmp fun m => { m with dev := .halted }) :=
      smpConsistent_congr (haltDevice_core _)
    cases hd : s.smp.dev <;> rw [hd] at hset <;> subst hset
    case halted => exact enterStarting_consistent rfl hanchor hmiss
    case faulted => exact enterStarting_consistent rfl hanchor hmiss
    case starting =>
      apply smpConsistent_halted <;> simp only [DevState.stopped, abandonStart, setDev_smp, State.onSmp_smp]
      · rfl
      · exact hanchor
      · exact hmiss
    case running => exact hhalted.2 (smpConsistent_halted rfl rfl (hfault (by rw [hd]; decide)) hanchor hmiss)
    case fallback => exact hhalted.2 (smpConsistent_halted rfl rfl (hfault (by rw [hd]; decide)) hanchor hmiss)

theorem SmpConsistent.resetDevice (h : SmpConsistent s) (cause : ResetCause) : SmpConsistent (resetDevice cause s) := by
  obtain ⟨-, -, -, -, hanchor, -⟩ := h
  have hcore := smpConsistent_congr (t := Machine.resetDevice cause s) (s := s.onSmp fun m => m.afterReset cause)
    (resetDevice_core cause s)
  exact hcore.2 (smpConsistent_halted rfl rfl rfl hanchor (Nat.zero_le _))

theorem powerOn_smp (s : State) : (powerOn s).smp = Smp.reset := rfl

theorem powerOn_consistent (s : State) : SmpConsistent (powerOn s) := by
  apply smpConsistent_halted <;> rw [powerOn_smp] <;> first | rfl | decide

theorem SmpConsistent.writeControl (h : SmpConsistent s) (v : Word) : SmpConsistent (writeControl v s) := by
  unfold Machine.writeControl
  split
  · exact h.resetDevice .soft
  · exact h.writeRun _

theorem SmpConsistent.writeWindow (h : SmpConsistent s) (o : BitVec 8) (v : Word) : SmpConsistent (writeWindow o v s) := by
  unfold Machine.writeWindow
  split
  · exact h.writeAnchorRegister v
  · split
    · exact h.writeControl v
    · split
      · exact h
      · split <;> exact h

theorem SmpConsistent.anchorCheck (h : SmpConsistent s) (hdev : s.smp.dev = .starting) (now : Bool) :
    SmpConsistent (anchorCheck now s) := by
  obtain ⟨hrun, hforce, -, hfault, hanchor, hmiss⟩ := h
  unfold Machine.anchorCheck
  split
  · rw [startFail_eq (hforce hdev)]
    exact smpConsistent_faulted rfl rfl hanchor hmiss
  · rename_i zs _
    refine (smpConsistent_congr (s := (takeAnchor s).onSmp fun m => { m with dev := .running })
      (startSuccess_core now zs s)).2 ?_
    rw [hdev] at hrun
    exact smpConsistent_running rfl hrun rfl (hfault (by rw [hdev]; decide)) hanchor (Nat.zero_le _)

theorem SmpConsistent.setMissCount (h : SmpConsistent s) {n : Nat} (hn : n ≤ 600) : SmpConsistent (setMissCount n s) := by
  obtain ⟨hrun, hforce, hlive, hfault, hanchor, -⟩ := h
  simp only [SmpConsistent, setMissCount_smp]
  exact ⟨hrun, hforce, hlive, hfault, hanchor, hn⟩

/-- A change between RUNNING and FALLBACK. -/
theorem SmpConsistent.live (h : SmpConsistent s) (hlive : s.smp.dev.live = true) {d : DevState} (hd : d.live = true) :
    SmpConsistent (s.onSmp fun m => { m with dev := d }) := by
  obtain ⟨hrun, -, hforce, hfault, hanchor, hmiss⟩ := h
  have hstopped : ∀ d : DevState, d.live = true → d.stopped = false ∧ d ≠ .starting ∧ d ≠ .faulted := by
    intro d; cases d <;> decide
  obtain ⟨hs, -, hnf⟩ := hstopped _ hlive
  obtain ⟨hs', hns, -⟩ := hstopped _ hd
  rw [hs] at hrun
  exact ⟨by rw [State.onSmp_smp, hs']; exact hrun, fun h => absurd h hns, fun _ => hforce hlive, fun _ => hfault hnf,
    hanchor, hmiss⟩

theorem SmpConsistent.heartbeatWatch (h : SmpConsistent s) : SmpConsistent (heartbeatWatch s) := by
  have hmiss : s.smp.missCount ≤ 600 := h.2.2.2.2.2
  unfold Machine.heartbeatWatch
  dsimp only
  split
  · have hseen : SmpConsistent (Machine.setMissCount 0 (s.onSmp fun m => { m with lastSeen := anchorWord s 0x28 })) :=
      SmpConsistent.setMissCount (s := s.onSmp fun m => { m with lastSeen := anchorWord s 0x28 }) h (Nat.zero_le _)
    split
    · rename_i hdev
      refine (smpConsistent_congr (s := State.onSmp _ fun m => { m with dev := .running }) ?_).2
        (hseen.live (d := .running) ?_ rfl)
      · simp [resume, Smp.core]
      · rw [setMissCount_smp, State.onSmp_smp, hdev]
        rfl
    · exact hseen
  · split
    · exact h.setMissCount (Nat.zero_le _)
    · split
      · rename_i hdev
        have hcounted := h.setMissCount (nextMiss_le hmiss (heartbeatWindow_le s))
        split
        · refine (smpConsistent_congr (s := State.onSmp _ fun m => { m with dev := .fallback })
            (enterFallback_core _)).2 (hcounted.live ?_ rfl)
          rw [setMissCount_smp, hdev]
          rfl
        · exact hcounted
      · exact h

/-! ## Every command -/

/-- The commands that can reach the show memory port's own registers. -/
def reachesPort : Instr → Bool
  | .anchorWrite _ | .setRun _ | .halt _ | .softReset _ | .eventClear _ | .eventEnableWrite _ | .controlWindowWrite _ _
  | .linkReset | .powerOnReset | .anchorCheck _ | .heartbeatWatch | .enterFallback => true
  | _ => false

/-- The parts of the state that are not the port's own registers. -/
def otherParts : List Part :=
  [.mem, .events, .due, .ftu, .ciu, .zar, .clo, .cle, .msu, .sru, .plw, .ccu, .etu, .free]

theorem takeAndWrite_then {ps : List Part} {s t : State} (take : CueTake) {act : State → Taking × State}
    (hact : ChangesOnly ps s (act t).2) (h : sub [.mem, .events] ps = true) : ChangesOnly ps s (takeAndWrite take act t) :=
  writeTaking_then _ _ _ hact h

theorem writeHandover_then {ps : List Part} {s : State} (ho : Handover) {r : Taking × State} (hr : ChangesOnly ps s r.2)
    (h : sub [.mem, .events] ps = true) (h' : sub [.etu, .mem] ps = true) : ChangesOnly ps s (writeHandover ho r) := by
  unfold writeHandover
  split
  · exact writeTaking_then _ _ _ hr h
  · exact recordTaking_then _ _ hr h'

theorem withHorn_then {ps : List Part} {s t : State} {act : State → State} {rest : Nat → Nat}
    (hact : ∀ u, ChangesOnly ps s u → ChangesOnly ps s (act u)) (H : ChangesOnly ps s t) (h : sub [.ccu] ps = true) :
    ChangesOnly ps s (withHorn act rest t) := by
  have hacted := hact _ (onCcu_then (fun u => { u with horn := 0 }) H h)
  unfold withHorn
  dsimp only
  split
  · exact onCcu_then _ hacted h
  · exact hacted

theorem exec_keepsPort (i : Instr) (hport : reachesPort i = false) (s : State) :
    ∃ t, exec i s = .next t ∧ ChangesOnly otherParts s t := by
  have hs : ChangesOnly otherParts s s := .refl _ s
  cases i
  case frameStart => exact ⟨_, rfl, frameStart_then hs rfl⟩
  case referenceEdge tick => exact ⟨_, rfl, referenceEdge_then _ (reachTick_then _ hs rfl) rfl⟩
  case enterLocked tick =>
    refine ⟨_, rfl, ?_⟩
    split
    · exact edgeAcquiring_then _ (reachTick_then _ hs rfl) rfl
    · exact hs
  case holdoverExpiry =>
    refine ⟨_, rfl, ?_⟩
    split
    · exact enterHoldover_then (reachTick_then _ hs rfl) rfl
    · exact hs
  case ciuScan levels => exact ⟨_, rfl, ciuHandling_then _ hs rfl⟩
  case playClip ho p => exact ⟨_, rfl, writeHandover_then _ (takeClip_then _ _ _ hs rfl) rfl rfl⟩
  case postMessage ho p => exact ⟨_, rfl, writeHandover_then _ (takeMessage_then _ _ _ hs rfl) rfl rfl⟩
  case withdraw take target entry tag => exact ⟨_, rfl, takeAndWrite_then _ (takeWithdraw_then _ _ _ _ hs rfl) rfl⟩
  case loadLayout take bank offset => exact ⟨_, rfl, takeAndWrite_then _ (takeLoadLayout_then _ _ hs rfl) rfl⟩
  case selectLayout take bank => exact ⟨_, rfl, takeAndWrite_then _ (takeSelectLayout_then _ hs rfl) rfl⟩
  case sponsorWrite take entry offset => exact ⟨_, rfl, takeAndWrite_then _ (takeSponsorWrite_then _ _ hs rfl) rfl⟩
  case sponsorActivate take entry => exact ⟨_, rfl, takeAndWrite_then _ (takeActivate_then _ hs rfl) rfl⟩
  case sponsorRetire take entry => exact ⟨_, rfl, takeAndWrite_then _ (takeRetire_then _ hs rfl) rfl⟩
  case groupEnable take group => exact ⟨_, rfl, takeAndWrite_then _ (takeEnable_then _ hs rfl) rfl⟩
  case groupDisable take group => exact ⟨_, rfl, takeAndWrite_then _ (takeDisable_then _ hs rfl) rfl⟩
  case groupClear take group => exact ⟨_, rfl, takeAndWrite_then _ (takeGroupClear_then _ hs rfl) rfl⟩
  case clockSet take p => exact ⟨_, rfl, takeAndWrite_then _ (setClock_then _ hs rfl) rfl⟩
  case clockRunStart take channel => exact ⟨_, rfl, takeAndWrite_then _ (runClock_then _ _ _ hs rfl) rfl⟩
  case clockRunStop take channel => exact ⟨_, rfl, takeAndWrite_then _ (runClock_then _ _ _ hs rfl) rfl⟩
  case clockRunReset take channel => exact ⟨_, rfl, takeAndWrite_then _ (runClock_then _ _ _ hs rfl) rfl⟩
  case clockRunAdjust take channel delta => exact ⟨_, rfl, takeAndWrite_then _ (runClock_then _ _ _ hs rfl) rfl⟩
  case consoleSet take levels p =>
    exact ⟨_, rfl, takeAndWrite_then _ (setConsole_then _ (setLevels_then _ hs rfl) rfl) rfl⟩
  case triggerArm take p => exact ⟨_, rfl, takeAndWrite_then _ (takeTriggerArm_then _ hs rfl) rfl⟩
  case triggerDisarm take entry => exact ⟨_, rfl, takeAndWrite_then _ (takeTriggerDisarm_then _ hs rfl) rfl⟩
  case cloFrameStart =>
    refine ⟨_, rfl, ?_⟩
    split
    · exact cloFrameStart_then _ (onClo_then _ hs rfl) rfl
    · exact hs
  case linkDown link =>
    refine ⟨_, rfl, ?_⟩
    split
    · exact reportLinks_then (onLink_then _ _ hs rfl) rfl
    · exact hs
  case linkAnswer link => exact ⟨_, rfl, answerLink_then _ hs rfl⟩
  case clipExhausted slot => exact ⟨_, rfl, exhaustClip_then _ hs rfl⟩
  case msuFrameStart =>
    refine ⟨_, rfl, ?_⟩
    split
    · exact msuFrameStart_then _ (onMsu_then _ hs rfl) rfl
    · exact hs
  case durationRunOut slot =>
    refine ⟨_, rfl, ?_⟩
    split
    · exact countMessage_then _ _ hs rfl
    · exact hs
  case blinkPhaseChange slot =>
    refine ⟨_, rfl, ?_⟩
    split
    · exact countMessage_then _ _ hs rfl
    · exact hs
  case dwellEnd group => exact ⟨_, rfl, dwellEnd_then _ hs rfl⟩
  case holdQueueRetry =>
    refine ⟨_, rfl, ?_⟩
    split
    · exact plwFrameStart_then (onPlw_then _ hs rfl) rfl
    · exact hs
  case millisecondBoundary levels => exact ⟨_, rfl, millisecond_then (setLevels_then _ hs rfl) rfl⟩
  case channelExpiry channel =>
    refine ⟨_, rfl, ?_⟩
    split
    · exact withHorn_then (fun _ hu => expireChain_then _ _ (onChannel_then _ _ hu rfl) rfl) hs rfl
    · exact hs
  case consoleQualified line => exact ⟨_, rfl, qualifyLine_then _ hs rfl⟩
  case hornPulseEnd =>
    refine ⟨_, rfl, ?_⟩
    split
    · exact onCcu_then _ hs rfl
    · exact hs
  case clockSnapshot =>
    refine ⟨_, rfl, ?_⟩
    split
    · exact writeClockSnapshot_then (onCcu_then _ hs rfl) rfl
    · exact hs
  case etuFrameStart =>
    refine ⟨_, rfl, ?_⟩
    split
    · exact etuFrameStart_then _ (onEtu_then _ hs rfl) rfl
    · exact hs
  all_goals exact Bool.noConfusion hport

theorem exec_consistent (i : Instr) {s : State} (h : SmpConsistent s) : ∃ t, exec i s = .next t ∧ SmpConsistent t := by
  have hhandled : SmpConsistent (smpHandled s) := h
  cases hport : reachesPort i with
  | false =>
    obtain ⟨t, ht, hframe⟩ := exec_keepsPort i hport s
    exact ⟨t, ht, (smpConsistent_congr (hframe .smp rfl)).2 h⟩
  | true =>
    cases i
    case anchorWrite v => exact ⟨_, rfl, h.writeAnchorRegister v⟩
    case setRun v => exact ⟨_, rfl, h.writeControl v⟩
    case halt v => exact ⟨_, rfl, h.writeControl v⟩
    case softReset v => exact ⟨_, rfl, h.writeControl v⟩
    case eventClear v => exact ⟨clearEvents v s, rfl, h⟩
    case eventEnableWrite v => exact ⟨writeEnables v s, rfl, h⟩
    case controlWindowWrite o v => exact ⟨_, rfl, h.writeWindow o v⟩
    case linkReset => exact ⟨_, rfl, h.resetDevice .link⟩
    case powerOnReset => exact ⟨_, rfl, powerOn_consistent s⟩
    case anchorCheck now =>
      refine ⟨_, exec_anchorCheck now s, ?_⟩
      split
      · rename_i hdue
        exact hhandled.anchorCheck (beq_iff_eq.1 (Bool.and_eq_true_iff.1 hdue).2) now
      · exact h
    case heartbeatWatch =>
      refine ⟨_, rfl, ?_⟩
      split
      · split
        · exact hhandled.heartbeatWatch
        · exact hhandled
      · exact h
    case enterFallback =>
      refine ⟨_, rfl, ?_⟩
      split
      · exact hhandled.heartbeatWatch
      · exact h
    all_goals exact Bool.noConfusion hport

/-- Settles O53. -/
theorem everyCommandKeepsDeviceConsistent : Obligations.EveryCommandKeepsDeviceConsistent := by
  intro i s h t ht
  obtain ⟨u, hu, hconsistent⟩ := exec_consistent i h
  rw [hu] at ht
  cases ht
  exact hconsistent

end Sys2Proof.Machine
end

section
/-! SUPPORT. What a write through the anchor and a write into the cue list leave in show memory, as words and as bytes, and
what a source event leaves in the trigger entries. -/

namespace Sys2Proof.Machine

/-! ## Show memory as words and bytes -/

theorem Memory.word_congr {m n : Memory} {x : Nat} (h : ∀ a, x ≤ a → a < x + 4 → m.get a = n.get a) :
    m.word x = n.word x := by
  unfold Memory.word
  rw [h x (by omega) (by omega), h (x + 1) (by omega) (by omega), h (x + 2) (by omega) (by omega),
    h (x + 3) (by omega) (by omega)]

variable {s : State}

theorem anchor_inside (haligned : s.smp.anchor.toNat % 4096 = 0) : s.smp.anchor.toNat + 4096 ≤ Config.memorySize := by
  have hword := s.smp.anchor.isLt
  simp only [Config.memorySize]
  omega

theorem anchorWrite_mem_of_not_inForce (h : s.smp.inForce = false) (o : Nat) (ws : List Word) :
    (anchorWrite o ws s).mem = s.mem := by
  rw [anchorWrite_of_not_inForce h]

theorem anchorWrite_word (haligned : s.smp.anchor.toNat % 4096 = 0) (hforce : s.smp.inForce = true) {o : Nat}
    {ws : List Word} (hfits : o + 4 * ws.length ≤ 4096) {k : Nat} (hk : k < ws.length) :
    (anchorWrite o ws s).mem.word (s.smp.anchor.toNat + o + 4 * k) = ws[k] := by
  have hin := anchor_inside haligned
  rw [anchorWrite_mem, if_pos hforce]
  exact Memory.word_storeWords _ _ _ _ hk (by omega)

/-- The word at a place given as a number. -/
theorem anchorWrite_word_at (haligned : s.smp.anchor.toNat % 4096 = 0) (hforce : s.smp.inForce = true) {o : Nat}
    {ws : List Word} (hfits : o + 4 * ws.length ≤ 4096) (p k : Nat) (hp : p = o + 4 * k) {w : Word}
    (hw : ws[k]? = some w) : (anchorWrite o ws s).mem.word (s.smp.anchor.toNat + p) = w := by
  obtain ⟨hk, rfl⟩ := List.getElem?_eq_some_iff.1 hw
  rw [hp, ← Nat.add_assoc, anchorWrite_word haligned hforce hfits hk]

theorem anchorWrite_get_outside {o : Nat} {ws : List Word} {hi a : Nat} (hhi : o + 4 * ws.length ≤ hi)
    (h : ¬AnchorByte s o hi a) : (anchorWrite o ws s).mem.get a = s.mem.get a := by
  rw [anchorWrite_mem]
  split
  · rw [AnchorByte] at h
    exact Memory.get_storeWords_outside _ _ _ _ (by omega)
  · rfl

theorem anchorWrite_word_outside {o : Nat} {ws : List Word} {x : Nat}
    (h : x + 4 ≤ s.smp.anchor.toNat + o ∨ s.smp.anchor.toNat + o + 4 * ws.length ≤ x) :
    (anchorWrite o ws s).mem.word x = s.mem.word x := by
  rw [anchorWrite_mem]
  split
  · exact Memory.word_storeWords_outside _ _ _ _ h
  · rfl

/-! ## Source events at the trigger entries -/

theorem onTrigger_get (e x : Fin 8) (f : TriggerEntry → TriggerEntry) (s : State) :
    (onTrigger e f s).etu.entries[x] = if x = e then f s.etu.entries[e] else s.etu.entries[x] := upd_get _ _ _ _

@[simp] theorem writeReport_etu (e : Fin 8) (s : State) : (writeReport e s).etu = s.etu := anchorWrite_etu ..

/-- One pass over the entries that `p` names, each changed by `f` and its report written. -/
theorem inOrder_trigger_get (l : List (Fin 8)) (hl : l.Nodup) (f : TriggerEntry → TriggerEntry) (s : State) (x : Fin 8) :
    (inOrder l (fun e t => writeReport e (onTrigger e f t)) s).etu.entries[x] =
      if x ∈ l then f s.etu.entries[x] else s.etu.entries[x] := by
  induction l generalizing s with
  | nil => simp
  | cons e l ih =>
    obtain ⟨he, hl⟩ := List.nodup_cons.1 hl
    have hstep : (inOrder (e :: l) (fun e t => writeReport e (onTrigger e f t)) s) =
      inOrder l (fun e t => writeReport e (onTrigger e f t)) (writeReport e (onTrigger e f s)) := rfl
    rw [hstep, ih hl, writeReport_etu, onTrigger_get]
    by_cases hx : x = e
    · subst hx
      simp [he]
    · simp [hx]

theorem takeEvent_eq_entryAfter {running : Bool} {ev : TriggerSource} {t : TriggerEntry}
    (h : matchesEntry ev t = true) : takeEvent running t = entryAfter running ev t := by
  simp only [matchesEntry, Bool.and_eq_true, beq_iff_eq] at h
  simp [takeEvent, entryAfter, h]

theorem entryAfter_of_not_matches {running : Bool} {ev : TriggerSource} {t : TriggerEntry}
    (h : matchesEntry ev t = false) : entryAfter running ev t = t := by
  simp only [matchesEntry, Bool.and_eq_false_iff, beq_eq_false_iff_ne, ne_eq] at h
  unfold entryAfter
  rw [if_neg]
  rintro ⟨h1, h2⟩
  rcases h with h | h
  · simp [h1] at h
  · exact h h2

theorem takeSource_entries (ev : TriggerSource) (s : State) (e : Fin 8) :
    (takeSource ev s).etu.entries[e] = entryAfter (s.smp.dev == .running) ev s.etu.entries[e] := by
  unfold takeSource
  rw [inOrder_trigger_get _ ((List.nodup_finRange 8).filter _)]
  cases h : matchesEntry ev s.etu.entries[e] with
  | true => rw [if_pos (List.mem_filter.2 ⟨List.mem_finRange e, h⟩), takeEvent_eq_entryAfter h]
  | false =>
    refine (if_neg fun hin => ?_).trans (entryAfter_of_not_matches h).symm
    exact Bool.noConfusion (h.symm.trans (List.mem_filter.1 hin).2)

theorem sourceEvent_of_not_handling (ev : TriggerSource) (h : s.etu.handling = false) :
    sourceEvent ev s = takeSource ev s := by
  simp [sourceEvent, h]

theorem sourceEvent_entries (ev : TriggerSource) (h : s.etu.handling = false) (e : Fin 8) :
    (sourceEvent ev s).etu.entries[e] = entryAfter (s.smp.dev == .running) ev s.etu.entries[e] := by
  rw [sourceEvent_of_not_handling ev h, takeSource_entries]

/-- A report lies in its place in the anchor. -/
theorem writeReport_get_outside (e : Fin 8) {a : Nat} (h : ¬AnchorByte s 0x180 0x280 a) :
    (writeReport e s).mem.get a = s.mem.get a := by
  refine anchorWrite_get_outside (hi := 0x180 + 32 * e.val + 32) (Nat.le_refl _) fun hin => h ?_
  unfold AnchorByte at hin ⊢
  have := e.isLt
  omega

theorem inOrder_trigger_mem (l : List (Fin 8)) (f : TriggerEntry → TriggerEntry) (s : State) {a : Nat}
    (h : ¬AnchorByte s 0x180 0x280 a) :
    (inOrder l (fun e t => writeReport e (onTrigger e f t)) s).mem.get a = s.mem.get a := by
  have hkeep : ∀ t, (t.smp = s.smp ∧ t.mem.get a = s.mem.get a) → ∀ e : Fin 8,
      (writeReport e (onTrigger e f t)).smp = s.smp ∧ (writeReport e (onTrigger e f t)).mem.get a = s.mem.get a := by
    rintro t ⟨hsmp, hmem⟩ e
    refine ⟨by rw [writeReport, anchorWrite_smp, onTrigger_smp, hsmp], ?_⟩
    rw [writeReport_get_outside e (by rwa [AnchorByte, onTrigger_smp, hsmp]), onTrigger_mem, hmem]
  exact (inOrder_induct (P := fun t => t.smp = s.smp ∧ t.mem.get a = s.mem.get a) ⟨rfl, rfl⟩
    fun e _ t ht => hkeep t ht e).2

theorem sourceEvent_get_outside (ev : TriggerSource) {a : Nat} (h : ¬AnchorByte s 0x180 0x280 a) :
    (sourceEvent ev s).mem.get a = s.mem.get a := by
  unfold sourceEvent
  split
  · rfl
  · exact inOrder_trigger_mem _ _ s h

/-! ## The commands on the control window -/

/-- The parts of the state beside the queue. -/
def allButQueue : List Part :=
  [.mem, .smp, .events, .due, .ftu, .ciu, .zar, .clo, .cle, .msu, .sru, .plw, .ccu, .etu, .free]

theorem exec_keepsQueue (c : Instr) (s : State) : ∃ t, exec c s = .next t ∧ t.pending = s.pending := by
  have hs : ChangesOnly allButQueue s s := .refl _ s
  cases hport : reachesPort c with
  | false =>
    obtain ⟨t, ht, hframe⟩ := exec_keepsPort c hport s
    exact ⟨t, ht, hframe .pending rfl⟩
  | true =>
    cases c
    case anchorWrite v => exact ⟨_, rfl, writeAnchorRegister_then v hs rfl .pending rfl⟩
    case setRun v => exact ⟨_, rfl, writeControl_then v hs rfl .pending rfl⟩
    case halt v => exact ⟨_, rfl, writeControl_then v hs rfl .pending rfl⟩
    case softReset v => exact ⟨_, rfl, writeControl_then v hs rfl .pending rfl⟩
    case eventClear v => exact ⟨clearEvents v s, rfl, rfl⟩
    case eventEnableWrite v => exact ⟨writeEnables v s, rfl, rfl⟩
    case controlWindowWrite o v => exact ⟨_, rfl, writeWindow_then o v hs rfl .pending rfl⟩
    case linkReset => exact ⟨_, rfl, resetDevice_then .link hs rfl .pending rfl⟩
    case powerOnReset => exact ⟨powerOn s, rfl, rfl⟩
    case anchorCheck now =>
      refine ⟨_, exec_anchorCheck now s, ?_⟩
      split
      · exact anchorCheck_then now (smpHandled_then hs rfl) rfl .pending rfl
      · rfl
    case heartbeatWatch =>
      refine ⟨_, rfl, ?_⟩
      split
      · split
        · exact heartbeatWatch_then (smpHandled_then hs rfl) rfl .pending rfl
        · rfl
      · rfl
    case enterFallback =>
      refine ⟨_, rfl, ?_⟩
      split
      · exact heartbeatWatch_then (smpHandled_then hs rfl) rfl .pending rfl
      · rfl
    all_goals exact Bool.noConfusion hport

/-- Settles O1. -/
theorem stepTakesFrontCommand : Obligations.StepTakesFrontCommand := by
  refine ⟨fun c rest s => rfl, exec_keepsQueue, fun s h => ?_⟩
  rw [step, h]

theorem writeControl_of_not_reset {v : Word} (h : v.getLsbD 1 = false) (s : State) :
    writeControl v s = writeRun (v.getLsbD 0) s := by
  rw [writeControl, h]
  rfl

theorem enterStarting_eq (s : State) : enterStarting s =
    { s with smp := { s.smp with dev := .starting, fault := .none, inForce := false, frameDue := false } } :=
  setDev_of_not_inForce (s := (endAnchor s).onSmp fun m => { m with fault := .none, frameDue := false }) rfl _

theorem abandonStart_eq (h : s.smp.inForce = false) :
    abandonStart s = { s with smp := { s.smp with dev := .halted, fault := .none } } :=
  setDev_of_not_inForce (s := s.onSmp fun m => { m with fault := .none }) h _

theorem writeRun_same {b : Bool} (h : s.smp.run = b) : writeRun b s = s := by
  simp [writeRun, h]

/-- Settles O2. -/
theorem anchorAndRunWritesByDeviceState : Obligations.AnchorAndRunWritesByDeviceState := by
  refine ⟨fun v s => ⟨_, rfl, ?_, ?_⟩, fun v s hset hsoft => ⟨_, rfl, ?_, ?_⟩, fun v s hclear hsoft => ⟨_, rfl, ?_, ?_⟩⟩
  · intro hdev
    have hstopped : s.smp.dev.stopped = true := by rcases hdev with h | h <;> rw [h] <;> rfl
    rw [← anchorOffset_eq_mask, writeAnchorRegister, if_pos hstopped]
    rfl
  · intro hdev
    have hstopped : s.smp.dev.stopped = false := by rcases hdev with h | h | h <;> rw [h] <;> rfl
    rw [writeAnchorRegister, hstopped]
    rfl
  · intro hrun hdev
    rw [writeControl_of_not_reset hsoft, hset]
    have henter : writeRun true s = enterStarting (setRunBit true s) := by
      rcases hdev with h | h <;> simp [writeRun, hrun, h]
    rw [henter, enterStarting_eq]
    rfl
  · intro hrun
    rw [writeControl_of_not_reset hsoft, hset, writeRun_same hrun]
  · intro hrun hdev hforce
    rw [writeControl_of_not_reset hsoft, hclear]
    have habandon : writeRun false s = abandonStart (setRunBit false s) := by simp [writeRun, hrun, hdev]
    rw [habandon, abandonStart_eq (s := setRunBit false s) hforce]
    rfl
  · intro hrun
    rw [writeControl_of_not_reset hsoft, hclear, writeRun_same hrun]

/-! ## The registers after a power-on reset, and the event registers -/

theorem powerOn_readRegister (s : State) (offset : BitVec 8) : readRegister (powerOn s) offset = 0 := by
  have hregisters : ∀ t : State, t.smp = Smp.reset → t.ftu.frame = 0 → readRegister t offset = 0 := by
    intro t hsmp hframe
    simp only [readRegister, statusWord, hsmp, hframe]
    simp [Smp.reset, DevState.code, FaultCode.code, ResetCause.code]
  exact hregisters _ rfl rfl

theorem interruptLine_of_no_events (h : s.smp.events = 0) : interruptLine s = false := by
  simp [interruptLine, h]

theorem le_reachPresent_tick (s : State) : s.ftu.tick ≤ (reachPresent s).ftu.tick := Nat.le_max_left ..

/-- Settles O5. -/
theorem powerOnResetSetsEveryBlock : Obligations.PowerOnResetSetsEveryBlock := by
  intro s
  refine ⟨powerOn s, rfl, rfl, rfl, rfl, rfl, rfl, rfl, rfl, rfl, rfl, rfl, interruptLine_of_no_events rfl, powerOn_readRegister s, rfl, rfl, rfl, rfl,
    rfl, rfl, rfl, rfl, rfl, rfl, le_reachPresent_tick s, rfl, rfl, rfl, rfl, rfl, rfl, rfl, rfl, rfl, rfl, rfl, rfl, rfl,
    rfl⟩

theorem interruptLine_iff (s : State) :
    interruptLine s = true ↔ ∃ e : Event, pendingFlag s e = true ∧ s.smp.enables.getLsbD e.bit = true := by
  have hbits : ∀ w : BitVec 10, (w != 0) = true ↔ ∃ e : Event, w.getLsbD e.bit = true := by
    intro w
    constructor
    · intro hw
      by_contra hnone
      simp only [not_exists, Bool.not_eq_true] at hnone
      refine (bne_iff_ne.1 hw) (BitVec.eq_of_getLsbD_eq fun i hi => ?_)
      have hcover : ∃ e : Event, e.bit = i := by
        interval_cases i
        exacts [⟨.cueDone, rfl⟩, ⟨.logOverflow, rfl⟩, ⟨.logIndexBad, rfl⟩, ⟨.fallback, rfl⟩, ⟨.resumed, rfl⟩,
          ⟨.refState, rfl⟩, ⟨.clockExpiry, rfl⟩, ⟨.linkState, rfl⟩, ⟨.groupSaturated, rfl⟩, ⟨.anchorFault, rfl⟩]
      obtain ⟨e, rfl⟩ := hcover
      rw [hnone e]
      simp
    · rintro ⟨e, he⟩
      refine bne_iff_ne.2 fun hw => ?_
      rw [hw] at he
      simp at he
  unfold interruptLine pendingFlag
  rw [hbits]
  simp only [BitVec.getLsbD_and, Bool.and_eq_true]

theorem Event.bit_lt (e : Event) : e.bit < 10 := by cases e <;> decide

theorem writeWindow_of_ignored {offset : BitVec 8} {v : Word} (h : (Instr.controlWindowWrite offset v).wf = true) :
    writeWindow offset v s = s := by
  simp only [Instr.wf, writableRegister, Bool.and_eq_true, Bool.not_eq_true', Bool.or_eq_false_iff,
    beq_eq_false_iff_ne, ne_eq] at h
  obtain ⟨-, ⟨⟨h0, h4⟩, hC⟩, h10⟩ := h
  simp only [writeWindow, h0, h4, hC, h10, if_false]

theorem and_low_ten (v : Word) : BitVec.setWidth 32 (BitVec.setWidth 10 v) = v &&& 0x3FF#32 := by
  ext i hi
  have hmask : ∀ i < 32, (0x3FF#32).getLsbD i = decide (i < 10) := by decide
  rw [← BitVec.getLsbD_eq_getElem, ← BitVec.getLsbD_eq_getElem, BitVec.getLsbD_setWidth, BitVec.getLsbD_setWidth,
    BitVec.getLsbD_and, hmask i hi, decide_eq_true hi, Bool.true_and, Bool.and_comm]

/-- Settles O6. -/
theorem eventRegistersFollowHostWrites : Obligations.EventRegistersFollowHostWrites := by
  refine ⟨fun v s => ⟨clearEvents v s, rfl, fun e => ?_, rfl⟩, fun v s => ⟨writeEnables v s, rfl, ?_, rfl⟩,
    fun offset v s h => ?_, interruptLine_iff⟩
  · have he := e.bit_lt
    simp [pendingFlag, clearEvents, he]
  · exact and_low_ten v
  · exact congrArg Host.Outcome.next (writeWindow_of_ignored h)

/-! ## The clock snapshot -/

theorem clockWords_getElem? (cs : Vector Channel 4) (c : Fin 4) :
    (clockWords cs)[3 * c.val]? = some (BitVec.ofNat 32 cs[c].count) ∧
    (clockWords cs)[3 * c.val + 1]? = some cs[c].state.code ∧
    (clockWords cs)[3 * c.val + 2]? = some cs[c].expiries := by
  obtain ⟨⟨l⟩, hl⟩ := cs
  match l, hl with
  | [a, b, c', d], _ => fin_cases c <;> exact ⟨rfl, rfl, rfl⟩

theorem clockWords_length (cs : Vector Channel 4) : (clockWords cs).length = 12 := by
  obtain ⟨⟨l⟩, hl⟩ := cs
  match l, hl with
  | [a, b, c, d], _ => rfl

/-- Settles O50. -/
theorem clockSnapshotShowsChannels : Obligations.ClockSnapshotShowsChannels := by
  intro s haligned
  refine ⟨_, rfl, fun hdue => by simp [hdue], fun hdue => ?_⟩
  rw [if_pos hdue]
  have hlen := clockWords_length s.ccu.channels
  refine ⟨anchorWrite_ccu .., writeClockSnapshot_then (ps := [.mem, .ccu]) (onCcu_then _ (.refl _ _) rfl) rfl,
    fun hforce => anchorWrite_mem_of_not_inForce (s := s.onCcu fun u => { u with frameDue := false }) hforce _ _,
    fun hforce => ⟨fun c => ?_, fun a ha => ?_⟩⟩
  · obtain ⟨hcount, hstate, hexpiries⟩ := clockWords_getElem? s.ccu.channels c
    have hword := fun p k => anchorWrite_word_at (s := s.onCcu fun u => { u with frameDue := false }) (o := 0x140)
      (ws := clockWords s.ccu.channels) haligned hforce (by omega) p k
    refine ⟨?_, ?_, ?_⟩
    · rw [Nat.add_assoc]
      exact hword _ _ (by omega) hcount
    · rw [Nat.add_assoc]
      refine (hword _ _ (by omega) hstate).trans ?_
      cases s.ccu.channels[c].state <;> rfl
    · rw [Nat.add_assoc]
      exact hword _ _ (by omega) hexpiries
  · exact anchorWrite_get_outside (s := s.onCcu fun u => { u with frameDue := false })
      (by rw [State.onCcu_ccu, hlen]) ha

/-! ## A press of a console line -/

/-- What a press gathers at the channel of its line. -/
def Channel.gather (a : LineAction) (x : Channel) : Channel :=
  { x with reqStart := x.reqStart || a == .start || (a == .toggle && x.state != .running),
           reqStop := x.reqStop || a == .stop || (a == .toggle && x.state == .running),
           reqReset := x.reqReset || a == .reset }

/-- What a press leaves in its line. -/
def ConsoleLine.pressed (l : ConsoleLine) : ConsoleLine := { l with hornHold := l.hornHold || l.action == .horn }

/-- A press as one change of a channel and one of a line. -/
def pressedCcu (n : Fin 8) (u : Ccu) : Ccu :=
  { u with channels := upd u.channels u.lines[n].channel (Channel.gather u.lines[n].action),
           lines := upd u.lines n ConsoleLine.pressed }

theorem upd_congr {α : Type} {n : Nat} {v : Vector α n} {i : Fin n} {f g : α → α} (h : f v[i] = g v[i]) :
    upd v i f = upd v i g := by
  unfold upd
  rw [h]

theorem ConsoleLine.pressed_of_not_horn {l : ConsoleLine} (h : l.action ≠ .horn) : l.pressed = l := by
  simp [ConsoleLine.pressed, beq_eq_false_iff_ne.2 h]

theorem pressedCcu_channel {n : Fin 8} {f : Channel → Channel} (hnot : s.ccu.lines[n].action ≠ .horn)
    (hf : f s.ccu.channels[s.ccu.lines[n].channel] =
      Channel.gather s.ccu.lines[n].action s.ccu.channels[s.ccu.lines[n].channel]) :
    onChannel s.ccu.lines[n].channel f s = s.onCcu (pressedCcu n) := by
  simp only [onChannel, State.onCcu, pressedCcu, upd_congr hf, upd_of_fixed (ConsoleLine.pressed_of_not_horn hnot)]

theorem pressedCcu_quiet {n : Fin 8} (hnot : s.ccu.lines[n].action ≠ .horn)
    (hf : ∀ x, Channel.gather s.ccu.lines[n].action x = x) : s.onCcu (pressedCcu n) = s := by
  simp only [State.onCcu, pressedCcu, upd_of_fixed (hf _), upd_of_fixed (ConsoleLine.pressed_of_not_horn hnot)]

theorem pressedCcu_horn {n : Fin 8} (ha : s.ccu.lines[n].action = .horn) :
    onLine n (fun l => { l with hornHold := true }) s = s.onCcu (pressedCcu n) := by
  have hgather : ∀ x, Channel.gather s.ccu.lines[n].action x = x := by simp [-Fin.getElem_fin, ha, Channel.gather, beq_eq_decide]
  have hline : ({ s.ccu.lines[n] with hornHold := true } : ConsoleLine) = s.ccu.lines[n].pressed := by
    simp [-Fin.getElem_fin, ConsoleLine.pressed, ha]
  simp only [onLine, State.onCcu, pressedCcu, upd_of_fixed (hgather _)]
  rw [upd_congr hline]

theorem pressLine_eq (n : Fin 8) (s : State) : pressLine n s = s.onCcu (pressedCcu n) := by
  unfold pressLine
  dsimp only
  split <;> rename_i ha
  case h_1 =>
    exact (pressedCcu_quiet (by simp [-Fin.getElem_fin, ha]) (by simp [-Fin.getElem_fin, ha, Channel.gather, beq_eq_decide])).symm
  case h_2 =>
    exact pressedCcu_channel (by simp [-Fin.getElem_fin, ha])
      (by simp [-Fin.getElem_fin, ha, Channel.gather, beq_eq_decide, Channel.gatherStart])
  case h_3 =>
    exact pressedCcu_channel (by simp [-Fin.getElem_fin, ha])
      (by simp [-Fin.getElem_fin, ha, Channel.gather, beq_eq_decide, Channel.gatherStop])
  case h_4 =>
    split <;> rename_i hrunning
    · exact pressedCcu_channel (by simp [-Fin.getElem_fin, ha])
        (by simp [-Fin.getElem_fin, ha, Channel.gather, beq_eq_decide, Channel.gatherStop, hrunning])
    · exact pressedCcu_channel (by simp [-Fin.getElem_fin, ha])
        (by simp [-Fin.getElem_fin, ha, Channel.gather, beq_eq_decide, Channel.gatherStart, hrunning])
  case h_5 =>
    exact pressedCcu_channel (by simp [-Fin.getElem_fin, ha])
      (by simp [-Fin.getElem_fin, ha, Channel.gather, beq_eq_decide, Channel.gatherReset])
  case h_6 => exact pressedCcu_horn ha
  case h_7 =>
    exact (pressedCcu_quiet (by simp [-Fin.getElem_fin, ha]) (by simp [-Fin.getElem_fin, ha, Channel.gather, beq_eq_decide])).symm

theorem onLine_onLine (n : Fin 8) (f g : ConsoleLine → ConsoleLine) (s : State) :
    onLine n g (onLine n f s) = onLine n (fun l => g (f l)) s := by
  simp [onLine, State.onCcu, upd]

/-- A line whose held count has reached its qualify time takes the level. -/
theorem qualifyLine_inactive {n : Fin 8} {held : Nat} (h : s.ccu.lines[n].qualifying = some (false, held))
    (hheld : s.ccu.lines[n].qualify ≤ held) : qualifyLine n s =
      onLine n (fun l => { l with qualified := false, qualifying := none, hornHold := false }) s := by
  simp only [qualifyLine, h, hheld, if_true]
  exact onLine_onLine ..

/-- The CCU after the line has become active, with its press. -/
def activeCcu (n : Fin 8) (u : Ccu) : Ccu :=
  { u with channels := upd u.channels u.lines[n].channel (Channel.gather u.lines[n].action),
           lines := upd u.lines n fun l =>
             { l with qualified := true, qualifying := none, hornHold := l.hornHold || l.action == .horn } }

theorem pressedCcu_onLine (n : Fin 8) (s : State) :
    (onLine n (fun l => { l with qualified := true, qualifying := none }) s).onCcu (pressedCcu n) =
      s.onCcu (activeCcu n) := by
  simp only [State.onCcu, onLine, pressedCcu, activeCcu]
  have hget := upd_get s.ccu.lines n n fun l => { l with qualified := true, qualifying := none }
  rw [if_pos rfl] at hget
  rw [hget]
  simp [upd, ConsoleLine.pressed]

theorem activeCcu_action (n : Fin 8) (u : Ccu) : (activeCcu n u).lines[n].action = u.lines[n].action := by
  simp only [activeCcu]
  rw [upd_get, if_pos rfl]

theorem qualifyLine_active {n : Fin 8} {held : Nat} (h : s.ccu.lines[n].qualifying = some (true, held))
    (hheld : s.ccu.lines[n].qualify ≤ held) : qualifyLine n s =
      if s.ccu.lines[n].action = .none then s.onCcu (activeCcu n)
      else sourceEvent (.consoleLine n) (s.onCcu (activeCcu n)) := by
  simp only [qualifyLine, h, hheld, if_true]
  rw [pressLine_eq, pressedCcu_onLine, State.onCcu_ccu, activeCcu_action]

theorem qualifyLine_of_held_short {n : Fin 8}
    (h : ∀ level held, s.ccu.lines[n].qualifying = some (level, held) → held < s.ccu.lines[n].qualify) :
    qualifyLine n s = s := by
  unfold qualifyLine
  split
  · rfl
  · rename_i level held hq
    rw [if_neg (Nat.not_le.2 (h level held hq))]

/-- Settles O49. -/
theorem consolePressActsOnce : Obligations.ConsolePressActsOnce := by
  refine ⟨fun n s => ⟨qualifyLine n s, rfl, qualifyLine_of_held_short, fun held h hheld => ?_, fun held h hheld => ?_⟩,
    fun s => ?_⟩
  · exact qualifyLine_inactive h hheld
  · have hframe : ChangesOnly [.mem, .ccu, .etu] s (qualifyLine n s) := qualifyLine_then n (.refl _ _) rfl
    have hccu : (qualifyLine n s).ccu = activeCcu n s.ccu := by
      rw [qualifyLine_active h hheld]
      split
      · rfl
      · exact sourceEvent_then (ps := [.mem, .etu]) _ (.refl _ (s.onCcu (activeCcu n))) rfl .ccu rfl
    refine ⟨by rw [hccu]; rfl, fun c hc => ?_, ?_, by rw [hccu]; rfl, by rw [hccu]; rfl, hframe, fun hnone => ?_,
      fun hsome hhandling hdev e => ?_⟩
    · rw [hccu]
      exact upd_get_other _ _ _ _ hc
    · rw [hccu]
      exact (upd_get _ _ _ _).trans (if_pos rfl)
    · rw [qualifyLine_active h hheld, if_pos hnone]
      exact ⟨rfl, rfl⟩
    · rw [qualifyLine_active h hheld, if_neg hsome, sourceEvent_entries (s := s.onCcu (activeCcu n)) _ hhandling]
      simp [entryAfter, hdev]
  · refine ⟨_, rfl, fun h => ?_, fun h => if_neg h⟩
    rw [if_pos h]
    refine ⟨rfl, ?_⟩
    simp [hornLine, hornHeld]

end Sys2Proof.Machine
end

section
/-! SUPPORT. What a record of the cue list shows after the part has written it (R38 to R42, 12.4), and what a command that
takes a record leaves in the record and outside it. -/

namespace Sys2Proof.Machine

/-! ## The first result word -/

theorem resultWord_status (refused : BitVec 16) (flags status : BitVec 8) :
    bits (refused ++ flags ++ status) 0 8 = status := by
  ext i hi
  rw [bits, BitVec.getElem_extractLsb', BitVec.getLsbD_append, if_pos (by omega), Nat.zero_add,
    BitVec.getLsbD_eq_getElem hi]

theorem resultWord_flag (refused : BitVec 16) (flags status : BitVec 8) (i : Nat) (hi : i < 8) :
    (refused ++ flags ++ status).getLsbD (8 + i) = flags.getLsbD i := by
  rw [BitVec.getLsbD_append, if_neg (by omega), BitVec.getLsbD_append, if_pos (by omega), show 8 + i - 8 = i by omega]

theorem resultWord_refused (refused : BitVec 16) (flags status : BitVec 8) :
    bits (refused ++ flags ++ status) 16 16 = refused := by
  ext i hi
  simp only [bits, BitVec.getElem_extractLsb', BitVec.getLsbD_append]
  rw [if_neg (by omega), if_neg (by omega), ← BitVec.getLsbD_eq_getElem, show 16 + i - 8 - 8 = i by omega]

theorem resultFlags_late (late preempted : Bool) :
    ((if late then 1#8 else 0#8) ||| (if preempted then 2#8 else 0#8)).getLsbD 0 = late := by
  revert late preempted
  decide

theorem resultFlags_preempted (late preempted : Bool) :
    ((if late then 1#8 else 0#8) ||| (if preempted then 2#8 else 0#8)).getLsbD 1 = preempted := by
  revert late preempted
  decide

theorem CueResult.words_length (r : CueResult) : r.words.length = 6 := rfl

/-- The six result words read as the result. -/
theorem resultReads_of_words {m : Memory} {a : Nat} {r : CueResult}
    (h : ∀ (k : Nat) (hk : k < 6), m.word (a + 0x28 + 4 * k) = r.words[k]) : ResultReads m a r := by
  have h0 := h 0 (by decide)
  rw [show a + 0x28 + 4 * 0 = a + 0x28 by omega] at h0
  refine ⟨?_, ?_, ?_, ?_, h 1 (by decide), h 2 (by decide), h 3 (by decide), h 4 (by decide), h 5 (by decide)⟩ <;> rw [h0]
  · exact resultWord_status ..
  · exact (resultWord_flag _ _ _ 0 (by decide)).trans (resultFlags_late ..)
  · exact (resultWord_flag _ _ _ 1 (by decide)).trans (resultFlags_preempted ..)
  · exact resultWord_refused ..

/-! ## A written record -/

variable {s t : State}

theorem cueRecord_inside {i : Nat} (hinside : CueListInside s) (hi : i < s.ciu.listLength) :
    cueOffset s i + 64 ≤ Config.memorySize := by
  have h : s.ciu.listOffset.toNat + 64 * s.ciu.listLength ≤ Config.memorySize := hinside
  unfold cueOffset
  omega

theorem recordReads_congr {u : State} (h : u.ciu = s.ciu) (i : Nat) (r : CueResult) (code : Word) :
    RecordReads u t i r code ↔ RecordReads s t i r code := by
  simp only [RecordReads, cueOffset, h]

theorem writeCue_mem_of_record {i : Nat} (hforce : s.smp.inForce = true) (hi : i < s.ciu.listLength) (r : CueResult)
    (code : Word) : (writeCue i r code s).mem =
      (s.mem.storeWords (cueOffset s i + 0x28) r.words).storeWords (cueOffset s i) [code] := by
  rw [writeCue, if_pos ⟨hforce, hi⟩, State.withMem_mem]

theorem writeCue_recordReads {i : Nat} (hinside : CueListInside s) (hforce : s.smp.inForce = true)
    (hi : i < s.ciu.listLength) (r : CueResult) (code : Word) : RecordReads s (writeCue i r code s) i r code := by
  have hfit := cueRecord_inside hinside hi
  unfold RecordReads
  rw [writeCue_mem_of_record hforce hi]
  refine ⟨Memory.word_storeWords_first _ _ _ _ (by omega), resultReads_of_words fun k hk => ?_⟩
  rw [Memory.word_storeWords_outside _ _ _ _ (.inr (by simp only [List.length_singleton]; omega))]
  exact Memory.word_storeWords _ _ _ _ hk (by omega)

theorem writeCue_get_outside {i a : Nat} (h : ¬ResultByte s i a) (r : CueResult) (code : Word) :
    (writeCue i r code s).mem.get a = s.mem.get a := by
  unfold writeCue
  split
  · unfold ResultByte at h
    rw [State.withMem_mem, Memory.get_storeWords_outside _ _ _ _ (by simp only [List.length_singleton]; omega),
      Memory.get_storeWords_outside _ _ _ _ (by rw [r.words_length]; omega)]
  · rfl

theorem writeCue_of_no_record {i : Nat} (h : ¬(s.smp.inForce = true ∧ i < s.ciu.listLength)) (r : CueResult)
    (code : Word) : writeCue i r code s = s := if_neg h

theorem writeDone_of_record {i : Nat} (h : s.smp.inForce = true ∧ i < s.ciu.listLength) (r : CueResult) :
    writeDone i r s = raise .cueDone (writeCue i r doneCode s) := if_pos h

theorem writeDone_of_no_record {i : Nat} (h : ¬(s.smp.inForce = true ∧ i < s.ciu.listLength)) (r : CueResult) :
    writeDone i r s = s := if_neg h

theorem writeDone_get_outside {i a : Nat} (h : ¬ResultByte s i a) (r : CueResult) :
    (writeDone i r s).mem.get a = s.mem.get a := by
  unfold writeDone
  split
  · exact writeCue_get_outside h _ _
  · rfl

theorem writeCue_recordWritten {i : Nat} (hinside : CueListInside s) (r : CueResult) {code : Word} (hcode : code ≠ 3#32) :
    RecordWritten s (writeCue i r code s) i r code := by
  unfold RecordWritten
  split
  · rename_i h
    refine ⟨writeCue_recordReads hinside h.1 h.2 _ _, fun a ha => writeCue_get_outside ha _ _, ?_⟩
    rw [writeCue_smp]
    exact (BitVec.or_zero).symm
  · rename_i h
    rw [writeCue_of_no_record h]
    exact ⟨rfl, rfl⟩

theorem writeDone_recordWritten {i : Nat} (hinside : CueListInside s) (r : CueResult) :
    RecordWritten s (writeDone i r s) i r 3 := by
  unfold RecordWritten
  split
  · rename_i h
    rw [writeDone_of_record h]
    refine ⟨writeCue_recordReads hinside h.1 h.2 _ _, fun a ha => writeCue_get_outside ha _ _, ?_⟩
    rw [raise_smp, writeCue_smp]
    rfl
  · rename_i h
    rw [writeDone_of_no_record h]
    exact ⟨rfl, rfl⟩

/-! ## A record as a command takes it -/

/-- A taking that writes its record DONE with a status. -/
def Taking.ends (tk : Taking) (status : Status) : Prop := tk = .done status ∨ tk = .refused status 0

theorem writeTaking_of_ends {tk : Taking} {status : Status} (h : tk.ends status) (i : Nat) (late : Bool) (s : State) :
    writeTaking i late tk s = writeDone i (takenResult s.ftu.frame late status 0) s := by
  rcases h with rfl | rfl <;> rfl

theorem writeTaking_get_outside {i a : Nat} (h : ¬ResultByte s i a) (late : Bool) (tk : Taking) :
    (writeTaking i late tk s).mem.get a = s.mem.get a := by
  cases tk with
  | refused st z => exact writeDone_get_outside h _
  | done st => exact writeDone_get_outside h _
  | accepted z => exact writeCue_get_outside h _ _

/-- The parts that a take may change before its record is written, with show memory and the pending events as they were. -/
def ownerParts : List Part := [.zar, .clo, .cle, .msu, .sru, .plw, .ccu, .etu, .free]

/-- The parts that a take may change before its record is written. -/
def takenParts : List Part := [.mem, .events, .zar, .clo, .cle, .msu, .sru, .plw, .ccu, .etu, .free]

theorem ChangesOnly.inForce {ps : List Part} (h : ChangesOnly ps s t) (hp : ps.contains .smp = false) :
    t.smp.inForce = s.smp.inForce := by
  have hcore : t.smp.core = s.smp.core := h .smp hp
  simpa only [Smp.core] using congrArg Smp.inForce hcore

theorem ChangesOnly.anchor {ps : List Part} (h : ChangesOnly ps s t) (hp : ps.contains .smp = false) :
    t.smp.anchor = s.smp.anchor := by
  have hcore : t.smp.core = s.smp.core := h .smp hp
  simpa only [Smp.core] using congrArg Smp.anchor hcore

theorem ChangesOnly.dev {ps : List Part} (h : ChangesOnly ps s t) (hp : ps.contains .smp = false) :
    t.smp.dev = s.smp.dev := by
  have hcore : t.smp.core = s.smp.core := h .smp hp
  simpa only [Smp.core] using congrArg Smp.dev hcore

theorem ChangesOnly.epoch {ps : List Part} (h : ChangesOnly ps s t) (hp : ps.contains .smp = false) :
    t.smp.anchorEpoch = s.smp.anchorEpoch := by
  have hcore : t.smp.core = s.smp.core := h .smp hp
  simpa only [Smp.core] using congrArg Smp.anchorEpoch hcore

theorem recordWritten_congr {u : State} (hmem : u.mem = s.mem) (hevents : u.smp.events = s.smp.events)
    (hforce : u.smp.inForce = s.smp.inForce) (hciu : u.ciu = s.ciu) (i : Nat) (r : CueResult) (code : Word) :
    RecordWritten u t i r code ↔ RecordWritten s t i r code := by
  simp only [RecordWritten, RecordReads, ResultByte, cueOffset, hmem, hevents, hforce, hciu]

theorem takeAndWrite_frame (take : CueTake) (act : State → Taking × State) (s : State) :
    ChangesOnly [.mem, .events] (act s).2 (takeAndWrite take act s) := writeTaking_then _ _ _ (.refl _ _) rfl

theorem takeAndWrite_takenDone {take : CueTake} {act : State → Taking × State} {status : Status}
    (hinside : CueListInside s) (hends : (act s).1.ends status) (hact : ChangesOnly ownerParts s (act s).2) :
    TakenDone s (takeAndWrite take act s) take status := by
  have hciu : (act s).2.ciu = s.ciu := hact .ciu rfl
  have hftu : (act s).2.ftu = s.ftu := hact .ftu rfl
  unfold TakenDone
  rw [← recordWritten_congr (hact .mem rfl) (hact .events rfl) (hact.inForce rfl) hciu, takeAndWrite,
    writeTaking_of_ends hends, hftu]
  exact writeDone_recordWritten (by simpa only [CueListInside, hciu] using hinside) _

theorem writeDone_standsDone {i : Nat} (hinside : CueListInside s) (hforce : s.smp.inForce = true)
    (hi : i < s.ciu.listLength) (r : CueResult) :
    RecordReads s (writeDone i r s) i r 3 ∧ pendingFlag (writeDone i r s) .cueDone = true := by
  rw [writeDone_of_record ⟨hforce, hi⟩]
  refine ⟨writeCue_recordReads hinside hforce hi _ _, ?_⟩
  simp [pendingFlag, Event.bit]

theorem takeAndWrite_standsDone {take : CueTake} {act : State → Taking × State} {status : Status}
    (hinside : CueListInside s) (hends : (act s).1.ends status) (hact : ChangesOnly takenParts s (act s).2) :
    StandsDone s (takeAndWrite take act s) take status := by
  intro hforce hi
  have hciu : (act s).2.ciu = s.ciu := hact .ciu rfl
  have hftu : (act s).2.ftu = s.ftu := hact .ftu rfl
  rw [← recordReads_congr hciu, takeAndWrite, writeTaking_of_ends hends, hftu]
  exact writeDone_standsDone (by simpa only [CueListInside, hciu] using hinside)
    ((hact.inForce rfl).trans hforce) (by rw [hciu]; exact hi) _

theorem takeAndWrite_get_outside {take : CueTake} {act : State → Taking × State} (hact : (act s).2.ciu = s.ciu) {a : Nat}
    (h : ¬ResultByte s take.index a) : (takeAndWrite take act s).mem.get a = (act s).2.mem.get a :=
  writeTaking_get_outside (by simpa only [ResultByte, cueOffset, hact] using h) _ _

/-! ## Index operands -/

theorem index_of_lt {n v : Nat} (h : v < n) : index n v = some ⟨v, h⟩ := dif_pos h

theorem index_of_le {n v : Nat} (h : n ≤ v) : index n v = none := dif_neg (Nat.not_lt.2 h)

theorem index_of_val {n v : Nat} {i : Fin n} (h : v = i.val) : index n v = some i := by
  subst h
  exact index_of_lt i.isLt

theorem index_eq_none {n v : Nat} : index n v = none ↔ n ≤ v := by
  unfold index
  split <;> simp <;> omega

theorem index_eq_some {n v : Nat} {i : Fin n} : index n v = some i ↔ v = i.val := by
  refine ⟨fun h => ?_, index_of_val⟩
  unfold index at h
  split at h
  · cases h
    rfl
  · cases h

theorem indexCheck_of_val {n : Nat} {v : BitVec 8} {i : Fin n} (h : v.toNat = i.val) : indexCheck n v = .ok i := by
  rw [indexCheck, index_of_val h]

theorem indexCheck_of_le {n : Nat} {v : BitVec 8} (h : n ≤ v.toNat) : indexCheck n v = .error .badValue := by
  rw [indexCheck, index_of_le h]

theorem takeChecked_ok {α : Type} {check : Except Status α} {a : α} (h : check = .ok a) (success : Status)
    (act : α → State → State) (s : State) : takeChecked check success act s = (.done success, act a s) := by
  rw [h]
  rfl

theorem takeChecked_error {α : Type} {check : Except Status α} {st : Status} (h : check = .error st) (success : Status)
    (act : α → State → State) (s : State) : takeChecked check success act s = (.refused st 0, s) := by
  rw [h]
  rfl

/-- A taking that leaves the state refuses its record, and nothing else changes. -/
theorem takeAndWrite_refused {take : CueTake} {act : State → Taking × State} {status : Status}
    (hinside : CueListInside s) (h : act s = (.refused status 0, s)) :
    TakenDone s (takeAndWrite take act s) take status ∧ ChangesOnly [.mem, .events] s (takeAndWrite take act s) := by
  refine ⟨takeAndWrite_takenDone hinside (by rw [h]; exact .inr rfl) (by rw [h]; exact .refl _ _), ?_⟩
  have hframe := takeAndWrite_frame take act s
  rwa [h] at hframe

end Sys2Proof.Machine
end

section
/-! SUPPORT. The cue commands of the clock channels, the console lines and the trigger entries (10.3, 10.4, 10.6, 11.2): which
check refuses a record, and what an accepted one leaves. -/

namespace Sys2Proof.Machine

/-! ## CLOCK_SET -/

/-- A value outside the allowed ones in a CLOCK_SET of a named channel, mode and reload (R158). -/
def clockOutside (p : ClockSetPayload) (c : Fin 4) (mode : ClockMode) (auto : Bool) : Prop :=
  Config.ceilingDown < p.preset.toNat ∨ limitOk mode p.limit.toNat = false ∨
    (mode = .tally ∧ (4 ≤ p.source.toNat ∨ p.source.toNat = c.val)) ∨
    (p.hornLength.toNat < 100 ∨ 5000 < p.hornLength.toNat) ∨
    (mode = .countDown ∧ auto = true ∧ p.preset.toNat < 100)

section
variable {p : ClockSetPayload} {c : Fin 4} {mode : ClockMode} {auto : Bool} {s : State}

theorem not_clockOutside (h1 : ¬Config.ceilingDown < p.preset.toNat) (h2 : limitOk mode p.limit.toNat = true)
    (h3 : ¬(mode = .tally ∧ (4 ≤ p.source.toNat ∨ p.source.toNat = c.val)))
    (h4 : ¬(p.hornLength.toNat < 100 ∨ 5000 < p.hornLength.toNat))
    (h5 : ¬(mode = .countDown ∧ auto = true ∧ p.preset.toNat < 100)) : ¬clockOutside p c mode auto := by
  rintro (h | h | h | h | h)
  · exact h1 h
  · exact Bool.noConfusion (h.symm.trans h2)
  · exact h3 h
  · exact h4 h
  · exact h5 h

theorem setClock_unnamed (h : index 4 p.channel.toNat = none ∨ clockModeOf p.mode.toNat = none ∨
    reloadOf p.reload.toNat = none) (s : State) : setClock p s = (.badValue, s) := by
  unfold setClock
  split
  · rename_i hc hm ha
    simp [hc, hm, ha] at h
  · rfl

variable (hc : index 4 p.channel.toNat = some c) (hm : clockModeOf p.mode.toNat = some mode)
  (ha : reloadOf p.reload.toNat = some auto)
include hc hm ha

theorem setClock_outside (h : clockOutside p c mode auto) : setClock p s = (.badValue, s) := by
  simp only [setClock, hc, hm, ha]
  split_ifs with h1 h2 h3 h4 h5
  all_goals first | rfl | exact absurd h (not_clockOutside h1 (by simpa using h2) h3 h4 h5)

theorem setClock_inside (h : ¬clockOutside p c mode auto) : setClock p s =
    if s.ccu.channels[c].state = .running then
      if s.ccu.channels[c].sameButPreset mode auto p then
        (.ok, onChannel c (fun x => { x with pendingPreset := some p.preset.toNat }) s)
      else (.channelRunning, s)
    else (.ok, onChannel c (fun x => x.configured mode auto p) s) := by
  simp only [clockOutside, not_or] at h
  obtain ⟨h1, h2, h3, ⟨h4, h4'⟩, h5⟩ := h
  simp only [setClock, hc, hm, ha]
  rw [if_neg h1, if_neg (by simpa using h2), if_neg h3, if_neg (by tauto), if_neg h5]

end

theorem byte_le_one {m : BitVec 8} (h : m.toNat ≤ 1) : m = 0 ∨ m = 1 := by
  bv_omega

theorem byte_le_two {m : BitVec 8} (h : m.toNat ≤ 2) : m = 0 ∨ m = 1 ∨ m = 2 := by
  bv_omega

/-- The mode that a mode field names. -/
def namedMode (m : BitVec 8) : ClockMode := if m = 0 then .countDown else if m = 1 then .countUp else .tally

theorem clockModeOf_named {m : BitVec 8} (h : m.toNat ≤ 2) : clockModeOf m.toNat = some (namedMode m) := by
  rcases byte_le_two h with rfl | rfl | rfl <;> rfl

theorem clockModeOf_unnamed {n : Nat} (h : 2 < n) : clockModeOf n = none := by
  match n, h with
  | _ + 3, _ => rfl

theorem reloadOf_named {v : BitVec 8} (h : v.toNat ≤ 1) : reloadOf v.toNat = some (v == 1) := by
  rcases byte_le_one h with rfl | rfl <;> rfl

theorem reloadOf_unnamed {n : Nat} (h : 1 < n) : reloadOf n = none := by
  match n, h with
  | _ + 2, _ => rfl

theorem namedMode_countDown {m : BitVec 8} : namedMode m = .countDown ↔ m = 0 := by
  unfold namedMode
  split_ifs <;> simp_all

theorem namedMode_countUp {m : BitVec 8} : namedMode m = .countUp ↔ m = 1 := by
  unfold namedMode
  split_ifs with h0 h1
  · simp [h0]
  · simp [h1]
  · simpa using h1

theorem namedMode_tally {m : BitVec 8} (h : m.toNat ≤ 2) : namedMode m = .tally ↔ m = 2 := by
  rcases byte_le_two h with rfl | rfl | rfl <;> decide

theorem clockOutside_named {p : ClockSetPayload} {c : Fin 4} (hm : p.mode.toNat ≤ 2) :
    clockOutside p c (namedMode p.mode) (p.reload == 1) ↔
      35999999 < p.preset.toNat ∨ (p.mode = 1 ∧ (p.limit.toNat = 0 ∨ 35999999 < p.limit.toNat)) ∨
      (p.mode = 2 ∧ (p.limit.toNat = 0 ∨ 9999 < p.limit.toNat ∨ 3 < p.source.toNat ∨ p.source.toNat = c.val)) ∨
      (p.hornLength.toNat < 100 ∨ 5000 < p.hornLength.toNat) ∨
      (p.mode = 0 ∧ p.reload = 1 ∧ p.preset.toNat < 100) := by
  have hceiling : Config.ceilingDown = 35999999 := rfl
  have hmode : namedMode 0 = .countDown ∧ namedMode 1 = .countUp ∧ namedMode 2 = .tally := by decide
  rcases byte_le_two hm with h | h | h <;> simp only [clockOutside, h, hmode, limitOk]
  · simp [hceiling]
  · simp
    omega
  · simp
    omega

theorem sameButPreset_iff {x : Channel} {mode : ClockMode} {auto : Bool} {p : ClockSetPayload} :
    x.sameButPreset mode auto p = true ↔ x.mode = mode ∧ x.auto = auto ∧ x.hornEnable = (p.horn != 0) ∧
      x.hornLength = p.hornLength.toNat ∧ (mode ≠ .countDown → x.limit = p.limit.toNat) ∧
      (mode = .tally → x.source.val = p.source.toNat) := by
  simp only [Channel.sameButPreset, Bool.and_eq_true, Bool.or_eq_true, beq_iff_eq, bne_iff_ne, ne_eq]
  tauto

theorem configured_eq (x : Channel) (auto : Bool) (p : ClockSetPayload) :
    x.configured (namedMode p.mode) auto p =
      { mode := namedMode p.mode, auto := auto, count := if p.mode = 0 then p.preset.toNat else 0,
        preset := p.preset.toNat, pendingPreset := none, limit := p.limit.toNat % 2 ^ 26,
        source := Fin.ofNat 4 p.source.toNat, hornEnable := p.horn != 0, hornLength := p.hornLength.toNat,
        state := .stopped, expiries := x.expiries, reqStart := x.reqStart, reqStop := x.reqStop,
        reqReset := x.reqReset } := by
  by_cases h0 : p.mode = 0
  · rw [namedMode, if_pos h0, if_pos h0]
    simp only [Channel.configured, Channel.load, BitVec.toNat_setWidth]
    rfl
  · by_cases h1 : p.mode = 1 <;>
      simp only [namedMode, h0, h1, if_false, if_true, Channel.configured, Channel.load, BitVec.toNat_setWidth] <;> rfl

theorem takeStatus_of {act : State → Status × State} {s t : State} {status : Status} (h : act s = (status, t)) :
    takeStatus act s = (Taking.ofStatus status, t) := by
  rw [takeStatus, h]

theorem ofStatus_ends (status : Status) : (Taking.ofStatus status).ends status := by
  unfold Taking.ofStatus
  split
  · rename_i h
    rw [h]
    exact .inl rfl
  · exact .inr rfl

theorem takeAndWrite_status {take : CueTake} {act : State → Status × State} {s t : State} {status : Status}
    (hinside : CueListInside s) (h : act s = (status, t)) (hact : ChangesOnly ownerParts s t) :
    TakenDone s (takeAndWrite take (takeStatus act) s) take status ∧
      ChangesOnly [.mem, .events] t (takeAndWrite take (takeStatus act) s) := by
  have hframe := takeAndWrite_frame take (takeStatus act) s
  rw [takeStatus_of h] at hframe
  refine ⟨takeAndWrite_takenDone hinside ?_ ?_, hframe⟩
  · rw [takeStatus_of h]
    exact ofStatus_ends _
  · rw [takeStatus_of h]
    exact hact

theorem onCcu_owner (f : Ccu → Ccu) (s : State) : ChangesOnly ownerParts s (s.onCcu f) := onCcu_then f (.refl _ _) rfl

/-- Settles O35. -/
theorem clockSetConfiguresChannel : Obligations.ClockSetConfiguresChannel := by
  intro take p s hinside
  refine ⟨_, rfl, fun hbad => ?_, fun c hc hm ha hpreset h1 h2 hlo hhi h0 => ?_,
    takeAndWrite_then take (setClock_then p (.refl _ _) rfl) rfl⟩
  · have hrefused : setClock p s = (.badValue, s) := by
      rcases Nat.lt_or_ge 3 p.channel.toNat with hc | hc
      · exact setClock_unnamed (.inl (index_of_le hc)) s
      rcases Nat.lt_or_ge 2 p.mode.toNat with hm | hm
      · exact setClock_unnamed (.inr (.inl (clockModeOf_unnamed hm))) s
      rcases Nat.lt_or_ge 1 p.reload.toNat with ha | ha
      · exact setClock_unnamed (.inr (.inr (reloadOf_unnamed ha))) s
      refine setClock_outside (index_of_lt (Nat.lt_succ_of_le hc)) (clockModeOf_named hm) (reloadOf_named ha)
        ((clockOutside_named hm).2 ?_)
      rcases hbad with h | h | h | h | h | h | h | h | h
      all_goals first | omega | tauto
    obtain ⟨hdone, hframe⟩ := takeAndWrite_status (take := take) hinside hrefused (.refl _ _)
    exact ⟨hdone, hframe .ccu rfl⟩
  · have hin : ¬clockOutside p c (namedMode p.mode) (p.reload == 1) := by
      rw [clockOutside_named hm]
      rintro (h | ⟨h, h'⟩ | ⟨h, h'⟩ | h | ⟨h, h', h''⟩)
      · omega
      · have := h1 h
        omega
      · have := h2 h
        omega
      · omega
      · have := h0 h h'
        omega
    have hset := setClock_inside (s := s) (index_of_val hc) (clockModeOf_named hm) (reloadOf_named ha) hin
    have hsame : s.ccu.channels[c].sameButPreset (namedMode p.mode) (p.reload == 1) p = true ↔
        s.ccu.channels[c].mode = namedMode p.mode ∧ s.ccu.channels[c].auto = (p.reload == 1) ∧
        s.ccu.channels[c].hornEnable = (p.horn != 0) ∧ s.ccu.channels[c].hornLength = p.hornLength.toNat ∧
        (p.mode ≠ 0 → s.ccu.channels[c].limit = p.limit.toNat) ∧
        (p.mode = 2 → s.ccu.channels[c].source.val = p.source.toNat) := by
      rw [sameButPreset_iff, ne_eq, namedMode_countDown, namedMode_tally hm]
    refine ⟨fun hstate => ?_, fun hstate hnot => ?_, fun hstate hall => ?_⟩
    · rw [if_neg hstate] at hset
      obtain ⟨hdone, hframe⟩ := takeAndWrite_status (take := take) hinside hset (onCcu_owner _ s)
      refine ⟨hdone, Eq.trans (hframe .ccu rfl) ?_⟩
      exact congrArg (fun v => ({ s.ccu with channels := v } : Ccu)) (upd_congr (configured_eq _ _ _))
    · rw [if_pos hstate, if_neg fun h => hnot (hsame.1 h)] at hset
      obtain ⟨hdone, hframe⟩ := takeAndWrite_status (take := take) hinside hset (.refl _ _)
      exact ⟨hdone, hframe .ccu rfl⟩
    · rw [if_pos hstate, if_pos (hsame.2 hall)] at hset
      obtain ⟨hdone, hframe⟩ := takeAndWrite_status (take := take) hinside hset (onCcu_owner _ s)
      exact ⟨hdone, hframe .ccu rfl⟩

/-! ## CLOCK_RUN -/

theorem runClock_unnamed {channel : BitVec 8} (h : 3 < channel.toNat) (action : BitVec 8) (delta : Word) (s : State) :
    runClock channel action delta s = (.badValue, s) := by
  rw [runClock, index_of_le h]

theorem runClock_named {channel : BitVec 8} {c : Fin 4} (h : channel.toNat = c.val) (delta : Word) (s : State) :
    runClock channel 1 delta s = runStart c s ∧ runClock channel 2 delta s = (.ok, onChannel c Channel.gatherStop s) ∧
    runClock channel 3 delta s = (.ok, onChannel c Channel.gatherReset s) ∧
    runClock channel 4 delta s = runAdjust c delta.toInt s := by
  simp only [runClock, index_of_val h]
  exact ⟨rfl, rfl, rfl, rfl⟩

theorem emptyAt_iff {x : Channel} {count : Nat} : x.emptyAt count = true ↔
    (x.mode = .countDown ∧ count = 0) ∨ (x.mode ≠ .countDown ∧ count = x.limit) := by
  unfold Channel.emptyAt
  cases x.mode <;> simp

theorem takePreset_load_count (x : Channel) :
    x.takePreset.load.count = if x.mode = .countDown then x.pendingPreset.getD x.preset else 0 := by
  unfold Channel.takePreset Channel.load
  cases h : x.mode <;> simp

theorem startEmpty_iff {x : Channel} : x.startEmpty = true ↔
    (let loaded := if x.mode = .countDown then x.pendingPreset.getD x.preset else 0
     let count := if x.reqReset then loaded else x.count
     (x.state = .expired ∧ x.reqReset = false) ∨ (x.mode = .countDown ∧ count = 0) ∨
       (x.mode ≠ .countDown ∧ count = x.limit)) := by
  unfold Channel.startEmpty
  cases h : x.reqReset
  · simp [emptyAt_iff]
  · simp [emptyAt_iff, takePreset_load_count]

theorem adjusted_eq (x : Channel) (delta : Int) : (x.adjusted delta : Int) =
    max 0 (min (if x.mode = .countDown then (35999999 : Int) else x.limit) (x.count + delta)) := by
  unfold Channel.adjusted Channel.ceiling Config.ceilingDown
  cases x.mode <;> simp <;> omega

/-- Settles O36. -/
theorem clockRunGathersAndAdjusts : Obligations.ClockRunGathersAndAdjusts := by
  intro take channel s hinside
  have hbad : ∀ (action : BitVec 8) (delta : Word), 3 < channel.toNat →
      TakenDone s (takeAndWrite take (takeStatus (runClock channel action delta)) s) take .badValue ∧
        (takeAndWrite take (takeStatus (runClock channel action delta)) s).ccu = s.ccu := fun action delta h => by
    obtain ⟨hdone, hframe⟩ := takeAndWrite_status (take := take) hinside (runClock_unnamed h action delta s) (.refl _ _)
    exact ⟨hdone, hframe .ccu rfl⟩
  have hframe : ∀ (action : BitVec 8) (delta : Word), ChangesOnly [.mem, .events, .ccu] s
      (takeAndWrite take (takeStatus (runClock channel action delta)) s) := fun action delta =>
    takeAndWrite_then take (runClock_then channel action delta (.refl _ _) rfl) rfl
  have hdoes : ∀ {action : BitVec 8} {delta : Word} {status : Status} {t : State},
      runClock channel action delta s = (status, t) → ChangesOnly ownerParts s t →
      TakenDone s (takeAndWrite take (takeStatus (runClock channel action delta)) s) take status ∧
        (takeAndWrite take (takeStatus (runClock channel action delta)) s).ccu = t.ccu := fun hrun hact => by
    obtain ⟨hdone, hframe⟩ := takeAndWrite_status (take := take) hinside hrun hact
    exact ⟨hdone, hframe .ccu rfl⟩
  refine ⟨⟨_, rfl, hbad 1 0, fun c hc => ?_, hframe 1 0⟩, ⟨_, rfl, hbad 2 0, fun c hc => ?_, hframe 2 0⟩,
    ⟨_, rfl, hbad 3 0, fun c hc => ?_, hframe 3 0⟩, fun delta => ⟨_, rfl, hbad 4 delta, fun c hc => ?_, hframe 4 delta⟩⟩
  · obtain ⟨hstart, -, -, -⟩ := runClock_named hc 0 s
    dsimp only
    rw [← startEmpty_iff]
    refine ⟨fun hempty => ?_, fun hempty => ?_⟩
    · exact hdoes (hstart.trans (if_pos hempty)) (.refl _ _)
    · exact hdoes (hstart.trans (if_neg hempty)) (onCcu_owner _ s)
  · obtain ⟨-, hstop, -, -⟩ := runClock_named hc 0 s
    exact hdoes hstop (onCcu_owner _ s)
  · obtain ⟨-, -, hreset, -⟩ := runClock_named hc 0 s
    exact hdoes hreset (onCcu_owner _ s)
  · obtain ⟨-, -, -, hadjust⟩ := runClock_named hc delta s
    refine ⟨fun hstate => hdoes (hadjust.trans (if_pos hstate)) (.refl _ _), fun hstate => ?_⟩
    obtain ⟨hdone, hccu⟩ := hdoes (hadjust.trans (if_neg hstate)) (onCcu_owner _ s)
    have hcount : (takeAndWrite take (takeStatus (runClock channel 4 delta)) s).ccu.channels[c].count =
        s.ccu.channels[c].adjusted delta.toInt := by
      rw [hccu, onChannel_ccu]
      dsimp only
      rw [upd_get, if_pos rfl]
    refine ⟨hdone, ?_, ?_⟩
    · rw [hcount, adjusted_eq]
    · rw [hcount, hccu, onChannel_ccu]
      exact congrArg (fun v => ({ s.ccu with channels := v } : Ccu)) (upd_congr rfl)

/-! ## CONSOLE_SET -/

theorem setConsole_unnamed {p : ConsolePayload} (h : index 8 p.line.toNat = none ∨ polarityOf p.polarity.toNat = none ∨
    lineActionOf p.action.toNat = none ∨ index 4 p.channel.toNat = none) (s : State) :
    setConsole p s = (.badValue, s) := by
  unfold setConsole
  split
  · rename_i hn hl ha hc
    simp [hn, hl, ha, hc] at h
  · rfl

theorem lineActionOf_eq (n : Nat) : lineActionOf n =
    [LineAction.none, .start, .stop, .toggle, .reset, .horn, .triggerOnly][n]? := by
  match n with
  | 0 | 1 | 2 | 3 | 4 | 5 | 6 => rfl
  | _ + 7 => rfl

theorem polarityOf_eq_reloadOf (n : Nat) : polarityOf n = reloadOf n := rfl

/-- Settles O37. -/
theorem consoleSetConfiguresLine : Obligations.ConsoleSetConfiguresLine := by
  intro take levels p s hinside
  refine ⟨_, rfl, fun hbad => ?_, fun n c hn hl ha hc => ?_,
    takeAndWrite_then take (setConsole_then p (setLevels_then levels (.refl _ _) rfl) rfl) rfl⟩
  · have hrefused : setConsole p (setLevels levels s) = (.badValue, setLevels levels s) := by
      refine setConsole_unnamed ?_ _
      rcases hbad with h | h | h | h
      · exact .inl (index_of_le h)
      · exact .inr (.inl (reloadOf_unnamed h))
      · refine .inr (.inr (.inl ?_))
        rw [lineActionOf_eq, List.getElem?_eq_none]
        exact h
      · exact .inr (.inr (.inr (index_of_le h)))
    obtain ⟨hdone, hframe⟩ := takeAndWrite_status (take := take) (s := setLevels levels s) hinside hrefused (.refl _ _)
    exact ⟨hdone, hframe .ccu rfl⟩
  · have hact : p.action.toNat < [LineAction.none, .start, .stop, .toggle, .reset, .horn, .triggerOnly].length :=
      Nat.lt_succ_of_le ha
    have hset := show setConsole p (setLevels levels s) = _ by
      rw [setConsole, index_of_val hn, polarityOf_eq_reloadOf, reloadOf_named hl, lineActionOf_eq,
        List.getElem?_eq_getElem hact, index_of_val hc]
    obtain ⟨hdone, hframe⟩ := takeAndWrite_status (take := take) (s := setLevels levels s) hinside hset
      (onCcu_owner _ _)
    exact ⟨hdone, _, List.getElem?_eq_getElem hact, hframe .ccu rfl⟩

end Sys2Proof.Machine
end

section
/-! SUPPORT. The cue commands of the trigger entries, the layout banks and the sponsor directory (4.3, 8.1, 11.2): which check
refuses a record, and what an accepted one leaves. -/

namespace Sys2Proof.Machine

/-! ## A taking by a check -/

theorem takeAndWrite_checked {α : Type} {check : State → Except Status α} {success : Status} {act : α → State → State}
    {s : State} {a : α} (take : CueTake) (h : check s = .ok a) (hinside : CueListInside s)
    (hact : ChangesOnly takenParts s (act a s)) :
    StandsDone s (takeAndWrite take (fun s => takeChecked (check s) success act s) s) take success ∧
      ChangesOnly [.mem, .events] (act a s) (takeAndWrite take (fun s => takeChecked (check s) success act s) s) := by
  have hframe := takeAndWrite_frame take (fun s => takeChecked (check s) success act s) s
  have htake := takeChecked_ok h success act s
  rw [htake] at hframe
  refine ⟨takeAndWrite_standsDone hinside ?_ ?_, hframe⟩ <;> rw [htake]
  · exact .inl rfl
  · exact hact

theorem takeAndWrite_checked_owner {α : Type} {check : State → Except Status α} {success : Status} {act : α → State → State}
    {s : State} {a : α} (take : CueTake) (h : check s = .ok a) (hinside : CueListInside s)
    (hact : ChangesOnly ownerParts s (act a s)) :
    TakenDone s (takeAndWrite take (fun s => takeChecked (check s) success act s) s) take success := by
  have htake := takeChecked_ok h success act s
  refine takeAndWrite_takenDone hinside ?_ ?_ <;> rw [htake]
  · exact .inl rfl
  · exact hact

theorem takeAndWrite_unchecked {α : Type} {check : State → Except Status α} {success : Status} {act : α → State → State}
    {s : State} {status : Status} (take : CueTake) (h : check s = .error status) (hinside : CueListInside s) :
    TakenDone s (takeAndWrite take (fun s => takeChecked (check s) success act s) s) take status ∧
      ChangesOnly [.mem, .events] s (takeAndWrite take (fun s => takeChecked (check s) success act s) s) :=
  takeAndWrite_refused hinside (takeChecked_error h success act s)

/-! ## TRIGGER_ARM and TRIGGER_DISARM -/

/-- A value outside the allowed ones in a TRIGGER_ARM (R171). -/
def armOutside (p : Payload) : Prop :=
  7 < (bits p.w6 16 4).toNat ∨ 3 < (bits p.w6 20 4).toNat ∨
    ((bits p.w6 20 4).toNat = 0 ∧ 3 < (bits p.w6 0 16).toNat) ∨ ((bits p.w6 20 4).toNat = 1 ∧ 7 < (bits p.w6 0 16).toNat) ∨
    (bits p.w6 28 4).toNat = 0 ∨ 2 < (bits p.w6 28 4).toNat

theorem triggerSource_eq_none {f : TriggerFields} : triggerSource f = none ↔
    3 < f.sourceKind ∨ (f.sourceKind = 0 ∧ 3 < f.sourceValue.toNat) ∨ (f.sourceKind = 1 ∧ 7 < f.sourceValue.toNat) := by
  obtain ⟨_, kind, value, _, _⟩ := f
  unfold triggerSource
  match kind with
  | 0 => simp [index_eq_none, Nat.succ_le_iff]
  | 1 => simp [index_eq_none, Nat.succ_le_iff]
  | 2 => simp
  | 3 => simp
  | _ + 4 => simp

theorem triggerAction_eq_none {f : TriggerFields} {p : Payload} :
    triggerAction f p = none ↔ f.actionKind = 0 ∨ 2 < f.actionKind := by
  obtain ⟨_, _, _, _, kind⟩ := f
  unfold triggerAction
  match kind with
  | 0 => simp
  | 1 => simp
  | 2 => simp
  | _ + 3 => simp

theorem triggerArmCheck_outside {p : Payload} (h : armOutside p) (s : State) :
    triggerArmCheck s p = .error .badValue := by
  have hnone : index 8 (triggerFields p).entry = none ∨ triggerSource (triggerFields p) = none ∨
      triggerAction (triggerFields p) p = none := by
    rw [index_eq_none, triggerSource_eq_none, triggerAction_eq_none]
    rcases h with h | h | h | h | h
    · exact .inl h
    · exact .inr (.inl (.inl h))
    · exact .inr (.inl (.inr (.inl h)))
    · exact .inr (.inl (.inr (.inr h)))
    · exact .inr (.inr h)
  unfold triggerArmCheck
  split
  · rename_i he hs ha
    simp [he, hs, ha] at hnone
  · rfl

theorem triggerArmCheck_inside {p : Payload} {e : Fin 8} (he : (bits p.w6 16 4).toNat = e.val) (h : ¬armOutside p) :
    ∃ src act, triggerSource (triggerFields p) = some src ∧ triggerAction (triggerFields p) p = some act ∧
      ∀ s : State, triggerArmCheck s p = if s.etu.entries[e].armed then .error .triggerBusy else .ok (e, src, act) := by
  have hsrc : triggerSource (triggerFields p) ≠ none := fun hn => by
    rcases triggerSource_eq_none.1 hn with hk | hk | hk
    · exact h (.inr (.inl hk))
    · exact h (.inr (.inr (.inl hk)))
    · exact h (.inr (.inr (.inr (.inl hk))))
  have hact : triggerAction (triggerFields p) p ≠ none := fun hn =>
    h (.inr (.inr (.inr (.inr (triggerAction_eq_none.1 hn)))))
  obtain ⟨src, hsrc⟩ := Option.ne_none_iff_exists'.1 hsrc
  obtain ⟨act, hact⟩ := Option.ne_none_iff_exists'.1 hact
  have hindex : index 8 (triggerFields p).entry = some e := index_of_val he
  exact ⟨src, act, hsrc, hact, fun s => by simp only [triggerArmCheck, hindex, hsrc, hact]⟩

theorem triggerAction_named {p : Payload} {act : TriggerAction} (h : triggerAction (triggerFields p) p = some act) :
    act = if (bits p.w6 28 4).toNat = 1 then .clip (clipPayload p) else .message (messagePayload p) := by
  have hkind : (triggerFields p).actionKind = (bits p.w6 28 4).toNat := rfl
  unfold triggerAction at h
  rw [hkind] at h
  split at h
  · rename_i h1
    rw [if_pos h1]
    cases h
    rfl
  · rename_i h2
    rw [if_neg (by omega)]
    cases h
    rfl
  · cases h

theorem triggerSource_named {p : Payload} {src : TriggerSource} (h : triggerSource (triggerFields p) = some src) :
    ((bits p.w6 20 4).toNat = 0 → ∃ c : Fin 4, c.val = (bits p.w6 0 16).toNat ∧ some src = some (.channelExpiry c)) ∧
    ((bits p.w6 20 4).toNat = 1 → ∃ n : Fin 8, n.val = (bits p.w6 0 16).toNat ∧ some src = some (.consoleLine n)) ∧
    ((bits p.w6 20 4).toNat = 2 → some src = some (.clipEnd (bits p.w6 0 16))) ∧
    ((bits p.w6 20 4).toNat = 3 → some src = some (.messageEnd (bits p.w6 0 16))) := by
  have hkind : (triggerFields p).sourceKind = (bits p.w6 20 4).toNat := rfl
  unfold triggerSource at h
  rw [hkind] at h
  refine ⟨fun hk => ?_, fun hk => ?_, fun hk => ?_, fun hk => ?_⟩ <;> rw [hk] at h
  · obtain ⟨c, hc, rfl⟩ := Option.map_eq_some_iff.1 h
    exact ⟨c, (index_eq_some.1 hc).symm, rfl⟩
  · obtain ⟨n, hn, rfl⟩ := Option.map_eq_some_iff.1 h
    exact ⟨n, (index_eq_some.1 hn).symm, rfl⟩
  · exact h.symm
  · exact h.symm

theorem armTrigger_etu (e : Fin 8) (src : TriggerSource) (rearm : Bool) (act : TriggerAction) (s : State) :
    (armTrigger e src rearm act s).etu = { s.etu with entries := upd s.etu.entries e fun _ =>
      { armed := true, source := some src, rearm := rearm, action := some act, pending := false,
        report := TriggerReport.zero } } := by
  rw [armTrigger, writeReport_etu, onTrigger_etu]

theorem armTrigger_get_outside {e : Fin 8} {src : TriggerSource} {rearm : Bool} {act : TriggerAction} {s : State} {a : Nat}
    (h : ¬AnchorByte s (0x180 + 32 * e.val) (0x1A0 + 32 * e.val) a) :
    (armTrigger e src rearm act s).mem.get a = s.mem.get a :=
  anchorWrite_get_outside (s := onTrigger e _ s) (hi := 0x1A0 + 32 * e.val)
    (by have hlen : ∀ r : TriggerReport, r.words.length = 8 := fun _ => rfl
        rw [hlen]
        omega) h

theorem disarmTrigger_etu (e : Fin 8) (s : State) : (disarmTrigger e s).etu = { s.etu with
    entries := upd s.etu.entries e fun x => { x with armed := false, pending := x.pending && !x.armed } } := by
  unfold disarmTrigger
  split
  · rename_i h
    rw [onTrigger_etu]
    exact congrArg (fun v => ({ s.etu with entries := v } : Etu)) (upd_congr (by simp [-Fin.getElem_fin, h]))
  · rename_i h
    rw [Bool.not_eq_true] at h
    have hfixed : ({ s.etu.entries[e] with
        armed := false, pending := s.etu.entries[e].pending && !s.etu.entries[e].armed } : TriggerEntry) =
        s.etu.entries[e] := by
      cases hentry : s.etu.entries[e]
      rw [hentry] at h
      dsimp only at h
      simp [h]
    rw [upd_of_fixed hfixed]

/-- Settles O38. -/
theorem triggerArmAndDisarm : Obligations.TriggerArmAndDisarm := by
  refine ⟨fun take p s hinside => ⟨_, rfl, ⟨fun hbad => ?_, fun e he hok => ⟨fun hbusy => ?_, fun hidle => ?_⟩⟩, ?_⟩,
    fun take entry s hinside => ⟨_, rfl, fun hbad => ?_, fun e he => ?_, ?_⟩⟩
  · obtain ⟨hdone, hframe⟩ := takeAndWrite_unchecked take (check := fun s => triggerArmCheck s p) (success := .armed)
      (act := fun r => armTrigger r.1 r.2.1 (triggerFields p).rearm r.2.2) (triggerArmCheck_outside hbad s) hinside
    exact ⟨hdone, hframe .etu rfl⟩
  · obtain ⟨src, act, -, -, hcheck⟩ := triggerArmCheck_inside he hok
    obtain ⟨hdone, hframe⟩ := takeAndWrite_unchecked take (check := fun s => triggerArmCheck s p) (success := .armed)
      (act := fun r => armTrigger r.1 r.2.1 (triggerFields p).rearm r.2.2) ((hcheck s).trans (if_pos hbusy)) hinside
    exact ⟨hdone, hframe .etu rfl⟩
  · obtain ⟨src, act, hsrc, hact, hcheck⟩ := triggerArmCheck_inside he hok
    have hcheck : triggerArmCheck s p = .ok (e, src, act) := (hcheck s).trans (if_neg (by rw [hidle]; decide))
    have harm : ChangesOnly [.etu, .mem] s (armTrigger e src (triggerFields p).rearm act s) :=
      armTrigger_then _ _ _ _ (.refl _ _) rfl
    obtain ⟨hdone, hframe⟩ := takeAndWrite_checked take (check := fun s => triggerArmCheck s p) (success := .armed)
      (act := fun r => armTrigger r.1 r.2.1 (triggerFields p).rearm r.2.2) hcheck hinside (harm.mono rfl)
    have hetu := Eq.trans (hframe .etu rfl) (armTrigger_etu e src (triggerFields p).rearm act s)
    have hentry : (takeAndWrite take (takeTriggerArm p) s).etu.entries[e] = _ :=
      (congrArg (fun u : Etu => u.entries[e]) hetu).trans ((upd_get _ _ _ _).trans (if_pos rfl))
    obtain ⟨h0, h1, h2, h3⟩ := triggerSource_named hsrc
    refine ⟨hdone, ?_, fun a hrecord hreport => ?_⟩
    · rw [hentry]
      refine ⟨rfl, rfl, rfl, rfl, ?_, h0, h1, h2, h3, hetu⟩
      rw [triggerAction_named hact]
      split <;> rfl
    · have hout := takeAndWrite_get_outside (take := take) (act := takeTriggerArm p) (s := s)
        (by rw [takeTriggerArm, takeChecked_ok hcheck]; exact harm .ciu rfl) hrecord
      refine hout.trans ?_
      rw [takeTriggerArm, takeChecked_ok hcheck]
      exact armTrigger_get_outside hreport
  · exact takeAndWrite_then take (takeTriggerArm_then p (.refl _ _) rfl) rfl
  · obtain ⟨hdone, hframe⟩ := takeAndWrite_unchecked take (check := fun _ => indexCheck 8 entry) (success := .ok)
      (act := disarmTrigger) (s := s) (indexCheck_of_le hbad) hinside
    exact ⟨hdone, hframe .etu rfl⟩
  · have hact : ChangesOnly ownerParts s (disarmTrigger e s) := disarmTrigger_then e (.refl _ _) rfl
    obtain ⟨-, hframe⟩ := takeAndWrite_checked take (check := fun _ => indexCheck 8 entry) (success := .ok)
      (act := disarmTrigger) (s := s) (indexCheck_of_val he) hinside (hact.mono rfl)
    exact ⟨takeAndWrite_checked_owner take (check := fun _ => indexCheck 8 entry) (success := .ok)
      (act := disarmTrigger) (s := s) (indexCheck_of_val he) hinside hact,
      Eq.trans (hframe .etu rfl) (disarmTrigger_etu e s)⟩
  · exact takeAndWrite_then take (takeTriggerDisarm_then entry (.refl _ _) rfl) rfl

/-! ## LOAD_LAYOUT -/

theorem anyPair_eq_false {r : ZoneDef → ZoneDef → Bool} {zs : List ZoneDef} :
    anyPair r zs = false ↔ zs.Pairwise fun a b => r a b = false := by
  induction zs with
  | nil => simp [anyPair]
  | cons z zs ih => simp [anyPair, ih]

theorem anyAcross_eq_false {r : ZoneDef → ZoneDef → Bool} {xs ys : List ZoneDef} :
    anyAcross r xs ys = false ↔ ∀ x ∈ xs, ∀ y ∈ ys, r x y = false := by
  simp [anyAcross]

theorem anyAcross_eq_true {r : ZoneDef → ZoneDef → Bool} {xs ys : List ZoneDef} :
    anyAcross r xs ys = true ↔ ∃ x ∈ xs, ∃ y ∈ ys, r x y = true := by
  simp [anyAcross]

theorem sameId_eq_false {a b : ZoneDef} : sameId a b = false ↔ a.id ≠ b.id := by simp [sameId]

theorem sameId_eq_true {a b : ZoneDef} : sameId a b = true ↔ a.id = b.id := by simp [sameId]

theorem anyPair_sameId {zs : List ZoneDef} : anyPair sameId zs = false ↔ (zs.map ZoneDef.id).Nodup := by
  simp only [anyPair_eq_false, sameId_eq_false, List.Nodup, List.pairwise_map]

/-- Where two zones of a layout, or one of it and one of bank 0, have one number, and where two overlap (R57). -/
theorem layoutConflict_eq (bank0 zones : List ZoneDef) : layoutConflict bank0 zones =
    if ¬((zones.map ZoneDef.id).Nodup ∧ ∀ d ∈ zones, ∀ c ∈ bank0, d.id ≠ c.id) then some .zoneConflict
    else if ¬(zones.Pairwise (fun d e => overlap d e = false) ∧ ∀ d ∈ zones, ∀ c ∈ bank0, overlap d c = false)
    then some .zoneOverlap else none := by
  have hids : (anyPair sameId zones || anyAcross sameId zones bank0) = true ↔
      ¬((zones.map ZoneDef.id).Nodup ∧ ∀ d ∈ zones, ∀ c ∈ bank0, d.id ≠ c.id) := by
    rw [← Bool.not_eq_false, Bool.or_eq_false_iff, anyPair_sameId, anyAcross_eq_false]
    simp only [sameId_eq_false]
  have hplaces : (anyPair overlap zones || anyAcross overlap zones bank0) = true ↔
      ¬(zones.Pairwise (fun d e => overlap d e = false) ∧ ∀ d ∈ zones, ∀ c ∈ bank0, overlap d c = false) := by
    rw [← Bool.not_eq_false, Bool.or_eq_false_iff, anyPair_eq_false, anyAcross_eq_false]
  unfold layoutConflict
  simp only [hids, hplaces]

theorem insideMemory_iff {offset bytes : Nat} : insideMemory offset bytes = true ↔ offset + bytes ≤ 2 ^ 32 := by
  exact decide_eq_true_iff

section
variable {s : State} {bank : BitVec 8} {b : Fin 4} {offset : Word} {zones : List ZoneDef}

theorem loadLayoutCheck_bank (h : bank.toNat = 0 ∨ 3 < bank.toNat) : loadLayoutCheck s bank offset = .error .badValue := by
  unfold loadLayoutCheck
  rcases h with h | h
  · rw [index_of_val (i := (0 : Fin 4)) h]
    rfl
  · rw [index_of_le h]

variable (hb : bank.toNat = b.val) (h0 : b ≠ 0)
include hb h0

theorem loadLayoutCheck_inUse (h : b = s.zar.selector) : loadLayoutCheck s bank offset = .error .bankInUse := by
  simp only [loadLayoutCheck, index_of_val hb, if_neg h0, if_pos h]

variable (hfree : b ≠ s.zar.selector)
include hfree

theorem loadLayoutCheck_place (h : offset.toNat % 4 ≠ 0) : loadLayoutCheck s bank offset = .error .badValue := by
  simp only [loadLayoutCheck, index_of_val hb, if_neg h0, if_neg hfree, if_pos h]

variable (hplace : offset.toNat % 4 = 0)
include hplace

theorem loadLayoutCheck_region (h : 2 ^ 32 < offset.toNat + 1296) : loadLayoutCheck s bank offset = .error .badRegion := by
  have hregion : insideMemory offset.toNat layoutBytes = false := by
    rw [← Bool.not_eq_true, insideMemory_iff]
    exact Nat.not_le.2 h
  simp [loadLayoutCheck, index_of_val hb, h0, hfree, hplace, hregion]

variable (hregion : offset.toNat + 1296 ≤ 2 ^ 32)
include hregion

theorem loadLayoutCheck_inside : loadLayoutCheck s bank offset =
    match readLayout s.mem offset.toNat with
    | none => .error .badValue
    | some zones =>
      match layoutConflict s.zar.banks[(0 : Fin 4)] zones with
      | some st => .error st
      | none => .ok (b, zones) := by
  have hregion : insideMemory offset.toNat layoutBytes = true := insideMemory_iff.2 hregion
  simp [loadLayoutCheck, index_of_val hb, h0, hfree, hplace, hregion] <;> rfl

end

/-- Settles O29. -/
theorem loadLayoutReplacesBankAlone : Obligations.LoadLayoutReplacesBankAlone := by
  intro take bank offset s hinside
  have hrefused : ∀ {status : Status}, loadLayoutCheck s bank offset = .error status →
      TakenDone s (takeAndWrite take (takeLoadLayout bank offset) s) take status ∧
        (takeAndWrite take (takeLoadLayout bank offset) s).zar = s.zar := fun h => by
    obtain ⟨hdone, hframe⟩ := takeAndWrite_unchecked take (check := fun s => loadLayoutCheck s bank offset)
      (success := .ok) (act := fun r => setBank r.1 r.2) h hinside
    exact ⟨hdone, hframe .zar rfl⟩
  refine ⟨_, rfl, fun h => hrefused (loadLayoutCheck_bank h), fun b hb h0 => ⟨fun hsel =>
    hrefused (loadLayoutCheck_inUse hb h0 hsel), fun hsel => ⟨fun h => hrefused (loadLayoutCheck_place hb h0 hsel h),
      fun hplace h => hrefused (loadLayoutCheck_region hb h0 hsel hplace h), fun hplace hregion => ?_⟩⟩,
    takeAndWrite_then take (takeLoadLayout_then bank offset (.refl _ _) rfl) rfl⟩
  have hcheck := loadLayoutCheck_inside (s := s) hb h0 hsel hplace hregion
  refine ⟨fun hread => hrefused (by rw [hcheck, hread]), fun zones hread => ?_⟩
  rw [hread] at hcheck
  dsimp only at hcheck
  rw [layoutConflict_eq] at hcheck
  refine ⟨fun hids => hrefused ?_, fun hnodup hacross => ⟨fun hplaces => hrefused ?_, fun hpairs hover => ?_⟩⟩
  · rw [hcheck, if_pos hids]
  · rw [hcheck, if_neg (not_not.2 ⟨hnodup, hacross⟩), if_pos hplaces]
  · rw [if_neg (not_not.2 ⟨hnodup, hacross⟩), if_neg (not_not.2 ⟨hpairs, hover⟩)] at hcheck
    have hact : ChangesOnly ownerParts s (setBank b zones s) := setBank_then b zones (.refl _ _) rfl
    obtain ⟨-, hframe⟩ := takeAndWrite_checked take (check := fun s => loadLayoutCheck s bank offset)
      (success := .ok) (act := fun r => setBank r.1 r.2) hcheck hinside (hact.mono rfl)
    have hzar : (takeAndWrite take (takeLoadLayout bank offset) s).zar = (setBank b zones s).zar := hframe .zar rfl
    have hbank : ∀ c : Fin 4, (setBank b zones s).zar.banks[c] = if c = b then zones else s.zar.banks[c] := fun c =>
      upd_get _ _ _ _
    refine ⟨takeAndWrite_checked_owner take (check := fun s => loadLayoutCheck s bank offset)
      (success := .ok) (act := fun r => setBank r.1 r.2) hcheck hinside hact, ?_, fun c hc => ?_, ?_, ?_⟩ <;> rw [hzar]
    · rw [hbank, if_pos rfl]
    · rw [hbank, if_neg hc]
    · rfl
    · rfl

/-! ## SPONSOR_WRITE -/

theorem noOpenSlot_iff {r : Sru} {i : Fin 64} :
    noOpenSlot r i = true ↔ ¬∃ (g : Fin 8) (x : Slot), r.groups[g].openSlot = some x ∧ x.entry = i := by
  simp only [noOpenSlot, List.all_eq_true, List.mem_finRange, forall_const, not_exists, not_and]
  refine forall_congr' fun g => ?_
  cases r.groups[g].openSlot <;> simp

theorem settled_eq_false {r : Sru} {i : Fin 64} : settled r i = false ↔ ∃ g : Fin 8, r.accounts[g][i].balance ≠ 0 := by
  simp [settled, -Fin.getElem_fin]

section
variable {s : State} {entry : BitVec 8} {i : Fin 64} {offset : Word}

theorem sponsorWriteCheck_entry (h : 63 < entry.toNat) : sponsorWriteCheck s entry offset = .error .badValue := by
  rw [sponsorWriteCheck, index_of_le h]

variable (hi : entry.toNat = i.val)
include hi

theorem sponsorWriteCheck_busy (h : s.sru.entries[i].active = true ∨
    ∃ (g : Fin 8) (x : Slot), s.sru.groups[g].openSlot = some x ∧ x.entry = i) :
    sponsorWriteCheck s entry offset = .error .entryBusy := by
  rw [← not_not (a := ∃ _, _), ← noOpenSlot_iff] at h
  simp only [sponsorWriteCheck, index_of_val hi]
  exact if_pos (by simpa [-Fin.getElem_fin] using h)

variable (hbusy : ¬(s.sru.entries[i].active = true ∨
    ∃ (g : Fin 8) (x : Slot), s.sru.groups[g].openSlot = some x ∧ x.entry = i))
include hbusy

theorem sponsorWriteCheck_free : sponsorWriteCheck s entry offset =
    if offset.toNat % 4 ≠ 0 then .error .badValue
    else if !insideMemory offset.toNat sponsorBytes then .error .badRegion
    else
      match readSponsor s.mem offset.toNat with
      | none => .error .badValue
      | some d =>
        if !d.creatives.all (fun c => insideMemory c.base (regionBytes c.pitch c.width c.height c.count)) then
          .error .badRegion
        else if d.sponsorId ≠ s.sru.entries[i].sponsorId ∧ settled s.sru i = false then .error .entryUnsettled
        else .ok (i, d) := by
  have hfree : ¬((s.sru.entries[i].active || !noOpenSlot s.sru i) = true) := by
    rw [Bool.or_eq_true, Bool.not_eq_true', ← Bool.not_eq_true, noOpenSlot_iff, not_not]
    exact hbusy
  simp only [sponsorWriteCheck, index_of_val hi]
  exact if_neg hfree

end

theorem creatives_outside {cs : List Creative} :
    (!cs.all fun c => insideMemory c.base (regionBytes c.pitch c.width c.height c.count)) = true ↔
      ∃ c ∈ cs, 2 ^ 32 < c.base + ((c.count - 1) * c.pitch + c.width * c.height * 4) := by
  simp only [Bool.not_eq_true', List.all_eq_false, insideMemory_iff, not_le, regionBytes]

theorem writeEntry_accounts (i : Fin 64) (d : Entry) (s : State) (g : Fin 8) (j : Fin 64) :
    (writeEntry i d s).sru.accounts[g][j] =
      if j = i then { s.sru.accounts[g][j] with cursor := 0 } else s.sru.accounts[g][j] := by
  have hget : (writeEntry i d s).sru.accounts[g] = upd s.sru.accounts[g] i fun a => { a with cursor := 0 } := by
    simp [writeEntry]
  rw [hget, upd_get]
  split
  · rename_i h
    rw [h]
  · rfl

/-- Settles O31. -/
theorem sponsorWriteCopiesDefinition : Obligations.SponsorWriteCopiesDefinition := by
  intro take entry offset s hinside
  have hrefused : ∀ {status : Status}, sponsorWriteCheck s entry offset = .error status →
      TakenDone s (takeAndWrite take (takeSponsorWrite entry offset) s) take status ∧
        (takeAndWrite take (takeSponsorWrite entry offset) s).sru = s.sru := fun h => by
    obtain ⟨hdone, hframe⟩ := takeAndWrite_unchecked take (check := fun s => sponsorWriteCheck s entry offset)
      (success := .ok) (act := fun r => writeEntry r.1 r.2) h hinside
    exact ⟨hdone, hframe .sru rfl⟩
  refine ⟨_, rfl, fun h => hrefused (sponsorWriteCheck_entry h), fun i hi => ⟨fun hbusy =>
    hrefused (sponsorWriteCheck_busy hi hbusy), fun hbusy hplace => ?_, fun hbusy hplace hregion => ?_,
      fun hbusy hplace hregion => ?_⟩,
    takeAndWrite_then take (takeSponsorWrite_then entry offset (.refl _ _) rfl) rfl⟩ <;>
    have hcheck := sponsorWriteCheck_free (offset := offset) hi hbusy
  · exact hrefused (hcheck.trans (if_pos hplace))
  · rw [if_neg (not_not.2 hplace), if_pos] at hcheck
    · exact hrefused hcheck
    · rw [Bool.not_eq_true', ← Bool.not_eq_true, insideMemory_iff]
      exact Nat.not_le.2 hregion
  · have hin : insideMemory offset.toNat sponsorBytes = true := insideMemory_iff.2 hregion
    rw [if_neg (not_not.2 hplace), hin] at hcheck
    refine ⟨fun hread => hrefused (by rw [hcheck, hread]; rfl), fun d hread => ?_⟩
    rw [hread] at hcheck
    dsimp only at hcheck
    rw [if_neg (by decide)] at hcheck
    refine ⟨fun hout => hrefused ?_, fun hout hunsettled => hrefused ?_, fun hout hsettled => ?_⟩
    · rw [hcheck, if_pos (creatives_outside.2 hout)]
    · rw [hcheck, if_neg (mt creatives_outside.1 hout), if_pos ⟨hunsettled.1, settled_eq_false.2 hunsettled.2⟩]
    · rw [if_neg (mt creatives_outside.1 hout), if_neg fun h => hsettled ⟨h.1, settled_eq_false.1 h.2⟩] at hcheck
      have hact : ChangesOnly ownerParts s (writeEntry i d s) := writeEntry_then i d (.refl _ _) rfl
      obtain ⟨-, hframe⟩ := takeAndWrite_checked take (check := fun s => sponsorWriteCheck s entry offset)
        (success := .ok) (act := fun r => writeEntry r.1 r.2) hcheck hinside (hact.mono rfl)
      have hsru : (takeAndWrite take (takeSponsorWrite entry offset) s).sru = (writeEntry i d s).sru := hframe .sru rfl
      refine ⟨takeAndWrite_checked_owner take (check := fun s => sponsorWriteCheck s entry offset)
        (success := .ok) (act := fun r => writeEntry r.1 r.2) hcheck hinside hact, ?_, fun g j => ?_, ?_, ?_, ?_⟩ <;>
        rw [hsru]
      · rfl
      · exact writeEntry_accounts i d s g j
      · rfl
      · rfl
      · rfl

end Sys2Proof.Machine
end

section
/-! SUPPORT. The rotation groups, slot by slot: what a close, a cut, a release and a clear make of every group and of every
account (8.1, 8.2, 8.5, 9.5). -/

namespace Sys2Proof.Machine

/-! ## One pass over distinct keys -/

/-- Where each act changes what stands at its own key alone, a pass over distinct keys changes what stands at each of them once. -/
theorem inOrder_keyed {ι α : Type} [DecidableEq ι] {proj : ι → State → α} {h : ι → α → α} {f : ι → State → State}
    (hf : ∀ i j t, proj j (f i t) = if j = i then h i (proj i t) else proj j t) (l : List ι) (hl : l.Nodup) (s : State)
    (j : ι) : proj j (inOrder l f s) = if j ∈ l then h j (proj j s) else proj j s := by
  induction l generalizing s with
  | nil => rfl
  | cons i l ih =>
    obtain ⟨hi, hl⟩ := List.nodup_cons.1 hl
    have hstep : inOrder (i :: l) f s = inOrder l f (f i s) := rfl
    rw [hstep, ih hl, hf]
    by_cases hj : j = i
    · subst hj
      simp [hi]
    · simp [hj]

theorem inFreeOrder_keyed {ι α : Type} [DecidableEq ι] {proj : ι → State → α} {h : ι → α → α} {f : ι → State → State}
    (hf : ∀ i j t, proj j (f i t) = if j = i then h i (proj i t) else proj j t) (hfree : ∀ j t, proj j t.nextFree = proj j t)
    (l : List ι) (hl : l.Nodup) (s : State) (j : ι) :
    proj j (inFreeOrder l f s) = if j ∈ l then h j (proj j s) else proj j s := by
  have hinOrder : inFreeOrder l f s = inOrder (freeOrder s.free l) f s.nextFree := rfl
  rw [hinOrder, inOrder_keyed hf _ ((freeOrder_perm _ _).nodup_iff.2 hl), hfree]
  simp only [freeOrder_mem]

/-! ## Groups -/

/-- What a cut makes of an open slot (R134). -/
def cutOpen : Option Slot → Option Slot
  | none => none
  | some x =>
    if x.closing then some x else if x.outstanding = none then none else some { x with cut := true, closing := true }

theorem onGroup_onGroup (g : Fin 8) (f h : RotationGroup → RotationGroup) (s : State) :
    onGroup g h (onGroup g f s) = onGroup g (fun r => h (f r)) s := by
  simp [onGroup, State.onSru, upd]

theorem closeSlot_openSlot (g : Fin 8) (s : State) : (closeSlot g s).sru.groups[g].openSlot = none := by
  obtain ⟨n, h⟩ := closeSlot_groups g s g
  rw [h, if_pos rfl]

theorem closeSlot_groups_other {g h : Fin 8} (hne : h ≠ g) (s : State) :
    (closeSlot g s).sru.groups[h] = s.sru.groups[h] := by
  obtain ⟨n, hn⟩ := closeSlot_groups g s h
  rw [hn, if_neg hne]

theorem cutSlot_groups_other {g h : Fin 8} (hne : h ≠ g) (s : State) : (cutSlot g s).sru.groups[h] = s.sru.groups[h] := by
  obtain ⟨-, hc⟩ | ⟨x, -, ⟨-, hc⟩ | ⟨-, t, ht, hc⟩⟩ := cutSlot_cases g s
  · rw [hc]
  · rw [hc]
  · have htgroup : t.sru.groups[h] = s.sru.groups[h] := by rw [ht, onGroup_get, if_neg hne]
    rw [hc, ← htgroup]
    split
    · exact closeSlot_groups_other hne t
    · rfl

theorem cutSlot_openSlot (g : Fin 8) (s : State) :
    (cutSlot g s).sru.groups[g].openSlot = cutOpen s.sru.groups[g].openSlot := by
  obtain ⟨hopen, hc⟩ | ⟨x, hopen, ⟨hx, hc⟩ | ⟨hx, t, ht, hc⟩⟩ := cutSlot_cases g s <;> rw [hc, hopen]
  · rfl
  · simp [cutOpen, hx]
  · simp only [cutOpen, hx, Bool.false_eq_true, if_false]
    split
    · exact closeSlot_openSlot g t
    · rw [ht, onGroup_get_self]

/-- What a cut leaves of its group. -/
theorem cutSlot_group_fields (g h : Fin 8) (s : State) :
    (cutSlot g s).sru.groups[h].enabled = s.sru.groups[h].enabled ∧
    (cutSlot g s).sru.groups[h].zones = s.sru.groups[h].zones ∧
    (cutSlot g s).sru.groups[h].saturated = s.sru.groups[h].saturated ∧
    (cutSlot g s).sru.groups[h].slotNumber = s.sru.groups[h].slotNumber :=
  ⟨cutSlot_field RotationGroup.enabled (fun _ _ _ => rfl) g s h, cutSlot_field RotationGroup.zones (fun _ _ _ => rfl) g s h,
    cutSlot_field RotationGroup.saturated (fun _ _ _ => rfl) g s h,
    cutSlot_field RotationGroup.slotNumber (fun _ _ _ => rfl) g s h⟩

/-! ## The directory and the accounts -/

/-- Where a record handed over goes. -/
theorem handRecord_cases (r : PlayRecord) (s : State) :
    handRecord r s = dropRecord r s ∨ handRecord r s = writeRecord r (testReadIndex s) ∨
      handRecord r s = holdRecord r (testReadIndex s) ∨ handRecord r s = holdRecord r s := by
  unfold handRecord
  split
  · exact .inl rfl
  · split
    · split
      · exact .inr (.inl rfl)
      · exact .inr (.inr (.inl rfl))
    · exact .inr (.inr (.inr rfl))

theorem dropRecord_sru (r : PlayRecord) (s : State) : (dropRecord r s).sru =
    if r.preClear then s.sru else (addUnlogged r.group r.entry r.zoneFrames s).sru := by
  unfold dropRecord
  dsimp only
  rw [raise_sru, anchorWrite_sru, State.onPlw_sru]
  split <;> rfl

theorem writeRecord_sru (r : PlayRecord) (s : State) : (writeRecord r s).sru =
    if r.preClear then s.sru else (addLogged r.group r.entry r.zoneFrames s).sru := by
  unfold writeRecord
  dsimp only
  split
  · rw [anchorWrite_sru, State.onPlw_sru, State.withMem_sru]
  · rw [addLogged, addLogged, onAccount_sru, onAccount_sru, anchorWrite_sru, State.onPlw_sru, State.withMem_sru]

/-- A record handed over leaves the unit as it was, or adds to the log counts of one account. -/
theorem handRecord_sru (r : PlayRecord) (s : State) : (handRecord r s).sru = s.sru ∨
    (handRecord r s).sru = (addLogged r.group r.entry r.zoneFrames s).sru ∨
    (handRecord r s).sru = (addUnlogged r.group r.entry r.zoneFrames s).sru := by
  have hlogged : (addLogged r.group r.entry r.zoneFrames (testReadIndex s)).sru =
      (addLogged r.group r.entry r.zoneFrames s).sru := by
    rw [addLogged, addLogged, onAccount_sru, onAccount_sru, testReadIndex_sru]
  rcases handRecord_cases r s with h | h | h | h <;> rw [h]
  · rw [dropRecord_sru]
    split
    · exact .inl rfl
    · exact .inr (.inr rfl)
  · rw [writeRecord_sru, testReadIndex_sru, hlogged]
    split
    · exact .inl rfl
    · exact .inr (.inl rfl)
  · exact .inl (by rw [holdRecord_sru, testReadIndex_sru])
  · exact .inl rfl

/-- A close hands the record over, takes the slot out of its group and counts a snapshot. -/
theorem closeSlot_sru (g : Fin 8) (s : State) : (closeSlot g s).sru = s.sru ∨
    ∃ (x : Slot) (gs : Vector RotationGroup 8), s.sru.groups[g].openSlot = some x ∧ (closeSlot g s).sru =
      { (handRecord (x.record g) (onGroup g (fun r => { r with openSlot := none }) s)).sru with groups := gs } := by
  unfold closeSlot
  split
  · exact .inl rfl
  · rename_i x hx
    refine .inr ⟨x, ?_⟩
    dsimp only
    split
    · unfold writeSnapshot
      split
      · exact ⟨_, hx, rfl⟩
      · exact ⟨_, hx, rfl⟩
    · exact ⟨_, hx, rfl⟩

/-- A cut leaves the unit as it was, marks the slot, or closes it. -/
theorem cutSlot_sru (g : Fin 8) (s : State) : ∃ gs : Vector RotationGroup 8,
    (cutSlot g s).sru = { s.sru with groups := gs } ∨
    ∃ (x : Slot) (f : RotationGroup → RotationGroup), (cutSlot g s).sru =
      { (handRecord (x.record g) (onGroup g f s)).sru with groups := gs } := by
  obtain ⟨-, hc⟩ | ⟨x, -, ⟨-, hc⟩ | ⟨-, t, ht, hc⟩⟩ := cutSlot_cases g s <;> rw [hc]
  · exact ⟨_, .inl rfl⟩
  · exact ⟨_, .inl rfl⟩
  · split
    · rcases closeSlot_sru g t with h | ⟨y, gs, -, h⟩
      · rw [h, ht]
        exact ⟨_, .inl rfl⟩
      · refine ⟨gs, .inr ⟨y, fun r => { ({ r with openSlot := some { x with cut := true, closing := true } } :
          RotationGroup) with openSlot := none }, ?_⟩⟩
        rw [h, ht, onGroup_onGroup]
    · rw [ht]
      exact ⟨_, .inl rfl⟩

section
variable {α : Type} {F : Sru → α} (hF : ∀ (r : Sru) gs as, F { r with groups := gs, accounts := as } = F r)
include hF

/-- What stands in the unit beside its groups and accounts. -/
theorem handRecord_sru_field (r : PlayRecord) (s : State) : F (handRecord r s).sru = F s.sru := by
  rcases handRecord_sru r s with h | h | h <;> rw [h]
  · exact hF s.sru s.sru.groups _
  · exact hF s.sru s.sru.groups _

theorem closeSlot_sru_field (g : Fin 8) (s : State) : F (closeSlot g s).sru = F s.sru := by
  rcases closeSlot_sru g s with h | ⟨x, gs, -, h⟩ <;> rw [h]
  generalize hu : handRecord _ _ = u
  refine (hF u.sru gs u.sru.accounts).trans ?_
  rw [← hu, handRecord_sru_field hF]
  exact hF s.sru _ s.sru.accounts

theorem cutSlot_sru_field (g : Fin 8) (s : State) : F (cutSlot g s).sru = F s.sru := by
  obtain ⟨gs, h | ⟨x, f, h⟩⟩ := cutSlot_sru g s <;> rw [h]
  · exact hF s.sru gs s.sru.accounts
  · generalize hu : handRecord _ _ = u
    refine (hF u.sru gs u.sru.accounts).trans ?_
    rw [← hu, handRecord_sru_field hF]
    exact hF s.sru _ s.sru.accounts

end

section
variable {α : Type} {F : Account → α} (hF : ∀ (a : Account) l u, F { a with logged := l, unlogged := u } = F a)
include hF

/-- A record handed over reaches the log counts of the accounts alone. -/
theorem handRecord_account_field (r : PlayRecord) (s : State) (g : Fin 8) (i : Fin 64) :
    F (handRecord r s).sru.accounts[g][i] = F s.sru.accounts[g][i] := by
  have hbooked : ∀ f : Account → Account, (∀ a, F (f a) = F a) →
      F (onAccount r.group r.entry f s).sru.accounts[g][i] = F s.sru.accounts[g][i] := fun f hf => by
    rw [onAccount_get]
    split
    · rename_i h
      obtain ⟨rfl, rfl⟩ := h
      exact hf _
    · rfl
  rcases handRecord_sru r s with h | h | h <;> simp only [h]
  · exact hbooked _ fun a => hF a _ a.unlogged
  · exact hbooked _ fun a => hF a a.logged _

theorem cutSlot_account_field (g : Fin 8) (s : State) (g' : Fin 8) (i : Fin 64) :
    F (cutSlot g s).sru.accounts[g'][i] = F s.sru.accounts[g'][i] := by
  obtain ⟨gs, h | ⟨x, f, h⟩⟩ := cutSlot_sru g s <;> simp only [h]
  exact handRecord_account_field hF _ _ _ _

end

/-! ## ACTIVATE and RETIRE (R125, R134) -/

theorem cutSlot_openSlot_keyed (g h : Fin 8) (t : State) : (cutSlot g t).sru.groups[h].openSlot =
    if h = g then cutOpen t.sru.groups[g].openSlot else t.sru.groups[h].openSlot := by
  split
  · rename_i hgh
    rw [hgh]
    exact cutSlot_openSlot g t
  · rename_i hgh
    exact congrArg RotationGroup.openSlot (cutSlot_groups_other hgh t)

theorem mem_groupsShowing {r : Sru} {i : Fin 64} {g : Fin 8} {x : Slot} (h : r.groups[g].openSlot = some x) :
    g ∈ groupsShowing r i ↔ x.closing = false ∧ x.entry = i := by
  simp only [groupsShowing, List.mem_filter, List.mem_finRange, true_and, h, Bool.and_eq_true, Bool.not_eq_true',
    beq_iff_eq]

theorem retireEntry_openSlot {i : Fin 64} {s : State} (hactive : s.sru.entries[i].active = true) (g : Fin 8) {x : Slot}
    (hx : s.sru.groups[g].openSlot = some x) : (retireEntry i s).sru.groups[g].openSlot =
      if x.closing = false ∧ x.entry = i then
        (if x.outstanding = none then none else some { x with cut := true, closing := true })
      else some x := by
  rw [retireEntry, if_pos hactive]
  have hkeyed := inFreeOrder_keyed (proj := fun (g : Fin 8) (t : State) => t.sru.groups[g].openSlot)
    (h := fun _ => cutOpen) (f := cutSlot) cutSlot_openSlot_keyed (fun _ _ => rfl)
    (groupsShowing s.sru i) ((List.nodup_finRange 8).filter _)
    (s.onSru fun r => { r with entries := upd r.entries i fun e => { e with active := false } }) g
  have hgroups : (s.onSru fun r => { r with
    entries := upd r.entries i fun e => { e with active := false } }).sru.groups[g].openSlot = some x := hx
  refine hkeyed.trans ?_
  simp only [mem_groupsShowing hx, hgroups]
  split
  · rename_i h
    simp [cutOpen, h.1]
  · rfl

theorem retireEntry_entries (i : Fin 64) (s : State) :
    (retireEntry i s).sru.entries = upd s.sru.entries i fun e => { e with active := false } := by
  unfold retireEntry
  split
  · exact inFreeOrder_induct
      (P := fun t => t.sru.entries = upd s.sru.entries i fun e => { e with active := false }) rfl
      fun g _ t ht => (cutSlot_sru_field (F := Sru.entries) (fun _ _ _ => rfl) g t).trans ht
  · rename_i h
    rw [Bool.not_eq_true] at h
    rw [upd_of_fixed]
    cases he : s.sru.entries[i]
    rw [he] at h
    dsimp only at h
    rw [h]

theorem retireEntry_account_field {α : Type} {F : Account → α}
    (hF : ∀ (a : Account) l u, F { a with logged := l, unlogged := u } = F a) (i : Fin 64) (s : State) (g : Fin 8)
    (j : Fin 64) : F (retireEntry i s).sru.accounts[g][j] = F s.sru.accounts[g][j] := by
  unfold retireEntry
  split
  · exact inFreeOrder_induct (P := fun t => F t.sru.accounts[g][j] = F s.sru.accounts[g][j]) rfl
      fun h _ t ht => (cutSlot_account_field hF h t g j).trans ht
  · rfl

/-- Settles O32. -/
theorem sponsorStateActivatesAndRetires : Obligations.SponsorStateActivatesAndRetires := by
  refine ⟨fun take entry s hinside => ⟨_, rfl, fun hbad => ?_, fun i hi => ?_, ?_⟩,
    fun take entry s hinside => ⟨_, rfl, fun hbad => ?_, fun i hi => ?_⟩⟩
  · obtain ⟨hdone, hframe⟩ := takeAndWrite_unchecked take (check := fun _ => indexCheck 64 entry) (success := .ok)
      (act := activateEntry) (s := s) (indexCheck_of_le hbad) hinside
    exact ⟨hdone, hframe .sru rfl⟩
  · have hact : ChangesOnly ownerParts s (activateEntry i s) := activateEntry_then i (.refl _ _) rfl
    obtain ⟨-, hframe⟩ := takeAndWrite_checked take (check := fun _ => indexCheck 64 entry) (success := .ok)
      (act := activateEntry) (s := s) (indexCheck_of_val hi) hinside (hact.mono rfl)
    exact ⟨takeAndWrite_checked_owner take (check := fun _ => indexCheck 64 entry) (success := .ok)
      (act := activateEntry) (s := s) (indexCheck_of_val hi) hinside hact, hframe .sru rfl⟩
  · exact takeAndWrite_then take (takeActivate_then entry (.refl _ _) rfl) rfl
  · obtain ⟨hdone, hframe⟩ := takeAndWrite_unchecked take (check := fun _ => indexCheck 64 entry) (success := .ok)
      (act := retireEntry) (s := s) (indexCheck_of_le hbad) hinside
    exact ⟨hdone, hframe .sru rfl⟩
  · have hact : ChangesOnly [.sru, .plw, .events, .mem, .free] s (retireEntry i s) := retireEntry_then i (.refl _ _) rfl
    obtain ⟨hdone, hframe⟩ := takeAndWrite_checked take (check := fun _ => indexCheck 64 entry) (success := .ok)
      (act := retireEntry) (s := s) (indexCheck_of_val hi) hinside (hact.mono rfl)
    have hsru : (takeAndWrite take (takeRetire entry) s).sru = (retireEntry i s).sru := hframe .sru rfl
    refine ⟨fun hidle => ⟨?_, ?_⟩, ?_, fun g x hactive hx => ?_, fun g j => ?_, hdone, ?_⟩
    · refine takeAndWrite_checked_owner take (check := fun _ => indexCheck 64 entry) (success := .ok)
        (act := retireEntry) (s := s) (indexCheck_of_val hi) hinside ?_
      rw [retireEntry, if_neg (by rw [hidle]; decide)]
      exact .refl _ _
    · rw [hsru, retireEntry, if_neg (by rw [hidle]; decide)]
    · rw [hsru, retireEntry_entries]
    · rw [hsru, retireEntry_openSlot hactive g hx]
    · rw [hsru]
      exact ⟨retireEntry_account_field (F := Account.balance) (fun _ _ _ => rfl) i s g j,
        retireEntry_account_field (F := Account.delivered) (fun _ _ _ => rfl) i s g j,
        retireEntry_account_field (F := Account.plays) (fun _ _ _ => rfl) i s g j,
        retireEntry_account_field (F := Account.cursor) (fun _ _ _ => rfl) i s g j⟩
    · exact takeAndWrite_then take (takeRetire_then entry (.refl _ _) rfl) rfl

/-! ## ENABLE and DISABLE (R72, R127, R134) -/

theorem insertClaim_last {c : Claim} {cs : List Claim} (h : ∀ d ∈ cs, d.level ≤ c.level) :
    insertClaim c cs = cs ++ [c] := by
  have hall : ∀ d ∈ cs, decide (d.level ≤ c.level) = true := fun d hd => decide_eq_true (h d hd)
  rw [insertClaim, List.takeWhile_eq_self_iff.2 hall, List.dropWhile_eq_nil_iff.2 hall]

theorem claimsAt_eq {z : Zar} {i : Fin 16} {o : Option ZoneEntry} (h : z.table[i] = o) :
    claimsAt z i = (o.map ZoneEntry.claims).getD [] := by
  rw [claimsAt, h]

theorem claimsAt_onAllClaims (z : Zar) (f : List Claim → List Claim) (hf : f [] = []) (i : Fin 16) :
    claimsAt (z.onAllClaims f) i = f (claimsAt z i) := by
  rw [claimsAt_eq (Zar.onAllClaims_get z f i), claimsAt]
  cases z.table[i] with
  | none => exact hf.symm
  | some e => rfl

theorem releaseClaims_claimsAt (who : Claimant) (s : State) (z : Fin 16) :
    claimsAt (releaseClaims who s).zar z = (claimsAt s.zar z).filter fun c => c.who != who :=
  claimsAt_onAllClaims _ (removeClaim who) rfl z

/-- One pass over distinct zones changes the claim list of each of them once. -/
theorem foldl_onClaims_get (f : List Claim → List Claim) (l : List (Fin 16)) (hl : l.Nodup) (z : Zar) (j : Fin 16) :
    (l.foldl (fun y i => y.onClaims i f) z).table[j] =
      if j ∈ l then z.table[j].map fun x => { x with claims := f x.claims } else z.table[j] := by
  induction l generalizing z with
  | nil => rfl
  | cons i l ih =>
    obtain ⟨hi, hl⟩ := List.nodup_cons.1 hl
    rw [List.foldl_cons, ih hl, Zar.onClaims_get]
    by_cases hj : j = i
    · subst hj
      simp [hi]
    · simp [hj]

theorem insertGroupClaims_claimsAt {g : Fin 8} {zones : ZoneMask} {s : State} (hlive : s.smp.dev.live = true) {z : Fin 16}
    (hlevels : ∀ c ∈ claimsAt s.zar z, c.level ≤ 6) : claimsAt (insertGroupClaims g zones s).zar z =
      if zones.getLsbD z.val = true ∧ s.zar.table[z].isSome = true ∧ holdsIn (.group g) (claimsAt s.zar z) = false
      then claimsAt s.zar z ++ [⟨.group g, 6⟩] else claimsAt s.zar z := by
  rw [insertGroupClaims, if_pos hlive, State.onZar_zar,
    claimsAt_eq (foldl_onClaims_get (insertGroup g) (zonesOf zones) ((List.nodup_finRange 16).filter _) s.zar z)]
  simp only [mem_zonesOf]
  unfold claimsAt at hlevels ⊢
  cases hz : zones.getLsbD z.val
  · simp
  · cases he : s.zar.table[z] with
    | none => simp
    | some e =>
      rw [he] at hlevels
      cases hh : holdsIn (.group g) e.claims
      · have hlast := insertClaim_last (c := ⟨.group g, 6⟩) (cs := e.claims) hlevels
        simp [insertGroup, hh, groupLevel, hlast]
      · simp [insertGroup, hh]

theorem groupWords_length (gs : Vector RotationGroup 8) : (groupWords gs).length = 2 := rfl

theorem enableGroup_of_refused {g : Fin 8} {s : State} (h : s.sru.groups[g].enabled = true ∨ s.sru.afterHalt = true) :
    enableGroup g s = s := by
  rw [enableGroup, if_pos (by rcases h with h | h <;> simp [h, -Fin.getElem_fin])]

theorem enableGroup_of_disabled {g : Fin 8} {s : State} (henabled : s.sru.groups[g].enabled = false)
    (hhalt : s.sru.afterHalt = false) : enableGroup g s = writeGroupStatus (insertGroupClaims g s.sru.groups[g].zones
      (onGroup g (fun r => { r with enabled := true }) s)) := by
  rw [enableGroup, if_neg (by simp [henabled, hhalt, -Fin.getElem_fin])]
  dsimp only
  rw [onGroup_get_self]

theorem insertGroupClaims_eq (g : Fin 8) (zones : ZoneMask) (s : State) :
    insertGroupClaims g zones s = s.onZar fun _ => (insertGroupClaims g zones s).zar := by
  unfold insertGroupClaims
  split <;> rfl

theorem insertGroupClaims_mem (g : Fin 8) (zones : ZoneMask) (s : State) :
    (insertGroupClaims g zones s).mem = s.mem ∧ (insertGroupClaims g zones s).smp = s.smp ∧
      (insertGroupClaims g zones s).sru = s.sru := by
  rw [insertGroupClaims_eq]
  exact ⟨rfl, rfl, rfl⟩

theorem writeGroupStatus_get_outside {s : State} {a : Nat} (h : ¬AnchorByte s 0x128 0x130 a) :
    (writeGroupStatus s).mem.get a = s.mem.get a :=
  anchorWrite_get_outside (by rw [groupWords_length]) h

theorem enableGroup_get_outside (g : Fin 8) {s : State} {a : Nat} (h : ¬AnchorByte s 0x128 0x130 a) :
    (enableGroup g s).mem.get a = s.mem.get a := by
  unfold enableGroup
  split
  · rfl
  · dsimp only
    obtain ⟨hmem, hsmp, -⟩ := insertGroupClaims_mem g
      (onGroup g (fun r => { r with enabled := true }) s).sru.groups[g].zones (onGroup g (fun r => { r with enabled := true }) s)
    rw [writeGroupStatus_get_outside (by rwa [AnchorByte, hsmp]), hmem]
    rfl

theorem disableGroup_of_disabled {g : Fin 8} {s : State} (h : s.sru.groups[g].enabled = false) : disableGroup g s = s := by
  rw [disableGroup, if_neg (by simp [h, -Fin.getElem_fin])]

theorem disableGroup_of_enabled {g : Fin 8} {s : State} (h : s.sru.groups[g].enabled = true) : disableGroup g s =
    writeGroupStatus (cutSlot g (releaseClaims (.group g) (onGroup g (fun r => { r with enabled := false }) s))) := by
  rw [disableGroup, if_pos h]

theorem disableGroup_sru {g : Fin 8} {s : State} (h : s.sru.groups[g].enabled = true) : (disableGroup g s).sru =
    (cutSlot g (releaseClaims (.group g) (onGroup g (fun r => { r with enabled := false }) s))).sru := by
  rw [disableGroup_of_enabled h, writeGroupStatus, anchorWrite_sru]

/-- What a DISABLE makes of the groups. -/
theorem disableGroup_group (g : Fin 8) (s : State) :
    (disableGroup g s).sru.groups[g].enabled = false ∧
    (disableGroup g s).sru.groups[g].zones = s.sru.groups[g].zones ∧
    (disableGroup g s).sru.groups[g].saturated = s.sru.groups[g].saturated ∧
    (disableGroup g s).sru.groups[g].slotNumber = s.sru.groups[g].slotNumber ∧
    (disableGroup g s).sru.groups[g].openSlot =
      if s.sru.groups[g].enabled then cutOpen s.sru.groups[g].openSlot else s.sru.groups[g].openSlot := by
  cases h : s.sru.groups[g].enabled with
  | false =>
    rw [disableGroup_of_disabled h]
    exact ⟨h, rfl, rfl, rfl, rfl⟩
  | true =>
    obtain ⟨henabled, hzones, hsaturated, hnumber⟩ := cutSlot_group_fields g g
      (releaseClaims (.group g) (onGroup g (fun r => { r with enabled := false }) s))
    have hopen := cutSlot_openSlot g (releaseClaims (.group g) (onGroup g (fun r => { r with enabled := false }) s))
    have hgroup : (releaseClaims (.group g) (onGroup g (fun r => { r with enabled := false }) s)).sru.groups[g] =
        { s.sru.groups[g] with enabled := false } := onGroup_get_self ..
    rw [hgroup] at henabled hzones hsaturated hnumber hopen
    rw [disableGroup_sru h]
    exact ⟨henabled, hzones, hsaturated, hnumber, hopen⟩

theorem disableGroup_groups_other {g h : Fin 8} (hne : h ≠ g) (s : State) :
    (disableGroup g s).sru.groups[h] = s.sru.groups[h] := by
  cases he : s.sru.groups[g].enabled with
  | false => rw [disableGroup_of_disabled he]
  | true =>
    rw [disableGroup_sru he, cutSlot_groups_other hne]
    exact (onGroup_get _ _ _ _).trans (if_neg hne)

theorem disableGroup_entries (g : Fin 8) (s : State) : (disableGroup g s).sru.entries = s.sru.entries := by
  cases he : s.sru.groups[g].enabled with
  | false => rw [disableGroup_of_disabled he]
  | true =>
    rw [disableGroup_sru he]
    exact cutSlot_sru_field (F := Sru.entries) (fun _ _ _ => rfl) _ _

theorem disableGroup_claimsAt {g : Fin 8} {s : State} (h : s.sru.groups[g].enabled = true) (z : Fin 16) :
    claimsAt (disableGroup g s).zar z = (claimsAt s.zar z).filter fun c => c.who != .group g := by
  have hzar : (disableGroup g s).zar =
      (releaseClaims (.group g) (onGroup g (fun r => { r with enabled := false }) s)).zar := by
    rw [disableGroup_of_enabled h, writeGroupStatus, anchorWrite_zar]
    exact cutSlot_then (ps := [.sru, .plw, .events, .mem, .free]) g (.refl _ _) rfl .zar rfl
  rw [hzar]
  exact releaseClaims_claimsAt _ _ z

/-- Settles O33. -/
theorem groupSetClaimsAndReleases : Obligations.GroupSetClaimsAndReleases := by
  refine ⟨fun take group s hinside => ⟨_, rfl, fun hbad => ?_, fun g hg => ?_, ?_, fun a hrecord hstatus => ?_⟩,
    fun take group s hinside => ⟨_, rfl, fun hbad => ?_, fun g hg => ?_⟩⟩
  · exact takeAndWrite_unchecked take (check := fun _ => indexCheck 8 group) (success := .ok)
      (act := enableGroup) (s := s) (indexCheck_of_le hbad) hinside
  · have hact : ChangesOnly [.sru, .mem, .zar] s (enableGroup g s) := enableGroup_then g (.refl _ _) rfl
    obtain ⟨hdone, hframe⟩ := takeAndWrite_checked take (check := fun _ => indexCheck 8 group) (success := .ok)
      (act := enableGroup) (s := s) (indexCheck_of_val hg) hinside (hact.mono rfl)
    refine ⟨hdone, fun hrefused => ?_, fun henabled hhalt => ?_⟩
    · rw [enableGroup_of_refused hrefused] at hframe
      refine ⟨takeAndWrite_checked_owner take (check := fun _ => indexCheck 8 group) (success := .ok)
        (act := enableGroup) (s := s) (indexCheck_of_val hg) hinside ?_, hframe⟩
      rw [enableGroup_of_refused hrefused]
      exact .refl _ _
    · obtain ⟨-, -, hsru⟩ := insertGroupClaims_mem g s.sru.groups[g].zones (onGroup g (fun r => { r with enabled := true }) s)
      have hzar : (takeAndWrite take (takeEnable group) s).zar = (insertGroupClaims g s.sru.groups[g].zones
          (onGroup g (fun r => { r with enabled := true }) s)).zar := by
        refine Eq.trans (hframe .zar rfl) ?_
        rw [enableGroup_of_disabled henabled hhalt, writeGroupStatus, anchorWrite_zar]
      refine ⟨?_, fun hlive z hlevels => ?_, fun hlive => ?_⟩
      · refine Eq.trans (hframe .sru rfl) ?_
        rw [enableGroup_of_disabled henabled hhalt, writeGroupStatus, anchorWrite_sru, hsru]
        rfl
      · rw [hzar]
        exact insertGroupClaims_claimsAt (s := onGroup g (fun r => { r with enabled := true }) s) hlive hlevels
      · rw [hzar, insertGroupClaims, if_neg (by rw [onGroup_smp, hlive]; decide)]
        rfl
  · exact (takeAndWrite_then (ps := [.sru, .mem, .zar, .events]) take (takeEnable_then group (.refl _ _) rfl) rfl).mono rfl
  · cases hindex : index 8 group.toNat with
    | none =>
      have hcheck : takeEnable group s = (.refused .badValue 0, s) :=
        takeChecked_error (indexCheck_of_le (index_eq_none.1 hindex)) _ _ _
      refine (takeAndWrite_get_outside ?_ hrecord).trans ?_ <;> rw [hcheck]
    | some g =>
      have hcheck : takeEnable group s = (.done .ok, enableGroup g s) :=
        takeChecked_ok (indexCheck_of_val (index_eq_some.1 hindex)) _ _ _
      refine (takeAndWrite_get_outside ?_ hrecord).trans ?_ <;> rw [hcheck]
      · exact enableGroup_then (ps := [.sru, .mem, .zar]) g (.refl _ _) rfl .ciu rfl
      · exact enableGroup_get_outside g hstatus
  · exact takeAndWrite_unchecked take (check := fun _ => indexCheck 8 group) (success := .ok)
      (act := disableGroup) (s := s) (indexCheck_of_le hbad) hinside
  · have hact : ChangesOnly [.sru, .plw, .events, .mem, .free, .zar] s (disableGroup g s) :=
      disableGroup_then g (.refl _ _) rfl
    obtain ⟨hdone, hframe⟩ := takeAndWrite_checked take (check := fun _ => indexCheck 8 group) (success := .ok)
      (act := disableGroup) (s := s) (indexCheck_of_val hg) hinside (hact.mono rfl)
    have hsru : (takeAndWrite take (takeDisable group) s).sru = (disableGroup g s).sru := hframe .sru rfl
    have hzar : (takeAndWrite take (takeDisable group) s).zar = (disableGroup g s).zar := hframe .zar rfl
    obtain ⟨henabled, -, hsaturated, hnumber, hopen⟩ := disableGroup_group g s
    refine ⟨hdone, fun hdisabled => ?_, fun hdo => ?_, ?_, ?_, fun h hne => ?_, ?_,
      takeAndWrite_then take (takeDisable_then group (.refl _ _) rfl) rfl⟩
    · rw [disableGroup_of_disabled hdisabled] at hframe
      refine ⟨takeAndWrite_checked_owner take (check := fun _ => indexCheck 8 group) (success := .ok)
        (act := disableGroup) (s := s) (indexCheck_of_val hg) hinside ?_, hframe⟩
      rw [disableGroup_of_disabled hdisabled]
      exact .refl _ _
    · rw [hsru, hzar]
      refine ⟨henabled, disableGroup_claimsAt hdo, fun x hx => ?_⟩
      rw [hopen, hdo, hx]
      rfl
    · rw [hsru, hsaturated]
    · rw [hsru, hnumber]
    · rw [hsru, disableGroup_groups_other hne]
    · rw [hsru, disableGroup_entries]

/-! ## GROUP_CLEAR (R128, R150) -/

theorem clearGroup_accounts (g : Fin 8) (s : State) (h : Fin 8) : (clearGroup g s).sru.accounts[h] =
    if h = g then s.sru.accounts[g].map fun a => { Account.zero with cursor := a.cursor } else s.sru.accounts[h] := by
  have hmarked : ∀ x, (clearedBooks g s).sru.groups[g].openSlot = some x → x.preClear = true := by
    rw [clearedBooks_groups, if_pos rfl]
    intro x hx
    obtain ⟨y, -, rfl⟩ := Option.map_eq_some_iff.1 hx
    rfl
  rw [clearGroup_eq, writeSnapshot_accounts, markHold, State.onPlw_sru, cutSlot_accounts_of_preClear hmarked,
    clearedBooks_accounts]

/-- What a clear makes of the groups, its snapshots aside. -/
theorem clearGroup_group_field {α : Type} (F : RotationGroup → α)
    (hF : ∀ (r : RotationGroup) n, F { r with snapshots := n } = F r) (g : Fin 8) (s : State) (h : Fin 8) :
    F (clearGroup g s).sru.groups[h] = F (cutSlot g (clearedBooks g s)).sru.groups[h] := by
  rw [clearGroup_eq, writeSnapshot_groups]
  split
  · rename_i hg
    rw [hg.1]
    exact hF _ _
  · rfl

theorem clearGroup_groups_other {g h : Fin 8} (hne : h ≠ g) (s : State) :
    (clearGroup g s).sru.groups[h] = s.sru.groups[h] := by
  rw [clearGroup_eq, writeSnapshot_groups, if_neg fun hand => hne hand.1, markHold, State.onPlw_sru,
    cutSlot_groups_other hne, clearedBooks_groups, if_neg hne]

theorem clearedBooks_entries (g : Fin 8) (s : State) : (clearedBooks g s).sru.entries = s.sru.entries := by
  unfold clearedBooks
  dsimp only
  split <;> simp [writeGroupStatus]

theorem clearGroup_entries (g : Fin 8) (s : State) : (clearGroup g s).sru.entries = s.sru.entries := by
  have hsnapshot : ∀ a t, (writeSnapshot g a t).sru.entries = t.sru.entries := by
    intro a t
    unfold writeSnapshot
    split <;> rfl
  rw [clearGroup_eq, hsnapshot, markHold, State.onPlw_sru, ← clearedBooks_entries g s]
  exact cutSlot_sru_field (F := Sru.entries) (fun _ _ _ => rfl) _ _

theorem clearGroup_hold (g : Fin 8) (s : State) :
    ∀ r ∈ (clearGroup g s).plw.hold, r.group = g → r.preClear = true := by
  have hplw : (clearGroup g s).plw = (markHold g (cutSlot g (clearedBooks g s))).plw := by
    rw [clearGroup_eq]
    exact writeSnapshot_then (ps := [.sru, .mem]) g _ (.refl _ _) rfl .plw rfl
  rw [hplw]
  intro r hr hg
  obtain ⟨q, -, rfl⟩ := List.mem_map.1 hr
  split at hg
  · rename_i h
    rw [if_pos h]
  · rename_i h
    exact absurd hg h

/-- Settles O34. -/
theorem groupClearZeroesAccounts : Obligations.GroupClearZeroesAccounts := by
  intro take group s hinside
  refine ⟨_, rfl, fun hbad => ?_, fun g hg => ?_⟩
  · exact takeAndWrite_unchecked take (check := fun _ => indexCheck 8 group) (success := .ok)
      (act := clearGroup) (s := s) (indexCheck_of_le hbad) hinside
  · have hact : ChangesOnly [.sru, .plw, .events, .mem, .free] s (clearGroup g s) := clearGroup_then g (.refl _ _) rfl
    obtain ⟨hdone, hframe⟩ := takeAndWrite_checked take (check := fun _ => indexCheck 8 group) (success := .ok)
      (act := clearGroup) (s := s) (indexCheck_of_val hg) hinside (hact.mono rfl)
    have hsru : (takeAndWrite take (takeGroupClear group) s).sru = (clearGroup g s).sru := hframe .sru rfl
    have hplw : (takeAndWrite take (takeGroupClear group) s).plw = (clearGroup g s).plw := hframe .plw rfl
    obtain ⟨henabled, hzones, hsaturated, -⟩ := cutSlot_group_fields g g (clearedBooks g s)
    have hopen := cutSlot_openSlot g (clearedBooks g s)
    rw [clearedBooks_groups, if_pos rfl] at henabled hzones hsaturated hopen
    refine ⟨hdone, fun i => ?_, ?_, ?_, ?_, fun x hx => ?_, ?_, fun h hne => ?_, ?_,
      takeAndWrite_then take (takeGroupClear_then group (.refl _ _) rfl) rfl⟩
    · have haccounts : (takeAndWrite take (takeGroupClear group) s).sru.accounts[g] =
          s.sru.accounts[g].map fun a => { Account.zero with cursor := a.cursor } := by
        rw [hsru, clearGroup_accounts, if_pos rfl]
      rw [haccounts]
      simp [Account.zero]
    · rw [hsru, clearGroup_group_field RotationGroup.saturated (fun _ _ => rfl), hsaturated]
    · rw [hsru, clearGroup_group_field RotationGroup.enabled (fun _ _ => rfl), henabled]
    · rw [hsru, clearGroup_group_field RotationGroup.zones (fun _ _ => rfl), hzones]
    · rw [hsru, clearGroup_group_field RotationGroup.openSlot (fun _ _ => rfl), hopen, hx]
      rfl
    · rw [hplw]
      exact clearGroup_hold g s
    · rw [hsru, clearGroup_groups_other hne, clearGroup_accounts, if_neg hne]
      exact ⟨rfl, rfl⟩
    · rw [hsru, clearGroup_entries]

end Sys2Proof.Machine
end

section
/-! SUPPORT. Frame timing (chapter 2): what a frame start makes of the unit's own registers, of the anchor and of the blocks
that are delivered it, and what a proposal and a placing make of the schedule. -/

namespace Sys2Proof.Machine

/-! ## Writes that stay within a part of the anchor -/

/-- The step keeps the anchor in force or out of force where it was, and writes show memory within the given bytes of it alone. -/
structure WritesIn (lo hi : Nat) (s t : State) : Prop where
  anchor : t.smp.anchor = s.smp.anchor
  inForce : t.smp.inForce = s.smp.inForce
  unanchored : s.smp.inForce = false → t.mem = s.mem
  outside : ∀ a, ¬AnchorByte s lo hi a → t.mem.get a = s.mem.get a

section
variable {lo hi : Nat} {s t u : State}

theorem WritesIn.refl (lo hi : Nat) (s : State) : WritesIn lo hi s s := ⟨rfl, rfl, fun _ => rfl, fun _ _ => rfl⟩

theorem WritesIn.of_same (hsmp : t.smp.anchor = s.smp.anchor) (hforce : t.smp.inForce = s.smp.inForce)
    (hmem : t.mem = s.mem) : WritesIn lo hi s t := ⟨hsmp, hforce, fun _ => hmem, fun _ _ => by rw [hmem]⟩

theorem WritesIn.trans (h : WritesIn lo hi s t) (k : WritesIn lo hi t u) : WritesIn lo hi s u where
  anchor := k.anchor.trans h.anchor
  inForce := k.inForce.trans h.inForce
  unanchored hf := (k.unanchored (h.inForce.trans hf)).trans (h.unanchored hf)
  outside a ha := (k.outside a (by rwa [AnchorByte, h.anchor])).trans (h.outside a ha)

theorem WritesIn.of_onFtu {f : Ftu → Ftu} (h : WritesIn lo hi (s.onFtu f) t) : WritesIn lo hi s t :=
  ⟨h.anchor, h.inForce, h.unanchored, h.outside⟩

theorem WritesIn.onFtu (h : WritesIn lo hi s t) (f : Ftu → Ftu) : WritesIn lo hi s (t.onFtu f) :=
  ⟨h.anchor, h.inForce, h.unanchored, h.outside⟩

theorem WritesIn.mono {lo' hi' : Nat} (h : WritesIn lo hi s t) (hlo : lo' ≤ lo) (hhi : hi ≤ hi') : WritesIn lo' hi' s t where
  anchor := h.anchor
  inForce := h.inForce
  unanchored := h.unanchored
  outside a ha := h.outside a fun hin => ha (by unfold AnchorByte at hin ⊢; omega)

theorem anchorWrite_in {o : Nat} {ws : List Word} (hlo : lo ≤ o) (hhi : o + 4 * ws.length ≤ hi) (s : State) :
    WritesIn lo hi s (anchorWrite o ws s) where
  anchor := by rw [anchorWrite_smp]
  inForce := by rw [anchorWrite_smp]
  unanchored hf := anchorWrite_mem_of_not_inForce hf _ _
  outside a ha := by
    refine anchorWrite_get_outside (hi := hi) hhi fun hin => ha ?_
    unfold AnchorByte at hin ⊢
    omega

/-- A word of the anchor outside the part reads as it did. -/
theorem WritesIn.anchorWord (h : WritesIn lo hi s t) {o : Nat} (ho : o + 4 ≤ lo ∨ hi ≤ o) :
    anchorWord t o = anchorWord s o := by
  unfold Machine.anchorWord
  rw [h.anchor]
  exact Memory.word_congr fun a hlo hhi => h.outside a (by unfold AnchorByte; omega)

end

/-! ## The reference state and the enable -/

/-- What acting on the enable makes of the unit (R22). -/
def Ftu.acted (f : Ftu) : Ftu :=
  if f.lock = .free then (if f.refEnable then f.acquiring else f) else (if f.refEnable then f else f.freed)

/-- What placing after an issue makes of the unit (R21). -/
def Ftu.placed (f : Ftu) : Ftu :=
  if f.lock.byPeriod && f.schedule.isEmpty then { f with schedule := [⟨f.periodTick, true⟩] } else f

theorem refWords_length (f : Ftu) : f.refWords.length = 3 := rfl

theorem writeReference_in (s : State) : WritesIn 0x118 0x124 s (writeReference s) :=
  anchorWrite_in (Nat.le_refl 0x118) (by rw [refWords_length]) s

@[simp] theorem byPeriod_eq_true_iff (l : LockState) : l.byPeriod = true ↔ l ≠ .locked := by
  cases l <;> decide

theorem Ftu.placed_schedule (f : Ftu) : f.placed.schedule =
    if f.schedule = [] ∧ f.lock ≠ .locked then [⟨f.lastStart + f.lockedPeriod.getD f.freeRun, true⟩] else f.schedule := by
  unfold Ftu.placed
  simp only [Bool.and_eq_true, byPeriod_eq_true_iff, List.isEmpty_iff, and_comm (a := f.lock ≠ .locked)]
  split <;> rfl

theorem reportLock_in (s : State) : WritesIn 0x118 0x124 s (reportLock s) :=
  (writeReference_in s).trans (u := reportLock s) (.of_same rfl rfl rfl)

@[simp] theorem reportLock_ftu (s : State) : (reportLock s).ftu = s.ftu := by simp [reportLock, writeReference]

@[simp] theorem writeReference_ftu (s : State) : (writeReference s).ftu = s.ftu := by simp [writeReference]

@[simp] theorem writeReference_smp (s : State) : (writeReference s).smp = s.smp := by simp [writeReference]

@[simp] theorem reportLock_smp (s : State) :
    (reportLock s).smp = { s.smp with events := s.smp.events ||| 0x020#10 } := by
  rw [reportLock, raise_smp, writeReference_smp]
  rfl

theorem writeReference_words {s : State} (haligned : s.smp.anchor.toNat % 4096 = 0) (hforce : s.smp.inForce = true) :
    (writeReference s).mem.word (s.smp.anchor.toNat + 0x118) = s.ftu.lock.code ∧
    (writeReference s).mem.word (s.smp.anchor.toNat + 0x11C) = BitVec.ofNat 32 s.ftu.measured ∧
    (writeReference s).mem.word (s.smp.anchor.toNat + 0x120) = BitVec.ofNat 32 (s.ftu.lockedPeriod.getD 0) :=
  ⟨anchorWrite_word_at haligned hforce (by rw [refWords_length]; omega) _ 0 rfl rfl,
    anchorWrite_word_at haligned hforce (by rw [refWords_length]; omega) _ 1 rfl rfl,
    anchorWrite_word_at haligned hforce (by rw [refWords_length]; omega) _ 2 rfl rfl⟩

theorem actOnEnable_cases (s : State) :
    (s.ftu.acted.lock = s.ftu.lock ∧ s.ftu.acted = s.ftu ∧ actOnEnable s = s) ∨
    (s.ftu.acted.lock ≠ s.ftu.lock ∧ actOnEnable s = reportLock (s.onFtu fun _ => s.ftu.acted)) := by
  unfold actOnEnable Ftu.acted
  cases hl : s.ftu.lock <;> cases hr : s.ftu.refEnable <;>
    simp [Ftu.acquiring, Ftu.freed, enterAcquiring, enterFree, State.onFtu, hl, hr]

theorem actOnEnable_ftu (s : State) : (actOnEnable s).ftu = s.ftu.acted := by
  obtain ⟨-, hsame, h⟩ | ⟨-, h⟩ := actOnEnable_cases s <;> rw [h]
  · exact hsame.symm
  · exact reportLock_ftu _

theorem actOnEnable_smp (s : State) : (actOnEnable s).smp = { s.smp with
    events := s.smp.events ||| (if s.ftu.acted.lock = s.ftu.lock then 0#10 else 0x020#10) } := by
  obtain ⟨hlock, -, h⟩ | ⟨hlock, h⟩ := actOnEnable_cases s <;> rw [h]
  · rw [if_pos hlock, BitVec.or_zero]
  · rw [if_neg hlock, reportLock_smp]
    rfl

theorem actOnEnable_in (s : State) : WritesIn 0x118 0x124 s (actOnEnable s) := by
  obtain ⟨-, -, h⟩ | ⟨-, h⟩ := actOnEnable_cases s <;> rw [h]
  · exact .refl _ _ s
  · exact (reportLock_in (s.onFtu fun _ => s.ftu.acted)).of_onFtu

theorem acted_lock (f : Ftu) :
    f.acted.lock = if f.refEnable then (if f.lock = .free then .acquiring else f.lock) else .free := by
  unfold Ftu.acted Ftu.acquiring Ftu.freed
  split_ifs <;> simp_all

/-! ## A frame start -/

/-- The entry that a frame start keeps for a start-up check at it (R22, log 11). -/
def keptEntryOf (s : State) : Option Bool :=
  if !s.smp.inForce && s.ftu.lock == .free && s.ftu.refEnable then some (s.smp.events.getLsbD Event.refState.bit) else none

/-- The unit after a frame start has begun and the settings have been read or kept, before it acts on the enable. -/
def beganFtu (tick : Nat) (s : State) : Ftu :=
  { s.ftu with
    frame := s.ftu.frame + 1, lastStart := tick, keptEntry := keptEntryOf s,
    freeRun := if s.smp.inForce then clampNat Config.minFreeRun Config.maxFreeRun (anchorWord s 0x30).toNat
      else s.ftu.freeRun,
    refEnable := if s.smp.inForce then anchorWord s 0x34 != 0 else s.ftu.refEnable,
    phase := if s.smp.inForce then anchorWord s 0x38 else s.ftu.phase }

/-- The state in which the settings are read: begun, shown in the anchor and delivered. -/
def begun (tick : Nat) (s : State) : State :=
  deliver (anchorWrite 0x114 [s.ftu.frame + 1] (s.onFtu fun f => { f with frame := f.frame + 1, lastStart := tick }))

theorem begun_in (tick : Nat) (s : State) : WritesIn 0x114 0x118 s (begun tick s) :=
  have hword : WritesIn 0x114 0x118 (s.onFtu fun f => { f with frame := f.frame + 1, lastStart := tick })
      (anchorWrite 0x114 [s.ftu.frame + 1] (s.onFtu fun f => { f with frame := f.frame + 1, lastStart := tick })) :=
    anchorWrite_in (Nat.le_refl 0x114) (by rw [List.length_singleton]) _
  hword.of_onFtu.trans (u := begun tick s) (.of_same rfl rfl rfl)

theorem begun_smp (tick : Nat) (s : State) : (begun tick s).smp = { s.smp with frameDue := true } := by
  simp [begun, deliver]

theorem begun_ftu (tick : Nat) (s : State) :
    (begun tick s).ftu = { s.ftu with frame := s.ftu.frame + 1, lastStart := tick } := by
  simp [begun, deliver]

theorem beginFrame_eq (tick : Nat) (s : State) :
    beginFrame tick s = actOnEnable ((begun tick s).onFtu fun _ => beganFtu tick s) := by
  have hbegin : beginFrame tick s = settingsAtStart (begun tick s) := rfl
  have hkept : markKeptEntry (begun tick s) =
      (begun tick s).onFtu fun f => { f with keptEntry := keptEntryOf s } := by
    simp only [markKeptEntry, begun_smp, begun_ftu, State.onFtu, keptEntryOf]
  have hin : WritesIn 0x114 0x118 s (markKeptEntry (begun tick s)) :=
    (begun_in tick s).trans (.of_same (by rw [hkept]; rfl) (by rw [hkept]; rfl) (by rw [hkept]; rfl))
  rw [hbegin, settingsAtStart]
  congr 1
  cases hforce : s.smp.inForce with
  | true =>
    rw [(begun_in tick s).inForce, if_pos hforce, readSettings, hin.anchorWord (.inl (by decide)),
      hin.anchorWord (.inl (by decide)), hin.anchorWord (.inl (by decide)), hkept]
    simp only [State.onFtu, begun_ftu, beganFtu, hforce, if_true]
  | false =>
    rw [(begun_in tick s).inForce, if_neg (by rw [hforce]; decide), hkept]
    simp only [State.onFtu, begun_ftu, beganFtu, hforce, Bool.false_eq_true, if_false]

theorem placeAfterIssue_eq (s : State) : placeAfterIssue s = s.onFtu fun _ => s.ftu.placed := by
  unfold placeAfterIssue Ftu.placed scheduleByPeriod
  split <;> rfl

theorem issueAt_ftu (tick : Nat) (s : State) : (issueAt tick s).ftu = (beganFtu tick s).acted.placed := by
  rw [issueAt, placeAfterIssue_eq, beginFrame_eq, State.onFtu_ftu, actOnEnable_ftu]
  rfl

theorem issueAt_smp (tick : Nat) (s : State) : (issueAt tick s).smp = { s.smp with
    frameDue := true,
    events := s.smp.events ||| (if (beganFtu tick s).acted.lock = s.ftu.lock then 0#10 else 0x020#10) } := by
  rw [issueAt, placeAfterIssue_eq, beginFrame_eq, State.onFtu_smp, actOnEnable_smp, State.onFtu_smp, begun_smp]
  rfl

theorem issueAt_in (tick : Nat) (s : State) : WritesIn 0x114 0x124 s (issueAt tick s) := by
  rw [issueAt, placeAfterIssue_eq, beginFrame_eq]
  have hacted := (actOnEnable_in ((begun tick s).onFtu fun _ => beganFtu tick s)).of_onFtu
  exact (((begun_in tick s).mono (Nat.le_refl _) (by omega)).trans (hacted.mono (by omega) (Nat.le_refl _))).onFtu _

theorem issueAt_frameWord {tick : Nat} {s : State} (haligned : s.smp.anchor.toNat % 4096 = 0)
    (hforce : s.smp.inForce = true) :
    (issueAt tick s).mem.word (s.smp.anchor.toNat + 0x114) = s.ftu.frame + 1 := by
  rw [issueAt, placeAfterIssue_eq, beginFrame_eq]
  have hin := actOnEnable_in ((begun tick s).onFtu fun _ => beganFtu tick s)
  have hword := hin.anchorWord (o := 0x114) (.inl (by decide))
  unfold anchorWord at hword
  rw [hin.anchor, State.onFtu_smp, (begun_in tick s).anchor] at hword
  exact hword.trans (anchorWrite_word_at (s := s.onFtu fun f => { f with frame := f.frame + 1, lastStart := tick })
    haligned hforce (by rw [List.length_singleton]; omega) _ 0 rfl rfl)

/-- The parts that a frame start reaches. -/
def frameParts : List Part := [.mem, .events, .due, .ftu, .ciu, .clo, .msu, .plw, .ccu, .etu]

theorem issueAt_frame (tick : Nat) (s : State) : ChangesOnly frameParts s (issueAt tick s) :=
  issueAt_then tick (.refl _ _) rfl

/-- The blocks that a frame start is delivered to. -/
structure Delivered (s t : State) : Prop where
  smp : t.smp.frameDue = true
  ciu : t.ciu = { s.ciu with frameDue := true }
  clo : t.clo = { s.clo with frameDue := true }
  msu : t.msu = { s.msu with frameDue := true }
  plw : t.plw = { s.plw with frameDue := true }
  ccu : t.ccu = { s.ccu with frameDue := true }
  etu : t.etu = { s.etu with frameDue := true }

theorem issueAt_delivered (tick : Nat) (s : State) : Delivered s (issueAt tick s) := by
  have hframe : ChangesOnly [.mem, .events, .ftu] (begun tick s) (issueAt tick s) := by
    rw [issueAt, placeAfterIssue_eq, beginFrame_eq]
    exact onFtu_then _ (actOnEnable_then (onFtu_then _ (.refl _ _) rfl) rfl) rfl
  have hbegun : Delivered s (begun tick s) := by
    constructor <;> simp [begun, deliver]
  exact ⟨by rw [issueAt_smp], Eq.trans (hframe .ciu rfl) hbegun.ciu, Eq.trans (hframe .clo rfl) hbegun.clo,
    Eq.trans (hframe .msu rfl) hbegun.msu, Eq.trans (hframe .plw rfl) hbegun.plw, Eq.trans (hframe .ccu rfl) hbegun.ccu,
    Eq.trans (hframe .etu rfl) hbegun.etu⟩

theorem frameStart_of_empty {s : State} (h : s.ftu.schedule = []) : frameStart s = s := by
  rw [frameStart, h]

theorem frameStart_of_scheduled {s : State} {x : Sched} {rest : List Sched} (h : s.ftu.schedule = x :: rest)
    (htick : s.ftu.tick ≤ x.tick) :
    frameStart s = issueAt x.tick (s.onFtu fun f => { f with tick := x.tick, schedule := rest }) := by
  rw [frameStart, h]
  dsimp only
  rw [Nat.max_eq_right htick]

/-- What acting on the enable and placing leave of the unit. -/
theorem acted_placed_kept {α : Type} (F : Ftu → α)
    (hF : ∀ (f : Ftu) l p m r o c e q, F { f with
      lock := l, lockedPeriod := p, measured := m, runCount := r, runOpen := o, slipCount := c, lastEdge := e,
      schedule := q } = F f) (f : Ftu) : F f.acted.placed = F f := by
  have hacted : F f.acted = F f := by
    unfold Ftu.acted
    split_ifs
    · exact hF f .acquiring f.lockedPeriod f.measured 0 false f.slipCount none f.schedule
    · rfl
    · rfl
    · exact hF f .free none 0 0 false 0 none f.schedule
  rw [← hacted]
  unfold Ftu.placed
  split
  · exact hF f.acted f.acted.lock f.acted.lockedPeriod f.acted.measured f.acted.runCount f.acted.runOpen
      f.acted.slipCount f.acted.lastEdge _
  · rfl

/-- What placing leaves of the unit. -/
theorem placed_kept {α : Type} (F : Ftu → α) (hF : ∀ (f : Ftu) q, F { f with schedule := q } = F f) (f : Ftu) :
    F f.placed = F f := by
  unfold Ftu.placed
  split
  · exact hF f _
  · rfl

/-- Settles O7. -/
theorem frameStartDelivered : Obligations.FrameStartDelivered := by
  refine ⟨fun s h => congrArg Host.Outcome.next (frameStart_of_empty h), fun s x rest h htick haligned =>
    ⟨_, congrArg Host.Outcome.next (frameStart_of_scheduled h htick), ?_⟩⟩
  generalize hu : (s.onFtu fun f => { f with tick := x.tick, schedule := rest }) = u
  have hdelivered : Delivered s (issueAt x.tick u) := by
    have hissued := issueAt_delivered x.tick u
    rw [← hu] at hissued ⊢
    exact ⟨hissued.smp, hissued.ciu, hissued.clo, hissued.msu, hissued.plw, hissued.ccu, hissued.etu⟩
  have hin : WritesIn 0x114 0x124 s (issueAt x.tick u) :=
    (WritesIn.of_same (by rw [← hu]; rfl) (by rw [← hu]; rfl) (by rw [← hu]; rfl)).trans (issueAt_in x.tick u)
  have hframe : ChangesOnly frameParts s (issueAt x.tick u) := by
    rw [← hu]
    exact issueAt_then _ (onFtu_then _ (.refl _ _) rfl) rfl
  refine ⟨?_, ?_, ?_, hdelivered.smp, hdelivered.ciu, hdelivered.clo, hdelivered.msu, hdelivered.plw, hdelivered.ccu,
    hdelivered.etu, fun hforce => ⟨?_, hin.outside⟩, hin.unanchored, hframe⟩
  · rw [issueAt_ftu, acted_placed_kept Ftu.frame (fun _ _ _ _ _ _ _ _ _ => rfl), ← hu]
    rfl
  · rw [issueAt_ftu, acted_placed_kept Ftu.tick (fun _ _ _ _ _ _ _ _ _ => rfl), ← hu]
    rfl
  · rw [issueAt_ftu, acted_placed_kept Ftu.lastStart (fun _ _ _ _ _ _ _ _ _ => rfl)]
    rfl
  · have hword := issueAt_frameWord (tick := x.tick) (s := u) (by rw [← hu]; exact haligned) (by rw [← hu]; exact hforce)
    rw [← hu] at hword ⊢
    exact hword

/-- Settles O8. -/
theorem frameStartReadsSettingsAndPlaces : Obligations.FrameStartReadsSettingsAndPlaces := by
  intro s x rest h htick
  refine ⟨_, congrArg Host.Outcome.next (frameStart_of_scheduled h htick), ?_⟩
  generalize hu : (s.onFtu fun f => { f with tick := x.tick, schedule := rest }) = u
  have hf : beganFtu x.tick u = { s.ftu with
      tick := x.tick, schedule := rest, frame := s.ftu.frame + 1, lastStart := x.tick, keptEntry := keptEntryOf s,
      freeRun := if s.smp.inForce then max 416667 (min 4166667 (anchorWord s 0x30).toNat) else s.ftu.freeRun,
      refEnable := if s.smp.inForce then anchorWord s 0x34 != 0 else s.ftu.refEnable,
      phase := if s.smp.inForce then anchorWord s 0x38 else s.ftu.phase } := by
    rw [← hu]
    rfl
  have hsmp : u.smp = s.smp := by rw [← hu]; rfl
  have hlock : u.ftu.lock = s.ftu.lock := by rw [← hu]; rfl
  simp only [issueAt_ftu, issueAt_smp, hsmp, hlock]
  generalize beganFtu x.tick u = f at hf
  have hkeptLock : f.acted.placed.lock = f.acted.lock := placed_kept Ftu.lock (fun _ _ => rfl) _
  have hrefEnable : f.acted.placed.refEnable = f.refEnable :=
    acted_placed_kept Ftu.refEnable (fun _ _ _ _ _ _ _ _ _ => rfl) f
  rw [acted_placed_kept Ftu.freeRun (fun _ _ _ _ _ _ _ _ _ => rfl),
    acted_placed_kept Ftu.phase (fun _ _ _ _ _ _ _ _ _ => rfl), hrefEnable, hkeptLock]
  have hfree : f.freeRun = _ := congrArg Ftu.freeRun hf
  have hlockf : f.lock = s.ftu.lock := by rw [hf]
  refine ⟨hfree, congrArg Ftu.refEnable hf, congrArg Ftu.phase hf, ?_, rfl, fun hne hfreed => ?_, fun hwas hnow => ?_, ?_⟩
  · rw [acted_lock, hlockf]
  · have hoff : f.acted = f.freed := by
      rw [acted_lock, hlockf, if_neg hne] at hfreed
      cases hr : f.refEnable
      · rw [Ftu.acted, hlockf, if_neg hne, hr]
        rfl
      · rw [hr] at hfreed
        exact absurd hfreed hne
    rw [hoff, placed_kept Ftu.lockedPeriod (fun _ _ => rfl), placed_kept Ftu.measured (fun _ _ => rfl),
      placed_kept Ftu.runCount (fun _ _ => rfl), placed_kept Ftu.slipCount (fun _ _ => rfl),
      placed_kept Ftu.lastEdge (fun _ _ => rfl)]
    exact ⟨rfl, rfl, rfl, rfl, rfl⟩
  · have hon : f.acted = f.acquiring := by
      rw [acted_lock, hlockf, if_pos hwas] at hnow
      cases hr : f.refEnable
      · rw [hr] at hnow
        cases hnow
      · rw [Ftu.acted, hlockf, if_pos hwas, hr]
        rfl
    rw [hon, placed_kept Ftu.lockedPeriod (fun _ _ => rfl), placed_kept Ftu.measured (fun _ _ => rfl),
      placed_kept Ftu.runCount (fun _ _ => rfl), placed_kept Ftu.lastEdge (fun _ _ => rfl)]
    exact ⟨rfl, rfl, by rw [hf, Ftu.acquiring], by rw [hf, Ftu.acquiring]⟩
  · have hacted : f.acted.schedule = rest ∧ f.acted.lastStart = x.tick := by
      rw [hf]
      unfold Ftu.acted Ftu.acquiring Ftu.freed
      split_ifs <;> exact ⟨rfl, rfl⟩
    have hfreeActed : f.acted.freeRun = f.freeRun := by
      unfold Ftu.acted Ftu.acquiring Ftu.freed
      split_ifs <;> rfl
    rw [Ftu.placed_schedule, hacted.1, hacted.2, placed_kept Ftu.lockedPeriod (fun _ _ => rfl), hfreeActed]

end Sys2Proof.Machine
end

section
/-! SUPPORT. Reference edges and the holdover interval (sections 2.4 to 2.6): what a proposal, a placing and an edge do. -/

namespace Sys2Proof.Machine

/-! ## The schedule -/

theorem foldl_max_le_iff (xs : List Nat) (a b : Nat) : xs.foldl max a ≤ b ↔ a ≤ b ∧ ∀ x ∈ xs, x ≤ b := by
  induction xs generalizing a with
  | nil => simp
  | cons x xs ih => simp [ih, and_assoc]

/-- An entry no earlier than every scheduled one goes in last. -/
theorem insertSched_last {x : Sched} {xs : List Sched} (h : ∀ y ∈ xs, y.tick ≤ x.tick) : insertSched x xs = xs ++ [x] := by
  have hall : ∀ y ∈ xs, decide (y.tick ≤ x.tick) = true := fun y hy => decide_eq_true (h y hy)
  rw [insertSched, List.takeWhile_eq_self_iff.mpr hall, List.dropWhile_eq_nil_iff.mpr hall]

theorem le_of_guardTick_le {f : Ftu} {p : Nat} (h : f.guardTick ≤ p) : ∀ y ∈ f.schedule, y.tick ≤ p := by
  intro y hy
  have hmax : (f.schedule.map Sched.tick).foldl max f.lastStart ≤ p := by
    unfold Ftu.guardTick at h
    omega
  exact ((foldl_max_le_iff _ _ _).mp hmax).2 _ (List.mem_map_of_mem hy)

/-- A proposal that is not for the present tick is dropped before the guard tick and scheduled last from it on. -/
theorem propose_scheduled {k : Nat} {u : State} (htick : u.ftu.tick = k)
    (h : 0 < u.ftu.offset ∨ k < u.ftu.guardTick) :
    ∃ q, propose k u = u.onFtu (fun f => { f with schedule := q }) ∧
      (k + u.ftu.offset < u.ftu.guardTick → q = u.ftu.schedule) ∧
      (u.ftu.guardTick ≤ k + u.ftu.offset → q = u.ftu.schedule ++ [⟨k + u.ftu.offset, false⟩]) := by
  by_cases hdrop : k + u.ftu.offset < u.ftu.guardTick
  · exact ⟨u.ftu.schedule, if_pos hdrop, fun _ => rfl, fun hle => absurd hdrop (by omega)⟩
  · refine ⟨u.ftu.schedule ++ [⟨k + u.ftu.offset, false⟩], ?_, fun hlt => absurd hlt hdrop, fun _ => rfl⟩
    rw [← insertSched_last (x := ⟨k + u.ftu.offset, false⟩) (le_of_guardTick_le (Nat.le_of_not_lt hdrop))]
    exact (if_neg hdrop).trans (if_neg (by omega))

/-- A proposal for the present tick, from the guard tick on, is issued at once. -/
theorem propose_issued {k : Nat} {u : State} (htick : u.ftu.tick = k) (hzero : u.ftu.offset = 0)
    (hguard : u.ftu.guardTick ≤ k) : propose k u = issueAt k u := by
  unfold propose
  rw [hzero, if_neg (by omega), if_pos (by omega), htick]

theorem placeByPeriod_waits {now : Nat} {u : State} (hlock : u.ftu.lock ≠ .locked)
    (h : u.ftu.schedule ≠ [] ∨ now ≤ u.ftu.periodTick) : placeByPeriod now u = u.onFtu fun f =>
      { f with schedule := if u.ftu.schedule = [] then [⟨u.ftu.periodTick, true⟩] else u.ftu.schedule } := by
  unfold placeByPeriod
  rw [Iff.mpr (byPeriod_eq_true_iff _) hlock, Bool.true_and]
  by_cases hempty : u.ftu.schedule = []
  · rw [if_pos (List.isEmpty_iff.mpr hempty), if_pos hempty, if_neg (by have := h.resolve_left (fun h => h hempty); omega)]
    rfl
  · rw [if_neg (fun h => hempty (List.isEmpty_iff.mp h)), if_neg hempty]
    rfl

theorem placeByPeriod_overdue {now : Nat} {u : State} (hlock : u.ftu.lock ≠ .locked) (hempty : u.ftu.schedule = [])
    (h : u.ftu.periodTick < now) : placeByPeriod now u = issueAt now u := by
  unfold placeByPeriod
  rw [Iff.mpr (byPeriod_eq_true_iff _) hlock, hempty, List.isEmpty_nil, Bool.and_self, if_pos rfl, if_pos h]

/-! ## A frame start issued outside FREE -/

/-- The reference enable that a frame start finds (R22). -/
def enabledAt (s : State) : Bool := if s.smp.inForce then anchorWord s 0x34 != 0 else s.ftu.refEnable

section
variable {k : Nat} {u : State}

theorem issueAt_ftu_enabled (hlock : u.ftu.lock ≠ .free) (hen : enabledAt u = true) :
    (issueAt k u).ftu = (beganFtu k u).placed := by
  have hen' : (beganFtu k u).refEnable = true := hen
  have hlock' : (beganFtu k u).lock ≠ .free := hlock
  rw [issueAt_ftu, Ftu.acted, if_neg hlock', if_pos hen']

theorem issueAt_ftu_disabled (hlock : u.ftu.lock ≠ .free) (hen : enabledAt u = false) :
    (issueAt k u).ftu = (beganFtu k u).freed.placed := by
  have hen' : ¬(beganFtu k u).refEnable = true := by rw [show (beganFtu k u).refEnable = false from hen]; decide
  have hlock' : (beganFtu k u).lock ≠ .free := hlock
  rw [issueAt_ftu, Ftu.acted, if_neg hlock', if_neg hen']

theorem issueAt_events_enabled (hlock : u.ftu.lock ≠ .free) (hen : enabledAt u = true) :
    (issueAt k u).smp.events = u.smp.events := by
  have hsame : (beganFtu k u).acted.lock = u.ftu.lock := by
    rw [acted_lock, if_pos (show (beganFtu k u).refEnable = true from hen),
      if_neg (show (beganFtu k u).lock ≠ .free from hlock)]
    rfl
  rw [issueAt_smp, hsame]
  simp

theorem issueAt_events_disabled (hlock : u.ftu.lock ≠ .free) (hen : enabledAt u = false) :
    (issueAt k u).smp.events = u.smp.events ||| 0x020#10 := by
  have hfree : (beganFtu k u).acted.lock = .free := by
    rw [acted_lock, if_neg (by rw [show (beganFtu k u).refEnable = false from hen]; decide)]
  rw [issueAt_smp, hfree]
  simp only [if_neg hlock.symm]

theorem issueAt_frameNumber : (issueAt k u).ftu.frame = u.ftu.frame + 1 := by
  rw [issueAt_ftu, acted_placed_kept Ftu.frame (fun _ _ _ _ _ _ _ _ _ => rfl)]
  rfl

theorem issueAt_lastStart : (issueAt k u).ftu.lastStart = k := by
  rw [issueAt_ftu, acted_placed_kept Ftu.lastStart (fun _ _ _ _ _ _ _ _ _ => rfl)]
  rfl

theorem issueAt_tick : (issueAt k u).ftu.tick = u.ftu.tick := by
  rw [issueAt_ftu, acted_placed_kept Ftu.tick (fun _ _ _ _ _ _ _ _ _ => rfl)]
  rfl

theorem issueAt_frameDue : (issueAt k u).smp.frameDue = true := by rw [issueAt_smp]

end

/-! ## The reference state that the anchor shows -/

/-- With an anchor in force, its three reference words read as the unit stands. -/
def RefShown (s : State) : Prop := s.smp.inForce = true →
  anchorWord s 0x118 = s.ftu.lock.code ∧ anchorWord s 0x11C = BitVec.ofNat 32 s.ftu.measured ∧
    anchorWord s 0x120 = BitVec.ofNat 32 (s.ftu.lockedPeriod.getD 0)

theorem reportLock_refShown {s : State} (haligned : s.smp.anchor.toNat % 4096 = 0) : RefShown (reportLock s) := by
  intro hforce
  rw [reportLock_smp] at hforce
  unfold anchorWord
  rw [reportLock_smp, reportLock_ftu]
  exact writeReference_words haligned hforce

theorem RefShown.congr {s t : State} (h : RefShown s) (hsmp : t.smp = s.smp) (hmem : t.mem = s.mem)
    (hlock : t.ftu.lock = s.ftu.lock) (hmeasured : t.ftu.measured = s.ftu.measured)
    (hperiod : t.ftu.lockedPeriod = s.ftu.lockedPeriod) : RefShown t := by
  unfold RefShown anchorWord at h ⊢
  rwa [hsmp, hmem, hlock, hmeasured, hperiod]

theorem issueAt_refShown {k : Nat} {s : State} (haligned : s.smp.anchor.toNat % 4096 = 0) (h : RefShown s) :
    RefShown (issueAt k s) := by
  have hin := begun_in k s
  have hbegan : RefShown ((begun k s).onFtu fun _ => beganFtu k s) := by
    intro hforce
    have hshown := h (hin.inForce.symm.trans hforce)
    rw [← hin.anchorWord (.inr (by omega)), ← hin.anchorWord (o := 0x11C) (.inr (by omega)),
      ← hin.anchorWord (o := 0x120) (.inr (by omega))] at hshown
    exact hshown
  have hacted : RefShown (actOnEnable ((begun k s).onFtu fun _ => beganFtu k s)) := by
    obtain ⟨-, -, hsame⟩ | ⟨-, hacts⟩ := actOnEnable_cases ((begun k s).onFtu fun _ => beganFtu k s)
    · rw [hsame]
      exact hbegan
    · rw [hacts]
      refine reportLock_refShown ?_
      rw [State.onFtu_smp, State.onFtu_smp, hin.anchor]
      exact haligned
  rw [issueAt, placeAfterIssue_eq, beginFrame_eq]
  refine hacted.congr rfl rfl ?_ ?_ ?_
  · exact placed_kept Ftu.lock (fun _ _ => rfl) _
  · exact placed_kept Ftu.measured (fun _ _ => rfl) _
  · exact placed_kept Ftu.lockedPeriod (fun _ _ => rfl) _

/-! ## An edge in ACQUIRING -/

/-- The state with the tick count at `k`. -/
def atTick (k : Nat) (s : State) : State := s.onFtu fun f => { f with tick := k }

theorem reachTick_of_le {k : Nat} {s : State} (h : s.ftu.tick ≤ k) : reachTick k s = atTick k s := by
  rw [reachTick]
  simp only [atTick, State.onFtu, Nat.max_eq_right h]

theorem exec_referenceEdge_of_le {k : Nat} {s : State} (h : s.ftu.tick ≤ k) :
    exec (.referenceEdge k) s = .next (referenceEdge k (atTick k s)) := by
  have hreach := reachTick_of_le h
  change Host.Outcome.next (referenceEdge (reachTick k s).ftu.tick (reachTick k s)) = _
  rw [hreach]
  rfl

/-- What a period measured in ACQUIRING makes of the unit. -/
def Ftu.measuring (f : Ftu) (k l : Nat) : Ftu := { f with tick := k, lastEdge := some k }.accept (k - l)

theorem measuring_restarts {f : Ftu} {k l : Nat}
    (h : f.runOpen = false ∨ f.measured < (max (k - l) f.measured - min (k - l) f.measured) * 1000) :
    f.measuring k l = { f with tick := k, lastEdge := some k, measured := k - l, runCount := 0, runOpen := true } := by
  refine if_neg fun hmatch => ?_
  obtain ⟨hopen, hwithin⟩ := (Bool.and_eq_true _ _).mp hmatch
  have hle : (max (k - l) f.measured - min (k - l) f.measured) * 1000 ≤ f.measured := of_decide_eq_true hwithin
  obtain hclosed | hapart := h
  · rw [show f.runOpen = true from hopen] at hclosed
    cases hclosed
  · omega

theorem measuring_matches {f : Ftu} {k l : Nat} (hopen : f.runOpen = true)
    (h : (max (k - l) f.measured - min (k - l) f.measured) * 1000 ≤ f.measured) :
    f.measuring k l = { f with tick := k, lastEdge := some k, measured := k - l, runCount := f.runCount + 1 } :=
  if_pos ((Bool.and_eq_true _ _).mpr ⟨hopen, decide_eq_true h⟩)

theorem acceptable_iff (p : Nat) : acceptable p = true ↔ 400000 ≤ p ∧ p ≤ 4200000 := by
  rw [acceptable, Bool.and_eq_true, decide_eq_true_iff, decide_eq_true_iff]
  exact Iff.rfl

section
variable {k l : Nat} {s : State}

theorem edgeAcquiring_measuring (hlast : s.ftu.lastEdge = some l) (hlo : 400000 ≤ k - l) (hhi : k - l ≤ 4200000) :
    edgeAcquiring k (atTick k s) =
      if (s.ftu.measuring k l).runCount = 4 then enterLocked k (s.onFtu fun _ => s.ftu.measuring k l)
      else writeReference (s.onFtu fun _ => s.ftu.measuring k l) := by
  unfold edgeAcquiring
  simp only [atTick, State.onFtu_ftu, hlast, Iff.mpr (acceptable_iff _) ⟨hlo, hhi⟩, if_true]
  rfl

theorem edgeAcquiring_out_of_range (hlast : s.ftu.lastEdge = some l) (h : k - l < 400000 ∨ 4200000 < k - l) :
    edgeAcquiring k (atTick k s) =
      s.onFtu fun f => { f with tick := k, lastEdge := some k, runCount := 0, runOpen := false } := by
  have hout : ¬acceptable (k - l) = true := by
    rw [acceptable_iff]
    omega
  unfold edgeAcquiring
  simp only [atTick, State.onFtu_ftu, hlast, if_neg hout]
  rfl

/-- The unit as it enters LOCKED, before the proposal (R24). -/
def Ftu.lockedIn (f : Ftu) : Ftu :=
  { f with lock := .locked, lockedPeriod := some f.measured, slipCount := 0,
           schedule := f.schedule.filter fun x => !x.byPeriod }

theorem enterLocked_eq (u : State) : enterLocked k u = propose k (reportLock (u.onFtu Ftu.lockedIn)) := rfl

theorem issueAt_lock_ne_acquiring {u : State} (h : u.ftu.lock = .locked) : (issueAt k u).ftu.lock ≠ .acquiring := by
  rw [issueAt_ftu, placed_kept Ftu.lock (fun _ _ => rfl), acted_lock, if_neg (c := (beganFtu k u).lock = .free) ?_]
  · split
    · rw [show (beganFtu k u).lock = .locked from h]
      decide
    · decide
  · rw [show (beganFtu k u).lock = .locked from h]
    decide

theorem propose_lock_ne_acquiring {u : State} (h : u.ftu.lock = .locked) : (propose k u).ftu.lock ≠ .acquiring := by
  unfold propose
  dsimp only
  split_ifs
  · rw [h]
    decide
  · exact issueAt_lock_ne_acquiring h
  · rw [State.onFtu_ftu, h]
    decide

theorem enterLocked_lock_ne_acquiring (u : State) : (enterLocked k u).ftu.lock ≠ .acquiring :=
  propose_lock_ne_acquiring (by rw [reportLock_ftu]; rfl)

end

theorem referenceEdge_free {k : Nat} {u : State} (h : u.ftu.lock = .free) : referenceEdge k u = u := by
  rw [referenceEdge, h]

theorem referenceEdge_acquiring {k : Nat} {u : State} (h : u.ftu.lock = .acquiring) :
    referenceEdge k u = edgeAcquiring k u := by
  rw [referenceEdge, h]

theorem referenceEdge_locked {k : Nat} {u : State} (h : u.ftu.lock = .locked) : referenceEdge k u = edgeLocked k u := by
  rw [referenceEdge, h]

theorem referenceEdge_holdover {k : Nat} {u : State} (h : u.ftu.lock = .holdover) :
    referenceEdge k u = placeByPeriod u.ftu.tick (enterAcquiring u) := by
  rw [referenceEdge, h]

/-- Settles O9. -/
theorem edgesOutsideLockMeasured : Obligations.EdgesOutsideLockMeasured := by
  intro k s htick haligned
  refine ⟨_, exec_referenceEdge_of_le htick, fun hfree => ?_, fun hacq hlast => ?_, fun l hacq hlast hle => ?_⟩
  · rw [referenceEdge_free (show (atTick k s).ftu.lock = .free from hfree)]
    rfl
  · rw [referenceEdge_acquiring (show (atTick k s).ftu.lock = .acquiring from hacq), edgeAcquiring]
    simp only [atTick, State.onFtu_ftu, hlast]
    rfl
  rw [referenceEdge_acquiring (show (atTick k s).ftu.lock = .acquiring from hacq)]
  refine ⟨edgeAcquiring_out_of_range hlast, fun hlo hhi hclosed => ?_, fun hlo hhi hopen hapart => ?_,
    fun hlo hhi hopen hcount hmatch => ?_, fun hlo hhi => ?_⟩
  · rw [edgeAcquiring_measuring hlast hlo hhi, measuring_restarts (.inl hclosed), if_neg (by simp), writeReference_ftu]
    rfl
  · rw [edgeAcquiring_measuring hlast hlo hhi, measuring_restarts (.inr hapart), if_neg (by simp), writeReference_ftu]
    rfl
  · rw [edgeAcquiring_measuring hlast hlo hhi, measuring_matches hopen hmatch, if_neg (by simp; omega),
      writeReference_ftu]
    rfl
  · rw [edgeAcquiring_measuring hlast hlo hhi]
    split
    · exact fun h => absurd h (enterLocked_lock_ne_acquiring _)
    · intro _
      have hin := (writeReference_in (s.onFtu fun _ => s.ftu.measuring k l)).of_onFtu
      have hlock : (s.ftu.measuring k l).lock = .acquiring := by
        unfold Ftu.measuring Ftu.accept
        split <;> exact hacq
      have hmeasured : (s.ftu.measuring k l).measured = k - l := by
        unfold Ftu.measuring Ftu.accept
        split <;> rfl
      refine ⟨writeReference_then (onFtu_then _ (.refl _ _) rfl) rfl, hin.unanchored, hin.outside, fun hforce => ?_⟩
      obtain ⟨hword, hword', -⟩ :=
        writeReference_words (s := s.onFtu fun _ => s.ftu.measuring k l) haligned hforce
      rw [State.onFtu_ftu, hlock] at hword
      rw [State.onFtu_ftu, hmeasured] at hword'
      exact ⟨hword, hword'⟩

/-! ## The fourth match -/

/-- An edge locks exactly when its period is the fourth of a run (R24). -/
theorem wouldLock_iff (f : Ftu) (k : Nat) : f.wouldLock k = true ↔ f.lock = .acquiring ∧ ∃ l, f.lastEdge = some l ∧
    400000 ≤ k - l ∧ k - l ≤ 4200000 ∧ f.runOpen = true ∧ f.runCount = 3 ∧
    (max (k - l) f.measured - min (k - l) f.measured) * 1000 ≤ f.measured := by
  unfold Ftu.wouldLock
  cases hlast : f.lastEdge with
  | none => simp
  | some l =>
    have hcount : (f.accept (k - l)).runCount = 4 ↔ f.runOpen = true ∧ f.runCount = 3 ∧
        (max (k - l) f.measured - min (k - l) f.measured) * 1000 ≤ f.measured := by
      unfold Ftu.accept
      split
      · next h =>
        obtain ⟨hopen, hwithin⟩ := (Bool.and_eq_true _ _).mp h
        have hle : (max (k - l) f.measured - min (k - l) f.measured) * 1000 ≤ f.measured := of_decide_eq_true hwithin
        simp [hopen, hle]
      · next h =>
        refine Iff.intro (fun h0 => Nat.noConfusion (show (0 : Nat) = 4 from h0)) fun ⟨hopen, _, hle⟩ => ?_
        exact absurd ((Bool.and_eq_true _ _).mpr ⟨hopen, decide_eq_true hle⟩) h
    simp only [Bool.and_eq_true, beq_iff_eq, acceptable_iff, lockRun, hcount, Option.some.injEq, exists_eq_left',
      and_assoc]

theorem exec_enterLocked (k : Nat) (s : State) : exec (.enterLocked k) s =
    .next (if s.ftu.wouldLock (max s.ftu.tick k) then edgeAcquiring (max s.ftu.tick k) (reachTick k s) else s) := by
  have hsame : (reachTick k s).ftu.wouldLock (max s.ftu.tick k) = s.ftu.wouldLock (max s.ftu.tick k) := by
    rw [Bool.eq_iff_iff, wouldLock_iff, wouldLock_iff]
    rfl
  rw [← hsame]
  rfl

theorem exec_enterLocked_of_not {k : Nat} {s : State} (h : ¬s.ftu.wouldLock (max s.ftu.tick k) = true) :
    exec (.enterLocked k) s = .next s := by
  rw [exec_enterLocked, if_neg h]

/-- The state that the locking edge's proposal is made in. -/
def locking (k l : Nat) (s : State) : State := reportLock (s.onFtu fun _ => (s.ftu.measuring k l).lockedIn)

theorem locking_in (k l : Nat) (s : State) : WritesIn 0x118 0x124 s (locking k l s) :=
  (reportLock_in _).of_onFtu

theorem locking_frame (k l : Nat) (s : State) : ChangesOnly [.mem, .events, .ftu] s (locking k l s) :=
  reportLock_then (onFtu_then _ (.refl _ _) rfl) rfl

theorem locking_events (k l : Nat) (s : State) : (locking k l s).smp.events = s.smp.events ||| 0x020#10 := by
  rw [locking, reportLock_smp]
  rfl

theorem locking_ftu {k l : Nat} {s : State} (hopen : s.ftu.runOpen = true) (hcount : s.ftu.runCount = 3)
    (h : (max (k - l) s.ftu.measured - min (k - l) s.ftu.measured) * 1000 ≤ s.ftu.measured) :
    (locking k l s).ftu = { s.ftu with
      tick := k, lastEdge := some k, measured := k - l, runCount := 4, lock := .locked, lockedPeriod := some (k - l),
      slipCount := 0, schedule := s.ftu.schedule.filter fun x => !x.byPeriod } := by
  rw [locking, reportLock_ftu, State.onFtu_ftu, measuring_matches hopen h, hcount]
  rfl

theorem enabledAt_of_writesIn {lo hi : Nat} {s u : State} (h : WritesIn lo hi s u) (hlo : 0x38 ≤ lo)
    (hen : u.ftu.refEnable = s.ftu.refEnable) : enabledAt u = enabledAt s := by
  unfold enabledAt
  rw [h.inForce, h.anchorWord (o := 0x34) (.inl (by omega)), hen]

/-- What a frame start outside FREE leaves of the reference state when it finds the reference enabled. -/
theorem issueAt_enabled {k : Nat} {u : State} (hlock : u.ftu.lock ≠ .free) (hen : enabledAt u = true) :
    let t := issueAt k u
    t.ftu.lock = u.ftu.lock ∧ t.ftu.lockedPeriod = u.ftu.lockedPeriod ∧ t.ftu.measured = u.ftu.measured ∧
    t.ftu.slipCount = u.ftu.slipCount ∧ t.ftu.runCount = u.ftu.runCount ∧ t.ftu.lastEdge = u.ftu.lastEdge ∧
    t.ftu.schedule = if u.ftu.schedule = [] ∧ u.ftu.lock ≠ .locked then
      [⟨k + u.ftu.lockedPeriod.getD t.ftu.freeRun, true⟩] else u.ftu.schedule := by
  simp only [issueAt_ftu_enabled hlock hen, Ftu.placed_schedule]
  refine ⟨?_, ?_, ?_, ?_, ?_, ?_, ?_⟩
  · exact placed_kept Ftu.lock (fun _ _ => rfl) _
  · exact placed_kept Ftu.lockedPeriod (fun _ _ => rfl) _
  · exact placed_kept Ftu.measured (fun _ _ => rfl) _
  · exact placed_kept Ftu.slipCount (fun _ _ => rfl) _
  · exact placed_kept Ftu.runCount (fun _ _ => rfl) _
  · exact placed_kept Ftu.lastEdge (fun _ _ => rfl) _
  · rw [placed_kept Ftu.freeRun (fun _ _ => rfl)]
    rfl

/-- What a frame start outside FREE leaves of it when it finds the reference disabled. -/
theorem issueAt_disabled {k : Nat} {u : State} (hlock : u.ftu.lock ≠ .free) (hen : enabledAt u = false) :
    let t := issueAt k u
    t.ftu.lock = .free ∧ t.ftu.lockedPeriod = none ∧ t.ftu.measured = 0 ∧ t.ftu.slipCount = 0 ∧ t.ftu.runCount = 0 ∧
    t.ftu.lastEdge = none ∧
    t.ftu.schedule = if u.ftu.schedule = [] then [⟨k + t.ftu.freeRun, true⟩] else u.ftu.schedule := by
  simp only [issueAt_ftu_disabled hlock hen, Ftu.placed_schedule]
  refine ⟨?_, ?_, ?_, ?_, ?_, ?_, ?_⟩
  · exact placed_kept Ftu.lock (fun _ _ => rfl) _
  · exact placed_kept Ftu.lockedPeriod (fun _ _ => rfl) _
  · exact placed_kept Ftu.measured (fun _ _ => rfl) _
  · exact placed_kept Ftu.slipCount (fun _ _ => rfl) _
  · exact placed_kept Ftu.runCount (fun _ _ => rfl) _
  · exact placed_kept Ftu.lastEdge (fun _ _ => rfl) _
  · rw [placed_kept Ftu.freeRun (fun _ _ => rfl)]
    simp [Ftu.freed, beganFtu]

theorem or_refState_idem (e : BitVec 10) : e ||| 0x020#10 ||| 0x020#10 = e ||| 0x020#10 := by
  rw [BitVec.or_assoc, BitVec.or_self]

/-- Settles O10. -/
theorem fourthMatchEntersLocked : Obligations.FourthMatchEntersLocked := by
  refine ⟨fun k s h => exec_enterLocked_of_not fun hlock => ?_, fun k l s htick hlast h =>
    exec_enterLocked_of_not fun hlock => ?_, fun k l s htick hacq hlast hle hlo hhi hopen hcount hmatch => ?_⟩
  · obtain ⟨hacq, l, hlast, -, -, -, hcount, -⟩ := (wouldLock_iff _ _).mp hlock
    obtain h | h | h := h
    · exact h hacq
    · rw [h] at hlast
      cases hlast
    · exact h hcount
  · rw [Nat.max_eq_right htick] at hlock
    obtain ⟨-, l', hlast', hlo, hhi, hopen, -, hmatch⟩ := (wouldLock_iff _ _).mp hlock
    obtain rfl : l = l' := Option.some.inj (hlast.symm.trans hlast')
    obtain h | h | h | h := h
    · omega
    · omega
    · rw [h] at hopen
      cases hopen
    · omega
  have hfour : (s.ftu.measuring k l).runCount = 4 := by rw [measuring_matches hopen hmatch, hcount]
  have hedge : edgeAcquiring k (atTick k s) = propose k (locking k l s) := by
    rw [edgeAcquiring_measuring hlast hlo hhi, if_pos hfour]
    rfl
  have hexec : exec (.enterLocked k) s = .next (propose k (locking k l s)) := by
    rw [exec_enterLocked, Nat.max_eq_right htick, if_pos (Iff.mpr (wouldLock_iff _ _) ⟨hacq, l, hlast, hlo, hhi, hopen,
      hcount, hmatch⟩), reachTick_of_le htick, hedge]
  have hexec' : exec (.referenceEdge k) s = .next (propose k (locking k l s)) := by
    rw [exec_referenceEdge_of_le htick, referenceEdge_acquiring (show (atTick k s).ftu.lock = .acquiring from hacq), hedge]
  have hu := locking_ftu hopen hcount hmatch
  have hin := locking_in k l s
  have hframe := locking_frame k l s
  have hevents := locking_events k l s
  simp only [hexec, hexec', Host.Outcome.next.injEq, exists_eq_left', true_and]
  generalize locking k l s = u at hu hin hframe hevents ⊢
  have hoffset : u.ftu.offset = min s.ftu.phase.toNat (k - l - 1) := by rw [hu]; rfl
  have hguard : u.ftu.guardTick = ((s.ftu.schedule.filter fun x => !x.byPeriod).map Sched.tick).foldl max
      s.ftu.lastStart + (k - l) / 2 := by rw [hu]; rfl
  have htick' : u.ftu.tick = k := by rw [hu]
  refine ⟨fun h => ?_, fun hzero hle haligned => ?_⟩
  · obtain ⟨q, hpropose, hdropped, hplaced⟩ := propose_scheduled htick' (by rw [hoffset, hguard]; omega)
    rw [hoffset, hguard] at hdropped hplaced
    rw [hpropose]
    refine ⟨?_, ?_, ?_, ?_, ?_, ?_, ?_, hevents, fun hlt => ?_, fun hge => ?_, onFtu_then _ hframe rfl, hin.unanchored,
      hin.outside⟩
    iterate 7 rw [State.onFtu_ftu, hu]
    · exact (hdropped hlt).trans (by rw [hu])
    · exact (hplaced hge).trans (by rw [hu])
  · have hlock : u.ftu.lock = .locked := by rw [hu]
    have hne : u.ftu.lock ≠ .free := by rw [hlock]; decide
    have hin' : WritesIn 0x114 0x124 s (issueAt k u) :=
      (hin.mono (by omega) (Nat.le_refl _)).trans (issueAt_in k u)
    have hen : enabledAt u = enabledAt s := enabledAt_of_writesIn hin (by omega) (by rw [hu])
    rw [propose_issued htick' (by rw [hoffset]; omega) (by rw [hguard]; exact hle)]
    refine ⟨issueAt_frameNumber.trans (by rw [hu]), issueAt_lastStart, issueAt_frameDue, ?_, fun h => ?_, fun h => ?_,
      issueAt_then _ (hframe.mono (by decide)) rfl, hin'.unanchored, hin'.outside⟩
    · cases h : enabledAt u
      · rw [issueAt_events_disabled hne h, hevents, or_refState_idem]
      · rw [issueAt_events_enabled hne h, hevents]
    · obtain ⟨h1, h2, h3, h4, h5, h6, h7⟩ := issueAt_enabled (k := k) hne (hen.trans h)
      rw [if_neg (fun h => h.2 hlock)] at h7
      rw [h1, h2, h3, h4, h5, h6, h7, hu]
      exact ⟨rfl, rfl, rfl, rfl, rfl, rfl, rfl⟩
    · obtain ⟨h1, h2, h3, -, h5, h6, h7⟩ := issueAt_disabled (k := k) hne (hen.trans h)
      refine ⟨h1, h2, h3, h5, h6, h7.trans ?_⟩
      rw [show u.ftu.schedule = s.ftu.schedule.filter fun x => !x.byPeriod by rw [hu]]

/-! ## An edge in LOCKED -/

/-- The state that the proposal of a good edge is made in. -/
def goodEdge (k l : Nat) (s : State) : State :=
  writeReference (s.onFtu fun f => { f with tick := k, measured := k - l, slipCount := 0, lastEdge := some k })

/-- The state that the proposal of a first slip is made in. -/
def firstSlip (k : Nat) (s : State) : State :=
  s.onFtu fun f => { f with tick := k, slipCount := 1, lastEdge := some k }

/-- The interval that ends at the edge is within 0.1% of the locked period. -/
def Good (k l p : Nat) : Prop := (max (k - l) p - min (k - l) p) * 1000 ≤ p

section
variable {k l p : Nat} {s : State}

theorem within_iff_good : within (k - l) p = true ↔ Good k l p := decide_eq_true_iff

theorem edgeLocked_good (hlast : s.ftu.lastEdge = some l) (hp : s.ftu.lockedPeriod = some p) (h : Good k l p) :
    edgeLocked k (atTick k s) = propose k (goodEdge k l s) := by
  unfold edgeLocked
  simp only [atTick, State.onFtu_ftu, hlast, hp, Option.getD_some]
  rw [if_pos (within_iff_good.mpr h)]
  rfl

theorem edgeLocked_firstSlip (hlast : s.ftu.lastEdge = some l) (hp : s.ftu.lockedPeriod = some p) (h : ¬Good k l p)
    (hslip : s.ftu.slipCount = 0) : edgeLocked k (atTick k s) = propose k (firstSlip k s) := by
  unfold edgeLocked
  simp only [atTick, State.onFtu_ftu, hlast, hp, Option.getD_some]
  rw [if_neg (fun hw => h (within_iff_good.mp hw)), if_pos hslip]
  rfl

theorem edgeLocked_secondSlip (hlast : s.ftu.lastEdge = some l) (hp : s.ftu.lockedPeriod = some p) (h : ¬Good k l p)
    (hslip : s.ftu.slipCount ≠ 0) : edgeLocked k (atTick k s) = placeByPeriod k (enterAcquiring (atTick k s)) := by
  unfold edgeLocked
  simp only [atTick, State.onFtu_ftu, hlast, hp, Option.getD_some]
  rw [if_neg (fun hw => h (within_iff_good.mp hw)), if_neg hslip]

end

/-- A state in which the proposal of an edge in LOCKED that is good or a first slip is made. -/
structure LockedEdge (k l p : Nat) (s u : State) : Prop where
  good : Good k l p → u.ftu.measured = k - l ∧ u.ftu.slipCount = 0
  slip : ¬Good k l p → u.ftu.measured = s.ftu.measured ∧ u.ftu.slipCount = 1 ∧ u.mem = s.mem
  rest : u.ftu = { s.ftu with
    tick := k, lastEdge := some k, measured := u.ftu.measured, slipCount := u.ftu.slipCount }
  events : u.smp.events = s.smp.events
  within : WritesIn 0x118 0x124 s u
  frame : ChangesOnly [.mem, .ftu] s u

theorem lockedEdge_exists {k l p : Nat} {s : State} (htick : s.ftu.tick ≤ k) (hlock : s.ftu.lock = .locked)
    (hlast : s.ftu.lastEdge = some l) (hp : s.ftu.lockedPeriod = some p) (h : Good k l p ∨ s.ftu.slipCount = 0) :
    ∃ u, LockedEdge k l p s u ∧ exec (.referenceEdge k) s = .next (propose k u) := by
  rw [exec_referenceEdge_of_le htick, referenceEdge_locked (show (atTick k s).ftu.lock = .locked from hlock)]
  by_cases hgood : Good k l p
  · rw [edgeLocked_good hlast hp hgood]
    have hin := (writeReference_in
      (s.onFtu fun f => { f with tick := k, measured := k - l, slipCount := 0, lastEdge := some k })).of_onFtu
    have hftu : (goodEdge k l s).ftu =
        { s.ftu with tick := k, measured := k - l, slipCount := 0, lastEdge := some k } := by
      rw [goodEdge, writeReference_ftu]
      rfl
    exact ⟨goodEdge k l s, ⟨fun _ => by rw [hftu]; exact ⟨rfl, rfl⟩, fun hslip => absurd hgood hslip, by rw [hftu],
      by rw [goodEdge, writeReference_smp]; rfl, hin, writeReference_then (onFtu_then _ (.refl _ _) rfl) rfl⟩, rfl⟩
  · have hslip := h.resolve_left hgood
    rw [edgeLocked_firstSlip hlast hp hgood hslip]
    exact ⟨firstSlip k s, ⟨fun h => absurd h hgood, fun _ => ⟨rfl, rfl, rfl⟩, rfl, rfl, .of_same rfl rfl rfl,
      onFtu_then _ (.refl _ _) rfl⟩, rfl⟩

/-- Settles O11. -/
theorem lockedEdgeGoodOrFirstSlip : Obligations.LockedEdgeGoodOrFirstSlip := by
  intro k l p s htick hlock hlast hle hp htwo
  refine ⟨fun hedge h => ?_, fun hedge hzero hguard haligned => ?_⟩ <;>
    obtain ⟨u, hu, hexec⟩ := lockedEdge_exists htick hlock hlast hp hedge <;>
    (refine ⟨_, hexec, ?_⟩
     have hoffset : u.ftu.offset = min s.ftu.phase.toNat (p - 1) := by rw [hu.rest, Ftu.offset, hp]; rfl
     have hguardTick : u.ftu.guardTick = (s.ftu.schedule.map Sched.tick).foldl max s.ftu.lastStart + p / 2 := by
       rw [hu.rest, Ftu.guardTick, hp]; rfl
     have htick' : u.ftu.tick = k := by rw [hu.rest])
  · obtain ⟨q, hpropose, hdropped, hplaced⟩ := propose_scheduled htick' (by rw [hoffset, hguardTick]; omega)
    rw [hoffset, hguardTick] at hdropped hplaced
    rw [hpropose]
    refine ⟨hu.good, hu.slip, ?_, ?_, ?_, ?_, fun hlt => ?_, fun hge => ?_, onFtu_then _ hu.frame rfl,
      hu.within.unanchored, hu.within.outside⟩
    · rw [State.onFtu_ftu, hu.rest]
      exact hlock
    · rw [State.onFtu_ftu, hu.rest]
      exact hp
    · rw [State.onFtu_ftu, hu.rest]
    · rw [State.onFtu_ftu, hu.rest]
    · exact (hdropped hlt).trans (by rw [hu.rest])
    · exact (hplaced hge).trans (by rw [hu.rest])
  · have hlock' : u.ftu.lock = .locked := by rw [hu.rest]; exact hlock
    have hne : u.ftu.lock ≠ .free := by rw [hlock']; decide
    have hin : WritesIn 0x114 0x124 s (issueAt k u) :=
      (hu.within.mono (by omega) (Nat.le_refl _)).trans (issueAt_in k u)
    have hen : enabledAt u = enabledAt s := enabledAt_of_writesIn hu.within (by omega) (by rw [hu.rest])
    rw [propose_issued htick' (by rw [hoffset, hzero]; omega) (by rw [hguardTick]; exact hguard)]
    refine ⟨issueAt_frameNumber.trans (by rw [hu.rest]), issueAt_lastStart, issueAt_frameDue, fun h => ?_, fun h => ?_,
      issueAt_then _ (hu.frame.mono (by decide)) rfl, hin.unanchored, hin.outside⟩
    · obtain ⟨h1, h2, h3, h4, -, h6, h7⟩ := issueAt_enabled (k := k) hne (hen.trans h)
      rw [if_neg (fun h => h.2 hlock')] at h7
      rw [h1, h2, h3, h4, h6, h7, issueAt_events_enabled hne (hen.trans h), hlock']
      exact ⟨rfl, by rw [hu.rest]; exact hp, by rw [hu.rest], hu.good, fun h => ⟨(hu.slip h).1, (hu.slip h).2.1⟩,
        by rw [hu.rest], hu.events⟩
    · obtain ⟨h1, h2, h3, h4, -, h6, h7⟩ := issueAt_disabled (k := k) hne (hen.trans h)
      rw [issueAt_events_disabled hne (hen.trans h), hu.events]
      exact ⟨h1, h2, h3, h4, h6, rfl, h7.trans (by rw [show u.ftu.schedule = s.ftu.schedule by rw [hu.rest]])⟩

/-! ## Reacquiring and the holdover interval -/

section
variable {k p : Nat} {s : State}

/-- What entering ACQUIRING by an edge leaves to be placed. -/
theorem exec_referenceEdge_reacquires {l : Nat} (htick : s.ftu.tick ≤ k) (hp : s.ftu.lockedPeriod = some p)
    (h : s.ftu.lock = .holdover ∨ (s.ftu.lock = .locked ∧ s.ftu.lastEdge = some l ∧ s.ftu.slipCount ≠ 0 ∧ l ≤ k ∧
      p < (max (k - l) p - min (k - l) p) * 1000)) :
    exec (.referenceEdge k) s = .next (placeByPeriod k (enterAcquiring (atTick k s))) := by
  rw [exec_referenceEdge_of_le htick]
  obtain hhold | ⟨hlock, hlast, hslip, -, hapart⟩ := h
  · rw [referenceEdge_holdover (show (atTick k s).ftu.lock = .holdover from hhold)]
    rfl
  · rw [referenceEdge_locked (show (atTick k s).ftu.lock = .locked from hlock),
      edgeLocked_secondSlip hlast hp (by unfold Good; omega) hslip]

theorem enterAcquiring_atTick_ftu : (enterAcquiring (atTick k s)).ftu =
    { s.ftu with tick := k, lock := .acquiring, runCount := 0, runOpen := false, lastEdge := none } := by
  rw [enterAcquiring, reportLock_ftu]
  rfl

end

/-- Settles O12. -/
theorem secondSlipOrHoldoverEdgeReacquires : Obligations.SecondSlipOrHoldoverEdgeReacquires := by
  intro k l p s htick hp hcase
  have hexec := exec_referenceEdge_reacquires htick hp hcase
  have hu : (enterAcquiring (atTick k s)).ftu = _ := enterAcquiring_atTick_ftu
  have hin : WritesIn 0x118 0x124 s (enterAcquiring (atTick k s)) :=
    (reportLock_in ((atTick k s).onFtu Ftu.acquiring)).of_onFtu.of_onFtu
  have hframe : ChangesOnly [.mem, .events, .ftu] s (enterAcquiring (atTick k s)) :=
    enterAcquiring_then (onFtu_then _ (.refl _ _) rfl) rfl
  have hevents : (enterAcquiring (atTick k s)).smp.events = s.smp.events ||| 0x020#10 := by
    rw [enterAcquiring, reportLock_smp]
    rfl
  generalize enterAcquiring (atTick k s) = u at hexec hu hin hframe hevents
  have hlock : u.ftu.lock = .acquiring := by rw [hu]
  have hperiod : u.ftu.periodTick = s.ftu.lastStart + p := by rw [hu, Ftu.periodTick, Ftu.periodInUse, hp]; rfl
  have hsched : u.ftu.schedule = s.ftu.schedule := by rw [hu]
  refine ⟨fun h => ⟨_, hexec, ?_⟩, fun hempty hlate haligned => ⟨_, hexec, ?_⟩⟩
  · rw [placeByPeriod_waits (by rw [hlock]; decide) (by rw [hsched, hperiod]; exact h), hperiod, hsched]
    exact ⟨by rw [State.onFtu_ftu, hu], hevents, onFtu_then _ hframe rfl, hin.unanchored, hin.outside⟩
  · have hne : u.ftu.lock ≠ .free := by rw [hlock]; decide
    have hin' : WritesIn 0x114 0x124 s (issueAt k u) := (hin.mono (by omega) (Nat.le_refl _)).trans (issueAt_in k u)
    have hen : enabledAt u = enabledAt s := enabledAt_of_writesIn hin (by omega) (by rw [hu])
    have hempty' : u.ftu.schedule = [] := hsched.trans hempty
    have hperiodu : u.ftu.lockedPeriod = some p := by rw [hu]; exact hp
    rw [placeByPeriod_overdue (by rw [hlock]; decide) hempty' (by rw [hperiod]; exact hlate)]
    have hmeasured : u.ftu.measured = s.ftu.measured := by rw [hu]
    have hrun : u.ftu.runCount = 0 := by rw [hu]
    have hedge : u.ftu.lastEdge = none := by rw [hu]
    have hend : ∀ b, enabledAt u = b → (issueAt k u).smp.events = s.smp.events ||| 0x020#10 ∧
        (issueAt k u).ftu.runCount = 0 ∧ (issueAt k u).ftu.lastEdge = none := by
      intro b hb
      cases b
      · obtain ⟨-, -, -, -, h5, h6, -⟩ := issueAt_disabled (k := k) hne hb
        exact ⟨by rw [issueAt_events_disabled hne hb, hevents, or_refState_idem], h5, h6⟩
      · obtain ⟨-, -, -, -, h5, h6, -⟩ := issueAt_enabled (k := k) hne hb
        exact ⟨by rw [issueAt_events_enabled hne hb, hevents], h5.trans hrun, h6.trans hedge⟩
    obtain ⟨hevents', hrun', hedge'⟩ := hend _ rfl
    refine ⟨issueAt_frameNumber.trans (by rw [hu]), issueAt_tick.trans (by rw [hu]), issueAt_lastStart, issueAt_frameDue,
      hevents', hrun', hedge', fun h => ?_, fun h => ?_, issueAt_then _ (hframe.mono (by decide)) rfl, hin'.unanchored,
      hin'.outside⟩
    · obtain ⟨h1, h2, h3, -, -, -, h7⟩ := issueAt_enabled (k := k) hne (hen.trans h)
      rw [if_pos ⟨hempty', by rw [hlock]; decide⟩, hperiodu] at h7
      exact ⟨h1.trans hlock, h2.trans hperiodu, h3.trans hmeasured, h7⟩
    · obtain ⟨h1, h2, h3, -, -, -, h7⟩ := issueAt_disabled (k := k) hne (hen.trans h)
      rw [if_pos hempty'] at h7
      exact ⟨h1, h2, h3, h7⟩

/-- The state that the frame start of the holdover interval is placed in. -/
def holdingOver (k : Nat) (s : State) : State :=
  reportLock (s.onFtu fun f => { f with tick := k, lock := .holdover, slipCount := 0 })

theorem exec_holdoverExpiry_of_locked {s : State} {e p : Nat} (hlock : s.ftu.lock = .locked)
    (hlast : s.ftu.lastEdge = some e) (hp : s.ftu.lockedPeriod = some p) (htick : s.ftu.tick ≤ e + p + p / 2) :
    exec .holdoverExpiry s = .next (placeByPeriod (e + p + p / 2) (holdingOver (e + p + p / 2) s)) := by
  have hat : s.ftu.holdoverTick = e + p + p / 2 := by
    rw [Ftu.holdoverTick, hlast, hp, Option.getD_some, Option.getD_some, halfPeriod]
    omega
  change Host.Outcome.next (if s.ftu.lock = .locked then enterHoldover (reachTick s.ftu.holdoverTick s) else s) = _
  rw [if_pos hlock, hat, reachTick_of_le htick]
  rfl

/-- Settles O13. -/
theorem holdoverKeepsLockedRate : Obligations.HoldoverKeepsLockedRate := by
  refine ⟨fun s h => congrArg Host.Outcome.next (if_neg h), fun e p s hlock hlast hp hempty htick haligned =>
    ⟨_, exec_holdoverExpiry_of_locked hlock hlast hp htick, ?_⟩⟩
  generalize e + p + p / 2 = k
  have hu : (holdingOver k s).ftu = { s.ftu with tick := k, lock := .holdover, slipCount := 0 } := by
    rw [holdingOver, reportLock_ftu]
    rfl
  have hin : WritesIn 0x118 0x124 s (holdingOver k s) := (reportLock_in _).of_onFtu
  have hframe : ChangesOnly [.mem, .events, .ftu] s (holdingOver k s) :=
    reportLock_then (onFtu_then _ (.refl _ _) rfl) rfl
  have hevents : (holdingOver k s).smp.events = s.smp.events ||| 0x020#10 := by
    rw [holdingOver, reportLock_smp]
    rfl
  have hshown : RefShown (holdingOver k s) := reportLock_refShown haligned
  generalize holdingOver k s = u at hu hin hframe hevents hshown
  have hlocku : u.ftu.lock = .holdover := by rw [hu]
  have hperiod : u.ftu.periodTick = s.ftu.lastStart + p := by rw [hu, Ftu.periodTick, Ftu.periodInUse, hp]; rfl
  have hperiodu : u.ftu.lockedPeriod = some p := by rw [hu]; exact hp
  have hempty' : u.ftu.schedule = [] := by rw [hu]; exact hempty
  by_cases hlate : k ≤ s.ftu.lastStart + p
  · rw [placeByPeriod_waits (by rw [hlocku]; decide) (.inr (by rw [hperiod]; exact hlate)), hperiod, if_pos hempty']
    have hshown' := hshown
    unfold RefShown anchorWord at hshown'
    rw [hin.inForce, hin.anchor] at hshown'
    exact ⟨by rw [State.onFtu_ftu, hu], by rw [State.onFtu_ftu, hu], hevents, hin.unanchored, hshown', fun _ =>
      ⟨hlocku, hperiodu, by rw [State.onFtu_ftu, hu], by rw [State.onFtu_ftu, hu], rfl, onFtu_then _ hframe rfl,
        hin.outside⟩, fun hlt => absurd hlate (by omega)⟩
  · have hne : u.ftu.lock ≠ .free := by rw [hlocku]; decide
    have hin' : WritesIn 0x114 0x124 s (issueAt k u) := (hin.mono (by omega) (Nat.le_refl _)).trans (issueAt_in k u)
    have hen : enabledAt u = enabledAt s := enabledAt_of_writesIn hin (by omega) (by rw [hu])
    rw [placeByPeriod_overdue (by rw [hlocku]; decide) hempty' (by rw [hperiod]; omega)]
    have hshown' : RefShown (issueAt k u) := issueAt_refShown (by rw [hin.anchor]; exact haligned) hshown
    unfold RefShown anchorWord at hshown'
    rw [hin'.inForce, hin'.anchor] at hshown'
    have hslip : u.ftu.slipCount = 0 := by rw [hu]
    have hend : ∀ b, enabledAt u = b →
        (issueAt k u).ftu.slipCount = 0 ∧ (issueAt k u).smp.events = s.smp.events ||| 0x020#10 := by
      intro b hb
      cases b
      · obtain ⟨-, -, -, h4, -⟩ := issueAt_disabled (k := k) hne hb
        exact ⟨h4, by rw [issueAt_events_disabled hne hb, hevents, or_refState_idem]⟩
      · obtain ⟨-, -, -, h4, -⟩ := issueAt_enabled (k := k) hne hb
        exact ⟨h4.trans hslip, by rw [issueAt_events_enabled hne hb, hevents]⟩
    obtain ⟨hslip', hevents'⟩ := hend _ rfl
    refine ⟨hslip', issueAt_tick.trans (by rw [hu]), hevents', hin'.unanchored, hshown', fun hle => absurd hle hlate,
      fun _ => ⟨issueAt_frameNumber.trans (by rw [hu]), issueAt_lastStart, issueAt_frameDue, fun h => ?_, fun h => ?_,
        issueAt_then _ (hframe.mono (by decide)) rfl, hin'.outside⟩⟩
    · obtain ⟨h1, h2, -, -, -, -, h7⟩ := issueAt_enabled (k := k) hne (hen.trans h)
      rw [if_pos ⟨hempty', by rw [hlocku]; decide⟩, hperiodu] at h7
      exact ⟨h1.trans hlocku, h2.trans hperiodu, h7⟩
    · obtain ⟨h1, h2, h3, -, -, h6, h7⟩ := issueAt_disabled (k := k) hne (hen.trans h)
      rw [if_pos hempty'] at h7
      exact ⟨h1, h2, h3, h6, h7⟩

end Sys2Proof.Machine
end

section
/-! SUPPORT. The end of a clip and of a message, slot by slot (sections 6.5, 7.6): what it makes of the slot, of the claim lists
and of the pending events, and the passes that end every clip or message. -/

namespace Sys2Proof.Machine

/-! ## The events that the work of the owners raises -/

/-- The events of cue records, play records and accounts. -/
def Event.ofWork : Event → Bool
  | .cueDone | .logOverflow | .logIndexBad | .groupSaturated => true
  | _ => false

/-- No pending event is cleared, and none is raised but those of cue records, play records and accounts. -/
structure RaisesWork (s t : State) : Prop where
  keeps : ∀ e, pendingFlag s e = true → pendingFlag t e = true
  only : ∀ e : Event, e.ofWork = false → pendingFlag t e = pendingFlag s e

section
variable {s t u : State}

theorem RaisesWork.of_same (h : t.smp.events = s.smp.events) : RaisesWork s t where
  keeps e he := by rwa [pendingFlag, h]
  only e _ := by rw [pendingFlag, h, pendingFlag]

theorem RaisesWork.trans (h : RaisesWork s t) (k : RaisesWork t u) : RaisesWork s u where
  keeps e he := k.keeps e (h.keeps e he)
  only e he := (k.only e he).trans (h.only e he)

theorem raise_isPending (e x : Event) (s : State) : pendingFlag (raise e s) x = (pendingFlag s x || x == e) := by
  unfold pendingFlag
  rw [raise_smp, BitVec.getLsbD_or]
  congr 1
  cases e <;> cases x <;> decide

theorem raise_raisesWork {e : Event} (h : e.ofWork = true) (s : State) : RaisesWork s (raise e s) where
  keeps x hx := by rw [raise_isPending, hx, Bool.true_or]
  only x hx := by
    have hne : (x == e) = false := by
      rw [beq_eq_false_iff_ne]
      rintro rfl
      rw [h] at hx
      cases hx
    rw [raise_isPending, hne, Bool.or_false]

theorem writeDone_raisesWork (i : Nat) (r : CueResult) (s : State) : RaisesWork s (writeDone i r s) := by
  unfold writeDone
  split
  · exact (RaisesWork.of_same (by rw [writeCue_smp])).trans (raise_raisesWork rfl _)
  · exact .of_same rfl

theorem completeCue_raisesWork (epoch i : Nat) (r : CueResult) (s : State) : RaisesWork s (completeCue epoch i r s) := by
  unfold completeCue
  split
  · exact writeDone_raisesWork i r s
  · exact .of_same rfl

theorem triggerResult_raisesWork (e : Fin 8) (status : Status) (shown lit : Nat) (s : State) :
    RaisesWork s (triggerResult e status shown lit s) :=
  .of_same (triggerResult_then e status shown lit (ChangesOnly.refl [.etu, .mem] s) rfl .events rfl)

theorem sourceEvent_raisesWork (ev : TriggerSource) (s : State) : RaisesWork s (sourceEvent ev s) :=
  .of_same (sourceEvent_then ev (ChangesOnly.refl [.etu, .mem] s) rfl .events rfl)

theorem inFreeOrder_raisesWork {α : Type} {f : α → State → State} (hf : ∀ x t, RaisesWork t (f x t)) (l : List α)
    (s : State) : RaisesWork s (inFreeOrder l f s) :=
  inFreeOrder_induct (P := RaisesWork s) (.of_same rfl) fun x _ _ h => h.trans (hf x _)

end

theorem upd_upd {α : Type} {n : Nat} (v : Vector α n) (i : Fin n) (f g : α → α) :
    upd (upd v i f) i g = upd v i fun x => g (f x) := by
  simp [upd]

theorem workingClips_nodup (c : Cle) : (workingClips c).Nodup := (List.nodup_finRange 8).filter _

theorem workingMessages_nodup (m : Msu) : (workingMessages m).Nodup := (List.nodup_finRange 8).filter _

/-! ## Claims that are released -/

theorem holdsIn_removeClaim (who other : Claimant) (cs : List Claim) :
    holdsIn who (removeClaim other cs) = (holdsIn who cs && who != other) := by
  rw [Bool.eq_iff_iff, Bool.and_eq_true, holdsIn_iff, holdsIn_iff, bne_iff_ne]
  simp only [List.mem_map, mem_removeClaim]
  constructor
  · rintro ⟨c, ⟨hc, hne⟩, rfl⟩
    exact ⟨⟨c, hc, rfl⟩, hne⟩
  · rintro ⟨⟨c, hc, rfl⟩, hne⟩
    exact ⟨c, ⟨hc, hne⟩, rfl⟩

/-- The zones in which the claimant holds a claim. -/
def heldZones (z : Zar) (who : Claimant) : Fin 16 → Bool := fun i => holdsIn who (claimsAt z i)

theorem heldZones_releaseClaims (who other : Claimant) (s : State) : heldZones (releaseClaims other s).zar who =
    if who = other then fun _ => false else heldZones s.zar who := by
  funext z
  have hheld : heldZones (releaseClaims other s).zar who z = holdsIn who (removeClaim other (claimsAt s.zar z)) :=
    congrArg (holdsIn who) (releaseClaims_claimsAt other s z)
  rw [hheld, holdsIn_removeClaim]
  split
  · next h => simp [h]
  · next h => simp [h, heldZones]

theorem holdsAny_eq_false_of_heldZones {z : Zar} {who : Claimant} (h : heldZones z who = fun _ => false) :
    holdsAny z who = false := by
  rw [holdsAny, List.any_eq_false]
  intro i _
  rw [show holdsIn who (claimsAt z i) = false from congrFun h i]
  decide

/-! ## The end of a clip -/

theorem onClip_get (k j : Fin 8) (f : ClipSlot → ClipSlot) (s : State) :
    (onClip k f s).cle.slots[j] = if j = k then f s.cle.slots[k] else s.cle.slots[j] := upd_get _ _ _ _

/-- The slot of a clip that has ended and waits for its outstanding report. -/
def ClipSlot.endedAt (frame : Frame) (status : Status) (c : ClipSlot) : ClipSlot :=
  { c with state := .ending, status := some status, endFrame := frame, holdings := 0 }

/-- What an end makes of a slot (R101). -/
def ClipSlot.ended (frame : Frame) (status : Status) (c : ClipSlot) : ClipSlot :=
  if c.working then (if c.outstanding = none then .cleared else c.endedAt frame status) else c

section
variable {k : Fin 8} {s : State} {status : Status}

/-- The results of a clip that completes, with its end event. -/
def clipCompleted (c : ClipSlot) (s : State) : State :=
  sourceEvent (.clipEnd c.tag) (match c.origin with
    | .cue i => completeCue c.epoch i c.result s
    | .trigger e => triggerResult e c.result.status c.framesShown c.litFrames s)

theorem completeClip_eq (k : Fin 8) (s : State) :
    completeClip k s = onClip k (fun _ => .cleared) (clipCompleted s.cle.slots[k] s) := rfl

theorem clipCompleted_then (c : ClipSlot) (s : State) : ChangesOnly [.mem, .events, .etu] s (clipCompleted c s) := by
  unfold clipCompleted
  refine sourceEvent_then _ ?_ rfl
  split
  · exact completeCue_then _ _ _ (.refl _ _) rfl
  · exact triggerResult_then _ _ _ _ (.refl _ _) rfl

theorem clipCompleted_raisesWork (c : ClipSlot) (s : State) : RaisesWork s (clipCompleted c s) := by
  unfold clipCompleted
  refine RaisesWork.trans ?_ (sourceEvent_raisesWork _ _)
  split
  · exact completeCue_raisesWork _ _ _ _
  · exact triggerResult_raisesWork _ _ _ _ _

theorem completeClip_cle (k : Fin 8) (s : State) :
    (completeClip k s).cle = { s.cle with slots := upd s.cle.slots k fun _ => .cleared } := by
  have hcle : (clipCompleted s.cle.slots[k] s).cle = s.cle := clipCompleted_then s.cle.slots[k] s .cle rfl
  rw [completeClip_eq, onClip, State.onCle_cle, hcle]

theorem completeClip_raisesWork (k : Fin 8) (s : State) : RaisesWork s (completeClip k s) :=
  (clipCompleted_raisesWork s.cle.slots[k] s).trans (.of_same rfl)

/-- A clip that has released its claims and waits in ENDING. -/
def clipEnding (status : Status) (k : Fin 8) (s : State) : State :=
  onClip k (ClipSlot.endedAt s.ftu.frame status) (releaseClaims (.clip k) s)

theorem endClip_of_idle (h : s.cle.slots[k].working = false) : endClip status k s = s := by
  rw [endClip, h]
  rfl

theorem endClip_of_outstanding {f : Frame} (h : s.cle.slots[k].working = true)
    (hout : s.cle.slots[k].outstanding = some f) : endClip status k s = clipEnding status k s := by
  unfold endClip
  rw [if_pos h]
  refine if_neg ?_
  rw [onClip_get, if_pos rfl]
  exact fun h => by cases hout.symm.trans h

theorem endClip_of_shown (h : s.cle.slots[k].working = true) (hout : s.cle.slots[k].outstanding = none) :
    endClip status k s = completeClip k (clipEnding status k s) := by
  unfold endClip
  rw [if_pos h]
  refine if_pos ?_
  rw [onClip_get, if_pos rfl]
  exact hout

theorem endClip_cases (status : Status) (k : Fin 8) (s : State) :
    (s.cle.slots[k].working = false ∧ endClip status k s = s) ∨
    (s.cle.slots[k].working = true ∧ ∃ f, s.cle.slots[k].outstanding = some f ∧
      endClip status k s = clipEnding status k s) ∨
    (s.cle.slots[k].working = true ∧ s.cle.slots[k].outstanding = none ∧
      endClip status k s = completeClip k (clipEnding status k s)) := by
  cases hw : s.cle.slots[k].working with
  | false => exact .inl ⟨rfl, endClip_of_idle hw⟩
  | true =>
    cases hout : s.cle.slots[k].outstanding with
    | none => exact .inr (.inr ⟨rfl, rfl, endClip_of_shown hw hout⟩)
    | some f => exact .inr (.inl ⟨rfl, f, rfl, endClip_of_outstanding hw hout⟩)

theorem endClip_cle (status : Status) (k : Fin 8) (s : State) : (endClip status k s).cle =
    { s.cle with slots := upd s.cle.slots k (ClipSlot.ended s.ftu.frame status) } := by
  obtain ⟨hw, h⟩ | ⟨hw, f, hout, h⟩ | ⟨hw, hout, h⟩ := endClip_cases status k s <;> rw [h]
  · rw [upd_congr (g := fun c => c) (by rw [ClipSlot.ended, if_neg (by rw [hw]; decide)])]
    simp [upd]
  · rw [upd_congr (g := ClipSlot.endedAt s.ftu.frame status)
      (by rw [ClipSlot.ended, if_pos hw, if_neg (by rw [hout]; exact fun h => by cases h)])]
    rfl
  · have hended : s.cle.slots[k].ended s.ftu.frame status = .cleared := by rw [ClipSlot.ended, if_pos hw, if_pos hout]
    rw [completeClip_cle, upd_congr (g := fun _ => .cleared) (v := s.cle.slots) hended]
    exact congrArg (fun v => ({ s.cle with slots := v } : Cle)) (upd_upd _ _ _ _)

theorem endClip_slot (status : Status) (k j : Fin 8) (s : State) : (endClip status k s).cle.slots[j] =
    if j = k then s.cle.slots[k].ended s.ftu.frame status else s.cle.slots[j] := by
  rw [endClip_cle]
  exact upd_get _ _ _ _

theorem endClip_heldZones (status : Status) (k : Fin 8) (s : State) (who : Claimant) :
    heldZones (endClip status k s).zar who =
      if who = .clip k ∧ s.cle.slots[k].working then fun _ => false else heldZones s.zar who := by
  rw [endClip_zar]
  cases s.cle.slots[k].working
  · simp
  · have h : heldZones (s.zar.onAllClaims (removeClaim (.clip k))) who = _ := heldZones_releaseClaims who (.clip k) s
    simp [h]

theorem endClip_raisesWork (status : Status) (k : Fin 8) (s : State) : RaisesWork s (endClip status k s) := by
  obtain ⟨hw, h⟩ | ⟨hw, f, hout, h⟩ | ⟨hw, hout, h⟩ := endClip_cases status k s <;> rw [h]
  · exact .of_same rfl
  · exact .of_same rfl
  · exact RaisesWork.trans (t := clipEnding status k s) (.of_same rfl) (completeClip_raisesWork k _)

end

theorem ended_not_working (frame : Frame) (status : Status) (c : ClipSlot) : (c.ended frame status).working = false := by
  unfold ClipSlot.ended
  split
  · split <;> rfl
  · next h => simpa using h

/-! ## The passes that end every clip -/

/-- A slot with the frame number and the zones of its clip's claims: what the end of a clip reads and changes of its own. -/
def clipView (k : Fin 8) (s : State) : ClipSlot × Frame × (Fin 16 → Bool) :=
  (s.cle.slots[k], s.ftu.frame, heldZones s.zar (.clip k))

/-- What an end makes of it. -/
def endedView (status : Status) (v : ClipSlot × Frame × (Fin 16 → Bool)) : ClipSlot × Frame × (Fin 16 → Bool) :=
  (v.1.ended v.2.1 status, v.2.1, if v.1.working then fun _ => false else v.2.2)

theorem endedView_of_idle {status : Status} {v : ClipSlot × Frame × (Fin 16 → Bool)} (h : v.1.working = false) :
    endedView status v = v := by
  rw [endedView, ClipSlot.ended, h]
  rfl

theorem endClip_clipView (status : Status) (k j : Fin 8) (s : State) : clipView j (endClip status k s) =
    if j = k then endedView status (clipView k s) else clipView j s := by
  have hftu : (endClip status k s).ftu = s.ftu :=
    endClip_then status k (ChangesOnly.refl [.cle, .mem, .events, .etu, .zar] s) rfl .ftu rfl
  unfold clipView endedView
  rw [endClip_slot, endClip_heldZones, hftu]
  by_cases h : j = k
  · subst h
    simp only [if_true, true_and]
  · have hne : ¬(Claimant.clip j = Claimant.clip k) := fun hc => h (by cases hc; rfl)
    simp only [if_neg h, hne, false_and, if_false]

theorem mem_workingClips {c : Cle} {k : Fin 8} : k ∈ workingClips c ↔ c.slots[k].working = true := by
  simp [workingClips, List.mem_finRange]

/-- After a pass over the working clips each slot has ended. -/
theorem endWorkingClips_clipView (status : Status) (s : State) (k : Fin 8) :
    clipView k (inFreeOrder (workingClips s.cle) (endClip status) s) = endedView status (clipView k s) := by
  rw [inFreeOrder_keyed (proj := clipView) (h := fun _ => endedView status)
    (fun i j t => endClip_clipView status i j t) (fun j t => rfl) _ (workingClips_nodup _)]
  split
  · rfl
  · next h =>
    have hw : (clipView k s).1.working = false := by simpa [mem_workingClips, clipView] using h
    exact (endedView_of_idle hw).symm

theorem endWorkingClips_gate (status : Status) (s : State) (l : List (Fin 8)) :
    (inFreeOrder l (endClip status) s).cle.gate = s.cle.gate :=
  inFreeOrder_induct (P := fun t => t.cle.gate = s.cle.gate) rfl fun k _ t h => by rw [endClip_cle]; exact h

/-! ## The end of a message -/

theorem onMessage_get (k j : Fin 8) (f : MessageSlot → MessageSlot) (s : State) :
    (onMessage k f s).msu.slots[j] = if j = k then f s.msu.slots[k] else s.msu.slots[j] := upd_get _ _ _ _

/-- The slot of a message that has ended and waits for its outstanding report. -/
def MessageSlot.endedAt (frame : Frame) (status : Status) (m : MessageSlot) : MessageSlot :=
  { m with state := .ending, status := some status, endFrame := frame, holdings := 0 }

/-- What an end makes of a slot (R119). -/
def MessageSlot.ended (frame : Frame) (status : Status) (m : MessageSlot) : MessageSlot :=
  if m.working then (if m.outstanding = none then .cleared else m.endedAt frame status) else m

section
variable {k : Fin 8} {s : State} {status : Status} {frame : Frame}

/-- The results of a message that completes, with its end event. -/
def messageCompleted (m : MessageSlot) (s : State) : State :=
  sourceEvent (.messageEnd m.tag) (completeOrigin m (m.status.getD .completed) m.endFrame s)

theorem completeMessage_eq (k : Fin 8) (s : State) :
    completeMessage k s = onMessage k (fun _ => .cleared) (messageCompleted s.msu.slots[k] s) := rfl

theorem messageCompleted_then (m : MessageSlot) (s : State) : ChangesOnly [.mem, .events, .etu] s (messageCompleted m s) :=
  sourceEvent_then _ (completeOrigin_then _ _ _ (.refl _ _) rfl) rfl

theorem completeOrigin_raisesWork (m : MessageSlot) (status : Status) (f : Frame) (s : State) :
    RaisesWork s (completeOrigin m status f s) := by
  unfold completeOrigin
  split
  · exact completeCue_raisesWork _ _ _ _
  · exact triggerResult_raisesWork _ _ _ _ _

theorem messageCompleted_raisesWork (m : MessageSlot) (s : State) : RaisesWork s (messageCompleted m s) :=
  (completeOrigin_raisesWork _ _ _ s).trans (sourceEvent_raisesWork _ _)

theorem completeMessage_msu (k : Fin 8) (s : State) :
    (completeMessage k s).msu = { s.msu with slots := upd s.msu.slots k fun _ => .cleared } := by
  have hmsu : (messageCompleted s.msu.slots[k] s).msu = s.msu := messageCompleted_then s.msu.slots[k] s .msu rfl
  rw [completeMessage_eq, onMessage, State.onMsu_msu, hmsu]

theorem completeMessage_raisesWork (k : Fin 8) (s : State) : RaisesWork s (completeMessage k s) :=
  (messageCompleted_raisesWork s.msu.slots[k] s).trans (.of_same rfl)

/-- A message that has released its claims and waits in ENDING. -/
def messageEnding (status : Status) (frame : Frame) (k : Fin 8) (s : State) : State :=
  onMessage k (MessageSlot.endedAt frame status) (releaseClaims (.message k) s)

theorem endMessageAt_of_idle (h : s.msu.slots[k].working = false) : endMessageAt status frame k s = s := by
  rw [endMessageAt, h]
  rfl

theorem endMessageAt_of_outstanding {f : Frame} (h : s.msu.slots[k].working = true)
    (hout : s.msu.slots[k].outstanding = some f) : endMessageAt status frame k s = messageEnding status frame k s := by
  unfold endMessageAt
  rw [if_pos h]
  refine if_neg ?_
  rw [onMessage_get, if_pos rfl]
  exact fun h => by cases hout.symm.trans h

theorem endMessageAt_of_shown (h : s.msu.slots[k].working = true) (hout : s.msu.slots[k].outstanding = none) :
    endMessageAt status frame k s = completeMessage k (messageEnding status frame k s) := by
  unfold endMessageAt
  rw [if_pos h]
  refine if_pos ?_
  rw [onMessage_get, if_pos rfl]
  exact hout

theorem endMessageAt_cases (status : Status) (frame : Frame) (k : Fin 8) (s : State) :
    (s.msu.slots[k].working = false ∧ endMessageAt status frame k s = s) ∨
    (s.msu.slots[k].working = true ∧ ∃ f, s.msu.slots[k].outstanding = some f ∧
      endMessageAt status frame k s = messageEnding status frame k s) ∨
    (s.msu.slots[k].working = true ∧ s.msu.slots[k].outstanding = none ∧
      endMessageAt status frame k s = completeMessage k (messageEnding status frame k s)) := by
  cases hw : s.msu.slots[k].working with
  | false => exact .inl ⟨rfl, endMessageAt_of_idle hw⟩
  | true =>
    cases hout : s.msu.slots[k].outstanding with
    | none => exact .inr (.inr ⟨rfl, rfl, endMessageAt_of_shown hw hout⟩)
    | some f => exact .inr (.inl ⟨rfl, f, rfl, endMessageAt_of_outstanding hw hout⟩)

theorem endMessageAt_msu (status : Status) (frame : Frame) (k : Fin 8) (s : State) : (endMessageAt status frame k s).msu =
    { s.msu with slots := upd s.msu.slots k (MessageSlot.ended frame status) } := by
  obtain ⟨hw, h⟩ | ⟨hw, f, hout, h⟩ | ⟨hw, hout, h⟩ := endMessageAt_cases status frame k s <;> rw [h]
  · rw [upd_congr (g := fun c => c) (by rw [MessageSlot.ended, if_neg (by rw [hw]; decide)])]
    simp [upd]
  · rw [upd_congr (g := MessageSlot.endedAt frame status)
      (by rw [MessageSlot.ended, if_pos hw, if_neg (by rw [hout]; exact fun h => by cases h)])]
    rfl
  · have hended : s.msu.slots[k].ended frame status = .cleared := by rw [MessageSlot.ended, if_pos hw, if_pos hout]
    rw [completeMessage_msu, upd_congr (g := fun _ => .cleared) (v := s.msu.slots) hended]
    exact congrArg (fun v => ({ s.msu with slots := v } : Msu)) (upd_upd _ _ _ _)

theorem endMessageAt_slot (status : Status) (frame : Frame) (k j : Fin 8) (s : State) :
    (endMessageAt status frame k s).msu.slots[j] =
      if j = k then s.msu.slots[k].ended frame status else s.msu.slots[j] := by
  rw [endMessageAt_msu]
  exact upd_get _ _ _ _

theorem endMessageAt_heldZones (status : Status) (frame : Frame) (k : Fin 8) (s : State) (who : Claimant) :
    heldZones (endMessageAt status frame k s).zar who =
      if who = .message k ∧ s.msu.slots[k].working then fun _ => false else heldZones s.zar who := by
  rw [endMessageAt_zar]
  cases s.msu.slots[k].working
  · simp
  · have h : heldZones (s.zar.onAllClaims (removeClaim (.message k))) who = _ :=
      heldZones_releaseClaims who (.message k) s
    simp [h]

theorem endMessageAt_raisesWork (status : Status) (frame : Frame) (k : Fin 8) (s : State) :
    RaisesWork s (endMessageAt status frame k s) := by
  obtain ⟨hw, h⟩ | ⟨hw, f, hout, h⟩ | ⟨hw, hout, h⟩ := endMessageAt_cases status frame k s <;> rw [h]
  · exact .of_same rfl
  · exact .of_same rfl
  · exact RaisesWork.trans (t := messageEnding status frame k s) (.of_same rfl) (completeMessage_raisesWork k _)

end

theorem messageEnded_not_working (frame : Frame) (status : Status) (m : MessageSlot) :
    (m.ended frame status).working = false := by
  unfold MessageSlot.ended
  split
  · split <;> rfl
  · next h => simpa using h

/-! ## The passes that end every message -/

/-- A slot with the frame number and the zones of its message's claims. -/
def messageView (k : Fin 8) (s : State) : MessageSlot × Frame × (Fin 16 → Bool) :=
  (s.msu.slots[k], s.ftu.frame, heldZones s.zar (.message k))

/-- What an end makes of it. -/
def endedMessageView (status : Status) (v : MessageSlot × Frame × (Fin 16 → Bool)) :
    MessageSlot × Frame × (Fin 16 → Bool) :=
  (v.1.ended v.2.1 status, v.2.1, if v.1.working then fun _ => false else v.2.2)

theorem endedMessageView_of_idle {status : Status} {v : MessageSlot × Frame × (Fin 16 → Bool)}
    (h : v.1.working = false) : endedMessageView status v = v := by
  rw [endedMessageView, MessageSlot.ended, h]
  rfl

theorem endMessage_messageView (status : Status) (k j : Fin 8) (s : State) : messageView j (endMessage status k s) =
    if j = k then endedMessageView status (messageView k s) else messageView j s := by
  have hftu : (endMessageAt status s.ftu.frame k s).ftu = s.ftu :=
    endMessageAt_then status s.ftu.frame k (ChangesOnly.refl [.msu, .mem, .events, .etu, .zar] s) rfl .ftu rfl
  unfold messageView endedMessageView endMessage
  rw [endMessageAt_slot, endMessageAt_heldZones, hftu]
  by_cases h : j = k
  · subst h
    simp only [if_true, true_and]
  · have hne : ¬(Claimant.message j = Claimant.message k) := fun hc => h (by cases hc; rfl)
    simp only [if_neg h, hne, false_and, if_false]

theorem mem_workingMessages {m : Msu} {k : Fin 8} : k ∈ workingMessages m ↔ m.slots[k].working = true := by
  simp [workingMessages, List.mem_finRange]

/-- After a pass over the working messages each slot has ended. -/
theorem endWorkingMessages_messageView (status : Status) (s : State) (k : Fin 8) :
    messageView k (inFreeOrder (workingMessages s.msu) (endMessage status) s) =
      endedMessageView status (messageView k s) := by
  rw [inFreeOrder_keyed (proj := messageView) (h := fun _ => endedMessageView status)
    (fun i j t => endMessage_messageView status i j t) (fun j t => rfl) _ (workingMessages_nodup _)]
  split
  · rfl
  · next h =>
    have hw : (messageView k s).1.working = false := by simpa [mem_workingMessages, messageView] using h
    exact (endedMessageView_of_idle hw).symm

end Sys2Proof.Machine
end

section
/-! SUPPORT. The heartbeat watch, and what entering FALLBACK makes of the device (section 1.7). -/

namespace Sys2Proof.Machine

/-! ## The miss count and the resumption -/

section
variable {s : State} {n : Nat}

theorem setMissCount_in (n : Nat) (s : State) : WritesIn 0x104 0x108 s (setMissCount n s) := by
  unfold setMissCount
  split
  · exact .refl _ _ s
  · have hin : WritesIn 0x104 0x108 (s.onSmp fun m => { m with missCount := n }) _ :=
      anchorWrite_in (ws := [BitVec.ofNat 32 n]) (Nat.le_refl 0x104) (by rw [List.length_singleton]) _
    exact ⟨hin.anchor, hin.inForce, hin.unanchored, hin.outside⟩

theorem setMissCount_word (haligned : s.smp.anchor.toNat % 4096 = 0) (hforce : s.smp.inForce = true)
    (h : n ≠ s.smp.missCount) :
    (setMissCount n s).mem.word (s.smp.anchor.toNat + 0x104) = BitVec.ofNat 32 n := by
  unfold setMissCount
  rw [if_neg h.symm]
  exact anchorWrite_word_at (s := s.onSmp fun m => { m with missCount := n }) haligned hforce
    (by rw [List.length_singleton]; omega) _ 0 rfl rfl

theorem setDev_in (d : DevState) (s : State) : WritesIn 0x100 0x104 s (setDev d s) := by
  have hin : WritesIn 0x100 0x104 (s.onSmp fun m => { m with dev := d }) (setDev d s) :=
    anchorWrite_in (Nat.le_refl 0x100) (by rw [List.length_singleton]) _
  exact ⟨hin.anchor, hin.inForce, hin.unanchored, hin.outside⟩

theorem resume_in (s : State) : WritesIn 0x100 0x104 s (resume s) :=
  (setDev_in .running s).trans (u := resume s) (.of_same rfl rfl rfl)

theorem resume_smp (s : State) :
    (resume s).smp = { s.smp with dev := .running, events := s.smp.events ||| 0x010#10 } := by
  rw [resume, raise_smp, State.onCle_smp, setDev_smp]
  rfl

theorem resume_cle (s : State) : (resume s).cle = { s.cle with gate := .open_ } := by
  rw [resume, raise_cle, State.onCle_cle, setDev_cle]

theorem setMissCount_cle (n : Nat) (s : State) : (setMissCount n s).cle = s.cle :=
  setMissCount_then n (ChangesOnly.refl [.smp, .mem] s) rfl .cle rfl

/-! ## The four readings of the counter that do not enter FALLBACK -/

theorem heartbeatWatch_of_changed (h : anchorWord s 0x28 ≠ s.smp.lastSeen) : heartbeatWatch s =
    if s.smp.dev = .fallback then resume (setMissCount 0 (s.onSmp fun m => { m with lastSeen := anchorWord s 0x28 }))
    else setMissCount 0 (s.onSmp fun m => { m with lastSeen := anchorWord s 0x28 }) :=
  if_pos (bne_iff_ne.mpr h)

theorem heartbeatChanged_of_same (h : anchorWord s 0x28 = s.smp.lastSeen) : ¬heartbeatChanged s = true := by
  rw [heartbeatChanged, h, bne_self_eq_false]
  decide

theorem heartbeatWatch_of_no_window (h : anchorWord s 0x28 = s.smp.lastSeen) (hwindow : heartbeatWindow s = 0) :
    heartbeatWatch s = setMissCount 0 s :=
  (if_neg (heartbeatChanged_of_same h)).trans (if_pos hwindow)

theorem heartbeatWatch_in_fallback (h : anchorWord s 0x28 = s.smp.lastSeen) (hwindow : heartbeatWindow s ≠ 0)
    (hdev : s.smp.dev = .fallback) : heartbeatWatch s = s :=
  (if_neg (heartbeatChanged_of_same h)).trans ((if_neg hwindow).trans (if_neg (by rw [hdev]; decide)))

theorem heartbeatWatch_of_miss (h : anchorWord s 0x28 = s.smp.lastSeen) (hwindow : heartbeatWindow s ≠ 0)
    (hdev : s.smp.dev = .running) : heartbeatWatch s =
      if heartbeatWindow s ≤ nextMiss s.smp.missCount (heartbeatWindow s) then
        enterFallback (setMissCount (nextMiss s.smp.missCount (heartbeatWindow s)) s)
      else setMissCount (nextMiss s.smp.missCount (heartbeatWindow s)) s := by
  have hcount : ∀ n, (setMissCount n s).smp.missCount = n := fun n => by rw [setMissCount_smp]
  unfold heartbeatWatch
  rw [if_neg (heartbeatChanged_of_same h), if_neg hwindow, if_pos hdev]
  dsimp only
  rw [hcount]

end

theorem exec_heartbeatWatch_live {s : State} (hdue : s.smp.frameDue = true)
    (hdev : s.smp.dev = .running ∨ s.smp.dev = .fallback) :
    exec .heartbeatWatch s = .next (heartbeatWatch (smpHandled s)) := by
  change Host.Outcome.next (if s.smp.frameDue && s.smp.dev != .starting then
    (if s.smp.dev.live then heartbeatWatch (smpHandled s) else smpHandled s) else s) = _
  obtain h | h := hdev <;> rw [hdue, h] <;> rfl

/-- The parts that the watch reaches without entering FALLBACK. -/
def watchParts : List Part := [.mem, .smp, .events, .due, .cle]

theorem smpHandled_in (lo hi : Nat) (s : State) : WritesIn lo hi s (smpHandled s) := .of_same rfl rfl rfl

theorem smpHandled_frame {ps : List Part} (h : sub [.due] ps = true) (s : State) : ChangesOnly ps s (smpHandled s) :=
  smpHandled_then (.refl _ _) h

/-- Settles O16. -/
theorem heartbeatWatchCounts : Obligations.HeartbeatWatchCounts := by
  refine ⟨fun s h => ?_, fun s hdue hdev => ?_, fun s hdue hforce haligned hdev hcase => ?_⟩
  · refine congrArg Host.Outcome.next (if_neg fun hc => ?_)
    obtain ⟨hdue, hdev⟩ := (Bool.and_eq_true _ _).mp hc
    obtain h | h := h
    · rw [h] at hdue
      cases hdue
    · rw [h] at hdev
      cases hdev
  · change Host.Outcome.next (if s.smp.frameDue && s.smp.dev != .starting then
      (if s.smp.dev.live then heartbeatWatch (smpHandled s) else smpHandled s) else s) = _
    obtain h | h := hdev <;> rw [hdue, h] <;> rfl
  refine ⟨_, exec_heartbeatWatch_live hdue hdev, ?_⟩
  have hfour : ∀ x : Word, x = 0 → x.toNat = 0 := fun x h => by rw [h]; rfl
  by_cases hchanged : anchorWord s 0x28 = s.smp.lastSeen
  · have hsame : anchorWord (smpHandled s) 0x28 = (smpHandled s).smp.lastSeen := hchanged
    by_cases hwindow : heartbeatWindow s = 0
    · have hwindow' : min 600 (anchorWord s 0x2C).toNat = 0 := hwindow
      rw [heartbeatWatch_of_no_window hsame hwindow]
      have hin := ((smpHandled_in 0x100 0x108 s).trans
        ((setMissCount_in 0 (smpHandled s)).mono (by omega) (Nat.le_refl _)))
      have hframe : ChangesOnly watchParts s (setMissCount 0 (smpHandled s)) :=
        setMissCount_then 0 (smpHandled_frame rfl s) rfl
      rw [setMissCount_cle]
      simp only [setMissCount_smp, hwindow', hchanged, ne_eq, not_true, or_true, and_false, if_true, if_false,
        BitVec.or_zero]
      exact ⟨rfl, trivial, rfl, rfl, rfl, hforce, rfl, rfl, hframe, hin.outside,
        fun h => setMissCount_word (s := smpHandled s) haligned hforce h⟩
    · have hwindow' : ¬min 600 (anchorWord s 0x2C).toNat = 0 := hwindow
      have hcase' : s.smp.dev = .fallback ∨ (s.smp.dev = .running ∧ s.smp.missCount + 1 < heartbeatWindow s) := by
        obtain hrun | hfall := hdev
        · obtain h | h | hfall | hmiss := hcase
          · exact absurd hchanged h
          · exact absurd h hwindow
          · exact .inl hfall
          · exact .inr ⟨hrun, hmiss⟩
        · exact .inl hfall
      obtain hfall | ⟨hrun, hmiss⟩ := hcase'
      · rw [heartbeatWatch_in_fallback hsame hwindow hfall]
        simp only [hwindow', hchanged, hfall, ne_eq, not_true, or_self, and_false, if_false, BitVec.or_zero, reduceCtorEq]
        exact ⟨rfl, rfl, hfall, rfl, rfl, hforce, rfl, rfl, smpHandled_frame rfl s, fun a _ => rfl,
          fun h => absurd rfl h⟩
      · have hnext : nextMiss s.smp.missCount (heartbeatWindow s) = s.smp.missCount + 1 :=
          if_pos (by omega)
        have hwatch : heartbeatWatch (smpHandled s) = setMissCount (s.smp.missCount + 1) (smpHandled s) := by
          have hbelow : ¬heartbeatWindow s ≤ s.smp.missCount + 1 := by omega
          have hmissed := heartbeatWatch_of_miss (s := smpHandled s) hsame hwindow hrun
          rw [show nextMiss (smpHandled s).smp.missCount (heartbeatWindow (smpHandled s)) = _ from hnext] at hmissed
          exact hmissed.trans (if_neg hbelow)
        rw [hwatch]
        have hin := ((smpHandled_in 0x100 0x108 s).trans
          ((setMissCount_in (s.smp.missCount + 1) (smpHandled s)).mono (by omega) (Nat.le_refl _)))
        have hframe : ChangesOnly watchParts s (setMissCount (s.smp.missCount + 1) (smpHandled s)) :=
          setMissCount_then _ (smpHandled_frame rfl s) rfl
        rw [setMissCount_cle]
        simp only [setMissCount_smp, hwindow', hchanged, hrun, ne_eq, not_true, or_self, and_false, if_false, if_true,
          BitVec.or_zero]
        exact ⟨rfl, trivial, hrun, rfl, rfl, hforce, rfl, rfl, hframe, hin.outside,
          fun h => setMissCount_word (s := smpHandled s) haligned hforce h⟩
  · rw [heartbeatWatch_of_changed (s := smpHandled s) hchanged]
    generalize hu : (smpHandled s).onSmp (fun m => { m with lastSeen := anchorWord (smpHandled s) 0x28 }) = u
    have husmp : u.smp = { s.smp with frameDue := false, lastSeen := anchorWord s 0x28 } := by rw [← hu]; rfl
    have hucle : u.cle = s.cle := by rw [← hu]; rfl
    have huframe : ChangesOnly watchParts s u := by
      rw [← hu]
      exact onSmp_then _ (smpHandled_frame rfl s) rfl
    have hin : WritesIn 0x104 0x108 s (setMissCount 0 u) := by
      refine WritesIn.trans (t := u) ?_ (setMissCount_in 0 u)
      rw [← hu]
      exact .of_same rfl rfl rfl
    have hword : ¬(0 : Nat) = s.smp.missCount →
        (setMissCount 0 u).mem.word (s.smp.anchor.toNat + 0x104) = BitVec.ofNat 32 0 := by
      intro h
      have hset := setMissCount_word (s := u) (n := 0) (by rw [husmp]; exact haligned) (by rw [husmp]; exact hforce)
        (by rw [husmp]; exact h)
      rwa [husmp] at hset
    have hsmp : (setMissCount 0 u).smp = { s.smp with frameDue := false, lastSeen := anchorWord s 0x28, missCount := 0 } := by
      rw [setMissCount_smp, husmp]
    by_cases hfall : s.smp.dev = .fallback
    · have hresume := resume_in (setMissCount 0 u)
      have hall : WritesIn 0x100 0x108 s (resume (setMissCount 0 u)) :=
        (hin.mono (by omega) (Nat.le_refl _)).trans (hresume.mono (Nat.le_refl _) (by omega))
      rw [if_pos (show (smpHandled s).smp.dev = .fallback from hfall), resume_smp, resume_cle, hsmp, setMissCount_cle, hucle]
      simp only [hchanged, hfall, ne_eq, not_false_eq_true, true_or, and_self, if_true]
      refine ⟨trivial, trivial, trivial, trivial, trivial, hforce, trivial, trivial,
        resume_then (setMissCount_then 0 huframe rfl) rfl, hall.outside, fun h => ?_⟩
      have hkept := hresume.anchorWord (o := 0x104) (.inr (by omega))
      unfold anchorWord at hkept
      rw [hresume.anchor, hin.anchor] at hkept
      exact hkept.trans (hword h)
    · rw [if_neg (show ¬(smpHandled s).smp.dev = .fallback from hfall), hsmp, setMissCount_cle, hucle]
      have hrun := hdev.resolve_right hfall
      simp only [hchanged, hfall, ne_eq, not_false_eq_true, true_or, false_and, if_true, if_false, BitVec.or_zero]
      exact ⟨trivial, trivial, hrun, trivial, trivial, hforce, trivial, trivial, setMissCount_then 0 huframe rfl,
        (hin.mono (by omega) (Nat.le_refl _)).outside, hword⟩

/-! ## Entering FALLBACK -/

theorem wouldFallBack_of_not {s : State} (h : s.smp.dev ≠ .running ∨ anchorWord s 0x28 ≠ s.smp.lastSeen ∨
    anchorWord s 0x2C = 0 ∨ s.smp.missCount + 1 < min 600 (anchorWord s 0x2C).toNat) : wouldFallBack s = false := by
  rw [← Bool.not_eq_true]
  intro hc
  unfold wouldFallBack at hc
  simp only [Bool.and_eq_true, beq_iff_eq, Bool.not_eq_true', bne_iff_ne, decide_eq_true_iff] at hc
  obtain ⟨⟨⟨hdev, hsame⟩, hwindow⟩, hle⟩ := hc
  obtain h | h | h | h := h
  · exact h hdev
  · rw [heartbeatChanged, bne_eq_false_iff_eq] at hsame
    exact h hsame
  · refine hwindow ?_
    rw [heartbeatWindow, h]
    rfl
  · have hnext : nextMiss s.smp.missCount (heartbeatWindow s) ≤ s.smp.missCount + 1 := by
      unfold nextMiss
      split <;> omega
    unfold heartbeatWindow at hle hnext
    omega

/-- The device as it enters FALLBACK, before the owners of clips and slots are told. -/
def fallingBack (s : State) : State :=
  (raise .fallback (setDev .fallback s)).onCle fun c => { c with gate := .fallback }

theorem enterFallback_eq (s : State) : enterFallback s =
    sruFallback (inFreeOrder (workingClips s.cle) (endClip .abandoned) (fallingBack s)) := by
  have hcle : ((raise .fallback (setDev .fallback s)).onCle fun c => { c with gate := .fallback }).cle =
      { s.cle with gate := .fallback } := by
    rw [State.onCle_cle, raise_cle, setDev_cle]
  unfold enterFallback cleFallback
  dsimp only
  rw [hcle]
  rfl

theorem fallingBack_clipView (k : Fin 8) (s : State) : clipView k (fallingBack s) = clipView k s := by
  unfold clipView fallingBack
  rw [State.onCle_cle, State.onCle_ftu, State.onCle_zar, raise_cle, raise_ftu, raise_zar, setDev_cle, setDev_ftu,
    setDev_zar]

theorem fallingBack_workingClips (s : State) : workingClips (fallingBack s).cle = workingClips s.cle := by
  unfold fallingBack
  rw [State.onCle_cle, raise_cle, setDev_cle]
  rfl

theorem enterFallback_clipView (k : Fin 8) (s : State) :
    clipView k (enterFallback s) = endedView .abandoned (clipView k s) := by
  rw [enterFallback_eq, ← fallingBack_workingClips]
  exact (endWorkingClips_clipView .abandoned (fallingBack s) k).trans
    (congrArg (endedView .abandoned) (fallingBack_clipView k s))

theorem enterFallback_raises (s : State) : pendingFlag (enterFallback s) .fallback = true := by
  have hraised : pendingFlag (fallingBack s) .fallback = true := by
    have h : pendingFlag (raise .fallback (setDev .fallback s)) .fallback = true := by
      rw [raise_isPending, beq_self_eq_true, Bool.or_true]
    exact h
  rw [enterFallback_eq]
  exact (inFreeOrder_raisesWork (fun k t => endClip_raisesWork .abandoned k t) (workingClips s.cle)
    (fallingBack s)).keeps .fallback hraised

theorem enterFallback_sru (s : State) : (enterFallback s).sru = { s.sru with
    groups := s.sru.groups.map fun g => { g with openSlot := g.openSlot.map fun x => { x with fallback := true } } } := by
  have hframe : ChangesOnly [.cle, .mem, .smp, .events, .etu, .zar, .free] s
      (inFreeOrder (workingClips s.cle) (endClip .abandoned) (fallingBack s)) :=
    inFreeOrder_then (onCle_then _ (raise_then _ (setDev_then _ (.refl _ _) rfl) rfl) rfl) rfl
      fun k u hu => endClip_then _ k hu rfl
  rw [enterFallback_eq, sruFallback, State.onSru_sru, show _ = s.sru from hframe .sru rfl]

/-- Settles O17. -/
theorem lostHeartbeatFallsBack : Obligations.LostHeartbeatFallsBack := by
  refine ⟨fun s h => congrArg Host.Outcome.next (if_neg fun hc => ?_), fun s hdue hdev hsame hwindow hle => ?_⟩
  · obtain ⟨hdue, hwould⟩ := (Bool.and_eq_true _ _).mp hc
    obtain h | h := h
    · rw [h] at hdue
      cases hdue
    · rw [wouldFallBack_of_not h] at hwould
      cases hwould
  have hnext : heartbeatWindow s ≤ nextMiss s.smp.missCount (heartbeatWindow s) := by
    unfold nextMiss heartbeatWindow
    split <;> omega
  have hwatch : heartbeatWatch (smpHandled s) =
      enterFallback (setMissCount (nextMiss s.smp.missCount (heartbeatWindow s)) (smpHandled s)) :=
    (heartbeatWatch_of_miss (s := smpHandled s) hsame hwindow hdev).trans (if_pos hnext)
  have hwould : wouldFallBack s = true := by
    unfold wouldFallBack
    simp only [Bool.and_eq_true, beq_iff_eq, Bool.not_eq_true', bne_iff_ne, decide_eq_true_iff]
    exact ⟨⟨⟨hdev, by rw [heartbeatChanged, hsame, bne_self_eq_false]⟩, hwindow⟩, hnext⟩
  have hexec : exec .enterFallback s = .next (heartbeatWatch (smpHandled s)) :=
    congrArg Host.Outcome.next (if_pos (by rw [hdue, hwould]; rfl))
  refine ⟨_, hexec, exec_heartbeatWatch_live hdue (.inl hdev), ?_⟩
  rw [hwatch]
  generalize hn : nextMiss s.smp.missCount (heartbeatWindow s) = n
  have hframe : ChangesOnly [.smp, .mem, .due] s (setMissCount n (smpHandled s)) :=
    setMissCount_then n (smpHandled_frame rfl s) rfl
  have hsmp : (setMissCount n (smpHandled s)).smp = { s.smp with frameDue := false, missCount := n } := by
    rw [setMissCount_smp]
    rfl
  generalize setMissCount n (smpHandled s) = u at hframe hsmp
  have hcore := enterFallback_core u
  rw [hsmp] at hcore
  have hview : ∀ k, clipView k (enterFallback u) = endedView .abandoned (clipView k s) := by
    intro k
    rw [enterFallback_clipView, clipView, show u.cle = s.cle from hframe .cle rfl,
      show u.ftu = s.ftu from hframe .ftu rfl, show u.zar = s.zar from hframe .zar rfl]
    rfl
  have hslot : ∀ k : Fin 8, (enterFallback u).cle.slots[k] = s.cle.slots[k].ended s.ftu.frame .abandoned :=
    fun k => congrArg Prod.fst (hview k)
  have hsru : (enterFallback u).sru = _ := enterFallback_sru u
  rw [show u.sru = s.sru from hframe .sru rfl] at hsru
  have hrun : (enterFallback u).smp.core.run = s.smp.run := by rw [hcore]; rfl
  have hforce : (enterFallback u).smp.core.inForce = s.smp.inForce := by rw [hcore]; rfl
  refine ⟨congrArg Smp.dev hcore, hrun, hforce, ?_, enterFallback_raises u, ?_,
    fun k => ⟨?_, fun hw f hout => ?_, fun hw z => ?_⟩, fun g => ?_, by rw [hsru], by rw [hsru],
    enterFallback_then (hframe.mono (by decide)) rfl⟩
  · exact (congrArg Smp.missCount hcore).trans hn.symm
  · rw [enterFallback_eq]
    exact endWorkingClips_gate .abandoned (fallingBack u) _
  · rw [hslot]
    exact ended_not_working _ _ _
  · rw [hslot, ClipSlot.ended, if_pos hw, if_neg (by rw [hout]; exact fun h => by cases h)]
    rfl
  · have hzones : heldZones (enterFallback u).zar (.clip k) =
        if s.cle.slots[k].working then fun _ => false else heldZones s.zar (.clip k) :=
      congrArg (fun v => v.2.2) (hview k)
    rw [if_pos hw] at hzones
    exact congrFun hzones z
  · rw [hsru]
    exact Vector.getElem_map _ _

end Sys2Proof.Machine
end

section
/-! SUPPORT. How a clip advances and a message counts (sections 6.3, 7.3): the slot after one answer or one frame, and what an
end at that count releases. -/

namespace Sys2Proof.Machine

/-! ## A clip -/

theorem onClip_onClip (k : Fin 8) (f h : ClipSlot → ClipSlot) (s : State) :
    onClip k h (onClip k f s) = onClip k (fun c => h (f c)) s := by
  simp [onClip, State.onCle, upd]

theorem advance_eq (c : ClipSlot) : c.advance = { c with
    repPhase := c.advance.repPhase, source := c.advance.source, passes := c.advance.passes } := by
  unfold ClipSlot.advance
  split
  · split <;> rfl
  · rfl

/-- One answer moves the place in the clip on by one. -/
theorem advance_place {c : ClipSlot} (hrep : c.repPhase < c.rep) (hsource : c.source < c.count) (hpasses : c.passes < 255) :
    c.advance.repPhase < c.rep ∧ c.advance.source < c.count ∧
    (c.advance.passes * c.count + c.advance.source) * c.rep + c.advance.repPhase =
      (c.passes * c.count + c.source) * c.rep + c.repPhase + 1 := by
  unfold ClipSlot.advance
  split
  · next hlast =>
    split
    · next hend =>
      have hnext : (c.passes + 1) % 256 = c.passes + 1 := Nat.mod_eq_of_lt (by omega)
      refine ⟨by show 0 < c.rep; omega, by show 0 < c.count; omega, ?_⟩
      show ((c.passes + 1) % 256 * c.count + 0) * c.rep + 0 = _
      rw [hnext, ← hend, ← hlast]
      ring
    · refine ⟨by show 0 < c.rep; omega, by show c.source + 1 < c.count; omega, ?_⟩
      show (c.passes * c.count + (c.source + 1)) * c.rep + 0 = _
      rw [← hlast]
      ring
  · exact ⟨by show c.repPhase + 1 < c.rep; omega, hsource, rfl⟩

theorem exhausted_iff (c : ClipSlot) :
    c.exhausted = true ↔ c.state = .playing ∧ c.loops ≠ 0 ∧ c.passes = c.loops := by
  simp [ClipSlot.exhausted, and_assoc]

section
variable {k : Fin 8} {s : State}

theorem exhaustClip_of_not (h : ¬s.cle.slots[k].exhausted = true) : exhaustClip k s = s := if_neg h

theorem exhaustClip_of_held (h : s.cle.slots[k].exhausted = true) (hhold : s.cle.slots[k].holdLast = true) :
    exhaustClip k s = onClip k (fun c => { c with state := .held }) s := (if_pos h).trans (if_pos hhold)

theorem exhaustClip_of_ended {f : Frame} (h : s.cle.slots[k].exhausted = true) (hhold : s.cle.slots[k].holdLast = false)
    (hout : s.cle.slots[k].outstanding = some f) : exhaustClip k s = clipEnding .completed k s := by
  have hw : s.cle.slots[k].working = true := by
    unfold ClipSlot.working
    rw [((exhausted_iff _).mp h).1]
    rfl
  exact (if_pos h).trans ((if_neg (by rw [hhold]; decide)).trans (endClip_of_outstanding hw hout))

theorem clipRequest_of_asked {f : Frame} {zones : ZoneMask} (hw : s.cle.slots[k].working = true)
    (hzones : s.cle.slots[k].holdings &&& zones ≠ 0) : clipRequest k f zones s =
      (.clip (s.cle.slots[k].base + s.cle.slots[k].frameIndex * s.cle.slots[k].pitch) s.cle.slots[k].width
        s.cle.slots[k].height s.cle.slots[k].frameIndex,
       if s.cle.slots[k].state = .playing then
         exhaustClip k (onClip k (fun c => { c with outstanding := some f }.advance) s)
       else onClip k (fun c => { c with outstanding := some f }) s) := by
  unfold clipRequest
  dsimp only
  rw [if_pos (by rw [hw, Bool.true_and]; exact bne_iff_ne.mpr hzones), onClip_onClip]

theorem clipRequest_of_not {f : Frame} {zones : ZoneMask}
    (h : s.cle.slots[k].working = false ∨ s.cle.slots[k].holdings &&& zones = 0) :
    clipRequest k f zones s = (.nothing, s) := by
  refine if_neg fun hc => ?_
  obtain ⟨hw, hzones⟩ := (Bool.and_eq_true _ _).mp hc
  obtain h | h := h
  · rw [h] at hw
    cases hw
  · exact bne_iff_ne.mp hzones h

end

theorem clipEnding_cle (status : Status) (k : Fin 8) (s : State) : (clipEnding status k s).cle =
    { s.cle with slots := upd s.cle.slots k (ClipSlot.endedAt s.ftu.frame status) } := rfl

theorem clipEnding_frame {ps : List Part} {s t : State} (status : Status) (k : Fin 8) (H : ChangesOnly ps s t)
    (h : sub [.cle, .zar] ps = true) : ChangesOnly ps s (clipEnding status k t) := by
  have hframe : ChangesOnly [.cle, .zar] t (clipEnding status k t) :=
    onClip_then _ _ (releaseClaims_then _ (.refl _ _) rfl) rfl
  exact H.trans (hframe.mono h)

/-- What an answered clip that is not exhausted, is held, or has ended becomes. -/
theorem clipRequest_of_playing {k : Fin 8} {f : Frame} {zones : ZoneMask} {s : State}
    (hplaying : s.cle.slots[k].state = .playing) (hzones : s.cle.slots[k].holdings &&& zones ≠ 0) :
    ∃ t, clipRequest k f zones s = (.clip (s.cle.slots[k].base + s.cle.slots[k].source * s.cle.slots[k].pitch)
        s.cle.slots[k].width s.cle.slots[k].height s.cle.slots[k].source, t) ∧
      (let c := { s.cle.slots[k] with outstanding := some f }.advance
       (¬(c.loops ≠ 0 ∧ c.passes = c.loops) → t = onClip k (fun _ => c) s) ∧
       (c.loops ≠ 0 ∧ c.passes = c.loops → c.holdLast = true → t = onClip k (fun _ => { c with state := .held }) s) ∧
       (c.loops ≠ 0 ∧ c.passes = c.loops → c.holdLast = false →
         t = clipEnding .completed k (onClip k (fun _ => c) s))) := by
  have hw : s.cle.slots[k].working = true := by rw [ClipSlot.working, hplaying]; rfl
  have hindex : s.cle.slots[k].frameIndex = s.cle.slots[k].source := if_neg (by rw [hplaying]; decide)
  rw [clipRequest_of_asked hw hzones, hindex, if_pos hplaying]
  refine ⟨_, rfl, ?_⟩
  generalize hc : { s.cle.slots[k] with outstanding := some f }.advance = c
  have hadvanced : onClip k (fun c => { c with outstanding := some f }.advance) s = onClip k (fun _ => c) s := by
    exact congrArg (fun v => ({ s with cle := { s.cle with slots := v } } : State)) (upd_congr hc)
  have hstate : c.state = .playing := by rw [← hc, advance_eq]; exact hplaying
  have hout : c.outstanding = some f := by rw [← hc, advance_eq]
  have hslot : (onClip k (fun _ => c) s).cle.slots[k] = c := by rw [onClip_get, if_pos rfl]
  rw [hadvanced]
  refine ⟨fun h => ?_, fun h hhold => ?_, fun h hhold => ?_⟩
  · exact exhaustClip_of_not (by rw [hslot, exhausted_iff]; exact fun hx => h hx.2)
  · rw [exhaustClip_of_held (by rw [hslot, exhausted_iff]; exact ⟨hstate, h⟩) (by rw [hslot]; exact hhold), onClip_onClip]
  · exact exhaustClip_of_ended (by rw [hslot, exhausted_iff]; exact ⟨hstate, h⟩) (by rw [hslot]; exact hhold)
      (by rw [hslot]; exact hout)

/-- Settles O43. -/
theorem clipAdvancesUntilExhausted : Obligations.ClipAdvancesUntilExhausted := by
  refine ⟨fun k f zones s hplaying hzones hrep hsource hpasses => ?_, fun k f zones s => ⟨fun hheld hzones => ?_,
    clipRequest_of_not⟩, fun k s => ⟨_, rfl, fun h => ?_, fun hplaying hloops hpasses hhold => ?_,
      fun f hplaying hloops hpasses hhold hout => ?_⟩⟩
  · obtain ⟨t, hrequest, hgoes, hheld, hends⟩ := clipRequest_of_playing (f := f) hplaying hzones
    have hplace := advance_place (c := { s.cle.slots[k] with outstanding := some f }) hrep hsource hpasses
    have hkept := advance_eq { s.cle.slots[k] with outstanding := some f }
    dsimp only
    rw [hrequest]
    generalize ({ s.cle.slots[k] with outstanding := some f } : ClipSlot).advance = c at hgoes hheld hends hplace hkept
    have hloops : c.loops = s.cle.slots[k].loops := by rw [hkept]
    have hholdLast : c.holdLast = s.cle.slots[k].holdLast := by rw [hkept]
    have hstatus : c.status = s.cle.slots[k].status := by rw [hkept]
    have hholdings : c.holdings = s.cle.slots[k].holdings := by rw [hkept]
    have hout : c.outstanding = some f := by rw [hkept]
    have hstate : c.state = .playing := by rw [hkept]; exact hplaying
    by_cases hex : c.loops ≠ 0 ∧ c.passes = c.loops
    · cases hhold : c.holdLast with
      | true =>
        rw [hheld hex hhold]
        have hslot : (onClip k (fun _ => { c with state := .held }) s).cle.slots[k] = { c with state := .held } := by
          rw [onClip_get, if_pos rfl]
        rw [hslot]
        refine ⟨rfl, hout, hplace.1, hplace.2.1, hplace.2.2, ?_, fun h => ?_, fun _ => ⟨hstatus, hholdings, rfl⟩,
          fun j hj => ?_, onClip_then _ _ (.refl _ _) rfl⟩
        · rw [← hloops, ← hholdLast, if_pos hex, if_pos hhold]
        · cases h
        · rw [onClip_get, if_neg hj]
      | false =>
        rw [hends hex hhold]
        have hslot : (clipEnding .completed k (onClip k (fun _ => c) s)).cle.slots[k] =
            c.endedAt s.ftu.frame .completed := by
          unfold clipEnding
          rw [onClip_get, if_pos rfl]
          exact congrArg (ClipSlot.endedAt s.ftu.frame .completed)
            ((onClip_get k k (fun _ => c) s).trans (if_pos rfl))
        rw [hslot]
        refine ⟨rfl, hout, hplace.1, hplace.2.1, hplace.2.2, ?_, fun _ => ⟨rfl, rfl, rfl, ?_⟩, fun h => absurd rfl h,
          fun j hj => ?_, clipEnding_frame _ _ (onClip_then _ _ (.refl _ _) rfl) rfl⟩
        · rw [← hloops, ← hholdLast]
          exact ((if_pos hex).trans (if_neg (by rw [hhold]; decide))).symm
        · exact holdsAny_eq_false_of_heldZones ((heldZones_releaseClaims (.clip k) (.clip k) _).trans (if_pos rfl))
        · unfold clipEnding
          rw [onClip_get, if_neg hj]
          exact (onClip_get k j (fun _ => c) s).trans (if_neg hj)
    · rw [hgoes hex]
      have hslot : (onClip k (fun _ => c) s).cle.slots[k] = c := by rw [onClip_get, if_pos rfl]
      rw [hslot]
      refine ⟨rfl, hout, hplace.1, hplace.2.1, hplace.2.2, ?_, fun h => ?_, fun _ => ⟨hstatus, hholdings, rfl⟩,
        fun j hj => ?_, onClip_then _ _ (.refl _ _) rfl⟩
      · rw [← hloops, if_neg hex]
        exact hstate
      · rw [hstate] at h
        cases h
      · rw [onClip_get, if_neg hj]
  · have hw : s.cle.slots[k].working = true := by rw [ClipSlot.working, hheld]; rfl
    have hindex : s.cle.slots[k].frameIndex = s.cle.slots[k].count - 1 := if_pos hheld
    rw [clipRequest_of_asked hw hzones, hindex, if_neg (by rw [hheld]; decide)]
    rfl
  · refine exhaustClip_of_not fun hex => ?_
    obtain ⟨hstate, hloops, hpasses⟩ := (exhausted_iff _).mp hex
    obtain h | h | h := h
    · exact h hstate
    · exact hloops h
    · exact h hpasses
  · rw [exhaustClip_of_held ((exhausted_iff _).mpr ⟨hplaying, hloops, hpasses⟩) hhold]
    exact ⟨rfl, onClip_then _ _ (.refl _ _) rfl⟩
  · rw [exhaustClip_of_ended ((exhausted_iff _).mpr ⟨hplaying, hloops, hpasses⟩) hhold hout]
    exact ⟨rfl, releaseClaims_claimsAt (.clip k) s, clipEnding_frame _ _ (.refl _ _) rfl⟩

/-! ## A message -/

/-- A slot after a count that does not run out (R113). -/
def MessageSlot.next (f : Frame) (m : MessageSlot) : MessageSlot :=
  { m with counted := f, duration := m.duration.map (· - 1) }.blink.crawlOn

/-- What one frame makes of a slot. -/
def MessageSlot.afterCount (f : Frame) (m : MessageSlot) : MessageSlot :=
  if m.working && m.counted != f then
    if m.runsOut then { m with counted := f, duration := some 0 }.ended (f - 1) .completed else m.next f
  else m

theorem runsOut_eq_false {m : MessageSlot} (h : ∀ d, m.duration = some d → 2 ≤ d) : m.runsOut = false := by
  unfold MessageSlot.runsOut
  split
  · rfl
  · next d hd => exact decide_eq_false (by have := h d hd; omega)

theorem runsOut_of_some {m : MessageSlot} {d : Nat} (h : m.duration = some d) : m.runsOut = decide (d ≤ 1) := by
  rw [MessageSlot.runsOut, h]

theorem blink_cases (m : MessageSlot) : ∃ p l, m.blink = { m with phase := p, phaseLeft := l } ∧
    (m.blinkOn = 0 ∨ m.blinkOff = 0 → p = m.phase ∧ l = m.phaseLeft) ∧
    (m.blinkOn ≠ 0 → m.blinkOff ≠ 0 → 2 ≤ m.phaseLeft → p = m.phase ∧ l = m.phaseLeft - 1) ∧
    (m.blinkOn ≠ 0 → m.blinkOff ≠ 0 → m.phaseLeft = 1 →
      (m.phase = .on → p = .off ∧ l = m.blinkOff) ∧ (m.phase = .off → p = .on ∧ l = m.blinkOn)) := by
  unfold MessageSlot.blink
  split
  · next hnone =>
    have hblinks : m.blinkOn ≠ 0 → m.blinkOff ≠ 0 → False := fun hon hoff => hnone.elim hon hoff
    exact ⟨m.phase, m.phaseLeft, rfl, fun _ => ⟨rfl, rfl⟩, fun hon hoff => (hblinks hon hoff).elim,
      fun hon hoff => (hblinks hon hoff).elim⟩
  · next hblinks =>
    split
    · split
      · next hphase =>
        exact ⟨.off, m.blinkOff, rfl, fun h => absurd h hblinks, fun _ _ h => by omega, fun _ _ _ =>
          ⟨fun _ => ⟨rfl, rfl⟩, fun h => nomatch hphase.symm.trans h⟩⟩
      · next hphase =>
        exact ⟨.on, m.blinkOn, rfl, fun h => absurd h hblinks, fun _ _ h => by omega, fun _ _ _ =>
          ⟨fun h => (nomatch (hphase.symm.trans h)), fun _ => ⟨rfl, rfl⟩⟩⟩
    · exact ⟨m.phase, m.phaseLeft - 1, rfl, fun h => absurd h hblinks, fun _ _ _ => ⟨rfl, rfl⟩,
        fun _ _ h => by omega⟩

theorem crawlOn_eq (m : MessageSlot) : m.crawlOn = { m with crawlPos := if m.crawl then
    (if m.crawlSpan ≤ (m.crawlPos + m.crawlSpeed) / 16 then 0 else m.crawlPos + m.crawlSpeed) else m.crawlPos } := by
  unfold MessageSlot.crawlOn
  split
  · split <;> rfl
  · rfl

theorem next_countedAs (f : Frame) (m : MessageSlot) : m.CountedAs (m.next f) f := by
  obtain ⟨p, l, hblink, hsteady, hstays, hflips⟩ := blink_cases { m with counted := f, duration := m.duration.map (· - 1) }
  have hnext : m.next f = { m with counted := f, duration := m.duration.map (· - 1), phase := p, phaseLeft := l, crawlPos :=
      if m.crawl then (if m.crawlSpan ≤ (m.crawlPos + m.crawlSpeed) / 16 then 0 else m.crawlPos + m.crawlSpeed)
      else m.crawlPos } := by
    rw [MessageSlot.next, hblink, crawlOn_eq]
  rw [hnext]
  exact ⟨rfl, hsteady, hstays, hflips, rfl⟩

section
variable {k : Fin 8} {f : Frame} {s : State}

theorem countMessage_of_not (h : s.msu.slots[k].state ≠ .showing ∨ s.msu.slots[k].counted = f) :
    countMessage f k s = s := by
  refine if_neg fun hc => ?_
  obtain ⟨hw, hcounted⟩ := (Bool.and_eq_true _ _).mp hc
  obtain h | h := h
  · exact h (beq_iff_eq.mp hw)
  · exact bne_iff_ne.mp hcounted h

theorem onMessage_onMessage (k : Fin 8) (f h : MessageSlot → MessageSlot) (s : State) :
    onMessage k h (onMessage k f s) = onMessage k (fun m => h (f m)) s := by
  simp [onMessage, State.onMsu, upd]

theorem countMessage_of_counts (hstate : s.msu.slots[k].state = .showing) (hcounted : s.msu.slots[k].counted ≠ f)
    (hruns : s.msu.slots[k].runsOut = false) : countMessage f k s = onMessage k (MessageSlot.next f) s := by
  have hcond : (s.msu.slots[k].working && s.msu.slots[k].counted != f) = true := by
    rw [MessageSlot.working, hstate, bne_iff_ne.mpr hcounted]
    rfl
  have hstays : ¬(onMessage k (fun m => { m with counted := f }) s).msu.slots[k].runsOut = true := by
    rw [onMessage_get, if_pos rfl, show MessageSlot.runsOut { s.msu.slots[k] with counted := f } = _ from hruns]
    decide
  refine (if_pos hcond).trans ((if_neg hstays).trans ?_)
  rw [onMessage_onMessage]
  rfl

theorem countMessage_of_runsOut (hstate : s.msu.slots[k].state = .showing) (hcounted : s.msu.slots[k].counted ≠ f)
    (hruns : s.msu.slots[k].runsOut = true) : countMessage f k s =
      endMessageAt .completed (f - 1) k (onMessage k (fun m => { m with counted := f, duration := some 0 }) s) := by
  have hcond : (s.msu.slots[k].working && s.msu.slots[k].counted != f) = true := by
    rw [MessageSlot.working, hstate, bne_iff_ne.mpr hcounted]
    rfl
  have hout : (onMessage k (fun m => { m with counted := f }) s).msu.slots[k].runsOut = true := by
    rw [onMessage_get, if_pos rfl]
    exact hruns
  refine (if_pos hcond).trans ((if_pos hout).trans ?_)
  rw [runOut, onMessage_onMessage]

end

/-- A slot with the zones of its message's claims. -/
def messageStanding (k : Fin 8) (s : State) : MessageSlot × (Fin 16 → Bool) :=
  (s.msu.slots[k], heldZones s.zar (.message k))

/-- What one frame makes of it. -/
def countedStanding (f : Frame) (v : MessageSlot × (Fin 16 → Bool)) : MessageSlot × (Fin 16 → Bool) :=
  (v.1.afterCount f, if v.1.working && v.1.counted != f && v.1.runsOut then fun _ => false else v.2)

theorem countMessage_slot (f : Frame) (k j : Fin 8) (s : State) : (countMessage f k s).msu.slots[j] =
    if j = k then s.msu.slots[k].afterCount f else s.msu.slots[j] := by
  by_cases hcond : s.msu.slots[k].state = .showing ∧ s.msu.slots[k].counted ≠ f
  · obtain ⟨hstate, hcounted⟩ := hcond
    have hcounts : (s.msu.slots[k].working && s.msu.slots[k].counted != f) = true := by
      rw [MessageSlot.working, hstate, bne_iff_ne.mpr hcounted]
      rfl
    unfold MessageSlot.afterCount
    rw [if_pos hcounts]
    cases hruns : s.msu.slots[k].runsOut with
    | true =>
      rw [countMessage_of_runsOut hstate hcounted hruns, endMessageAt_slot, onMessage_get, onMessage_get, if_pos rfl]
      split
      · rfl
      · rfl
    | false =>
      rw [countMessage_of_counts hstate hcounted hruns, onMessage_get]
      rfl
  · have hnot : s.msu.slots[k].state ≠ .showing ∨ s.msu.slots[k].counted = f := by
      by_cases hstate : s.msu.slots[k].state = .showing
      · exact .inr (not_not.mp fun h => hcond ⟨hstate, h⟩)
      · exact .inl hstate
    have hidle : s.msu.slots[k].afterCount f = s.msu.slots[k] := by
      refine if_neg fun hc => ?_
      obtain ⟨hw, hcounted⟩ := (Bool.and_eq_true _ _).mp hc
      exact hcond ⟨beq_iff_eq.mp hw, bne_iff_ne.mp hcounted⟩
    rw [countMessage_of_not hnot, hidle]
    split
    · next h => rw [h]
    · rfl

theorem countMessage_heldZones (f : Frame) (k : Fin 8) (s : State) (who : Claimant) :
    heldZones (countMessage f k s).zar who =
      if who = .message k ∧ (s.msu.slots[k].working && s.msu.slots[k].counted != f && s.msu.slots[k].runsOut) = true then
        fun _ => false
      else heldZones s.zar who := by
  by_cases hcond : s.msu.slots[k].state = .showing ∧ s.msu.slots[k].counted ≠ f
  · obtain ⟨hstate, hcounted⟩ := hcond
    have hcounts : (s.msu.slots[k].working && s.msu.slots[k].counted != f) = true := by
      rw [MessageSlot.working, hstate, bne_iff_ne.mpr hcounted]
      rfl
    rw [hcounts, Bool.true_and]
    cases hruns : s.msu.slots[k].runsOut with
    | true =>
      have hw : (onMessage k (fun m => { m with counted := f, duration := some 0 }) s).msu.slots[k].working = true := by
        rw [onMessage_get, if_pos rfl]
        exact beq_iff_eq.mpr hstate
      rw [countMessage_of_runsOut hstate hcounted hruns, endMessageAt_heldZones, hw]
      rfl
    | false =>
      rw [countMessage_of_counts hstate hcounted hruns]
      simp only [Bool.false_eq_true, and_false, if_false]
      rfl
  · have hnot : s.msu.slots[k].state ≠ .showing ∨ s.msu.slots[k].counted = f := by
      by_cases hstate : s.msu.slots[k].state = .showing
      · exact .inr (not_not.mp fun h => hcond ⟨hstate, h⟩)
      · exact .inl hstate
    rw [countMessage_of_not hnot, if_neg]
    rintro ⟨-, hc⟩
    obtain ⟨hc, -⟩ := (Bool.and_eq_true _ _).mp hc
    obtain ⟨hw, hcounted⟩ := (Bool.and_eq_true _ _).mp hc
    exact hcond ⟨beq_iff_eq.mp hw, bne_iff_ne.mp hcounted⟩

theorem countMessage_standing (f : Frame) (k j : Fin 8) (s : State) : messageStanding j (countMessage f k s) =
    if j = k then countedStanding f (messageStanding k s) else messageStanding j s := by
  unfold messageStanding countedStanding
  rw [countMessage_slot, countMessage_heldZones]
  by_cases h : j = k
  · subst h
    simp only [if_true, true_and]
  · have hne : ¬(Claimant.message j = Claimant.message k) := fun hc => h (by cases hc; rfl)
    simp only [if_neg h, hne, false_and, if_false]

theorem countedStanding_of_not {f : Frame} {v : MessageSlot × (Fin 16 → Bool)}
    (h : (v.1.working && v.1.counted != f) = false) : countedStanding f v = v := by
  rw [countedStanding, MessageSlot.afterCount, h]
  rfl

theorem dueMessages_nodup (m : Msu) (f : Frame) : (dueMessages m f).Nodup := (List.nodup_finRange 8).filter _

/-- After the pass of a frame start each message has made its count. -/
theorem msuFrameStart_standing (f : Frame) (s : State) (k : Fin 8) :
    messageStanding k (msuFrameStart f s) = countedStanding f (messageStanding k s) := by
  rw [msuFrameStart, inFreeOrder_keyed (proj := messageStanding) (h := fun _ => countedStanding f)
    (fun i j t => countMessage_standing f i j t) (fun j t => rfl) _ (dueMessages_nodup _ _)]
  split
  · rfl
  · next h =>
    refine (countedStanding_of_not ?_).symm
    rw [dueMessages, List.mem_filter, not_and] at h
    exact Bool.eq_false_iff.mpr (h (List.mem_finRange k))

section
variable {k : Fin 8} {f : Frame} {zones : ZoneMask} {s : State}

theorem onMessage_self (k : Fin 8) (s : State) : onMessage k (fun _ => s.msu.slots[k]) s = s := by
  have hslots : upd s.msu.slots k (fun _ => s.msu.slots[k]) = s.msu.slots := by simp [upd]
  exact congrArg (fun v => ({ s with msu := { s.msu with slots := v } } : State)) hslots

/-- The answer of a slot that goes on after its count (R114, R117). -/
theorem messageAnswers_of_count {n : MessageSlot} (h : countMessage f k s = onMessage k (fun _ => n) s)
    (hw : n.working = true) : MessageAnswers k f zones n s (messageRequest k f zones s) := by
  have hslot : (onMessage k (fun _ => n) s).msu.slots[k] = n := by rw [onMessage_get, if_pos rfl]
  unfold messageRequest
  dsimp only
  rw [h, hslot, hw, Bool.true_and]
  refine ⟨fun hzones => ?_, fun hzones => ?_⟩
  · rw [if_pos (bne_iff_ne.mpr hzones), onMessage_onMessage]
    rfl
  · rw [if_neg (by rw [hzones]; decide)]
    rfl

theorem messageRequest_of_ended (h : (countMessage f k s).msu.slots[k].working = false) :
    messageRequest k f zones s = (.nothing, countMessage f k s) := by
  unfold messageRequest
  dsimp only
  rw [h]
  rfl

theorem working_of_showing {m : MessageSlot} (h : m.state = .showing) : m.working = true := beq_iff_eq.mpr h

theorem not_working_of_not_showing {m : MessageSlot} (h : m.state ≠ .showing) : m.working = false :=
  beq_eq_false_iff_ne.mpr h

theorem next_working {m : MessageSlot} (h : m.state = .showing) : (m.next f).working = true :=
  working_of_showing ((congrArg MessageSlot.state (next_countedAs f m).1).trans h)

theorem afterCount_of_counts {m : MessageSlot} (hstate : m.state = .showing) (hcounted : m.counted ≠ f)
    (hruns : m.runsOut = false) : m.afterCount f = m.next f := by
  rw [MessageSlot.afterCount, working_of_showing hstate, bne_iff_ne.mpr hcounted, hruns]
  rfl

theorem afterCount_of_runsOut {m : MessageSlot} {g : Frame} (hstate : m.state = .showing) (hcounted : m.counted ≠ f)
    (hruns : m.runsOut = true) (hout : m.outstanding = some g) :
    m.afterCount f = { m with counted := f, duration := some 0 }.endedAt (f - 1) .completed := by
  rw [MessageSlot.afterCount, working_of_showing hstate, bne_iff_ne.mpr hcounted, hruns]
  refine (if_pos (working_of_showing hstate)).trans (if_neg ?_)
  rw [hout]
  exact fun h => nomatch h

end

theorem exec_durationRunOut (k : Fin 8) (s : State) : exec (.durationRunOut k) s =
    .next (if s.msu.slots[k].runsOut then countMessage s.ftu.frame k s else s) := rfl

theorem exec_blinkPhaseChange (k : Fin 8) (s : State) : exec (.blinkPhaseChange k) s =
    .next (if !s.msu.slots[k].runsOut && s.msu.slots[k].blink.phase != s.msu.slots[k].phase then
      countMessage s.ftu.frame k s else s) := rfl

theorem countMessage_waits_eq {k : Fin 8} {f g : Frame} {s : State} (hstate : s.msu.slots[k].state = .showing)
    (hcounted : s.msu.slots[k].counted ≠ f) (hruns : s.msu.slots[k].runsOut = true)
    (hout : s.msu.slots[k].outstanding = some g) : countMessage f k s =
      messageEnding .completed (f - 1) k (onMessage k (fun m => { m with counted := f, duration := some 0 }) s) := by
  have hslot : (onMessage k (fun m => { m with counted := f, duration := some 0 }) s).msu.slots[k] =
      { s.msu.slots[k] with counted := f, duration := some 0 } := (onMessage_get _ _ _ _).trans (if_pos rfl)
  rw [countMessage_of_runsOut hstate hcounted hruns]
  exact endMessageAt_of_outstanding (by rw [hslot]; exact working_of_showing hstate) (by rw [hslot]; exact hout)

theorem blink_phase_of_steady {m : MessageSlot} (h : m.blinkOn = 0 ∨ m.blinkOff = 0 ∨ 2 ≤ m.phaseLeft) :
    m.blink.phase = m.phase := by
  obtain ⟨p, l, hblink, hsteady, hstays, -⟩ := blink_cases m
  rw [hblink]
  by_cases hnone : m.blinkOn = 0 ∨ m.blinkOff = 0
  · exact (hsteady hnone).1
  · obtain ⟨hon, hoff⟩ := not_or.mp hnone
    exact (hstays hon hoff ((h.resolve_left hon).resolve_left hoff)).1

theorem blink_phase_of_flip {m : MessageSlot} (hon : m.blinkOn ≠ 0) (hoff : m.blinkOff ≠ 0) (h : m.phaseLeft = 1) :
    m.blink.phase ≠ m.phase := by
  obtain ⟨p, l, hblink, -, -, hflips⟩ := blink_cases m
  obtain ⟨hofOn, hofOff⟩ := hflips hon hoff h
  rw [hblink]
  cases hphase : m.phase with
  | on => exact fun hp => nomatch (hofOn hphase).1.symm.trans hp
  | off => exact fun hp => nomatch (hofOff hphase).1.symm.trans hp

/-- Settles O44. -/
theorem messageCountsEachFrameOnce : Obligations.MessageCountsEachFrameOnce := by
  refine ⟨fun s h => congrArg Host.Outcome.next (if_neg (by rw [h]; decide)), fun s hdue =>
    ⟨_, congrArg Host.Outcome.next (if_pos hdue), ?_, fun k => ?_, ?_⟩, fun k f zones s => ⟨fun hstate => ?_,
      fun hstate hcounted => ?_, fun hstate hcounted hlasts => ?_, fun hframe hstate hcounted hlast => ?_⟩,
    fun k s => ⟨_, exec_durationRunOut k s, fun h => ?_, fun g hstate hcounted hlast hout => ?_⟩,
    fun k s => ⟨_, exec_blinkPhaseChange k s, fun h => ?_, fun hstate hcounted hon hoff hleft hlasts => ?_⟩⟩
  · exact inFreeOrder_induct (P := fun t => t.msu.frameDue = false) rfl fun k _ t h => by
      unfold countMessage runOut
      dsimp only
      split
      · split
        · rw [endMessageAt_msu]
          exact h
        · exact h
      · exact h
  · have hstanding := msuFrameStart_standing s.ftu.frame (s.onMsu fun m => { m with frameDue := false }) k
    have hslot : (msuFrameStart s.ftu.frame (s.onMsu fun m => { m with frameDue := false })).msu.slots[k] =
        s.msu.slots[k].afterCount s.ftu.frame := congrArg Prod.fst hstanding
    rw [hslot]
    refine ⟨fun h => ?_, fun hstate hcounted hlasts => ?_, fun g hstate hcounted hlast hout => ?_⟩
    · refine if_neg fun hc => ?_
      obtain ⟨hw, hcounted⟩ := (Bool.and_eq_true _ _).mp hc
      exact h.elim (fun h => h (beq_iff_eq.mp hw)) (fun h => bne_iff_ne.mp hcounted h)
    · rw [afterCount_of_counts hstate hcounted (runsOut_eq_false hlasts)]
      exact next_countedAs _ _
    · have hruns : s.msu.slots[k].runsOut = true := by rw [runsOut_of_some hlast]; rfl
      rw [afterCount_of_runsOut hstate hcounted hruns hout]
      refine ⟨rfl, holdsAny_eq_false_of_heldZones ((congrArg Prod.snd hstanding).trans (if_pos ?_))⟩
      change (s.msu.slots[k].working && s.msu.slots[k].counted != s.ftu.frame && s.msu.slots[k].runsOut) = true
      rw [working_of_showing hstate, bne_iff_ne.mpr hcounted, hruns]
      rfl
  · exact msuFrameStart_then _ (onMsu_then _ (.refl _ _) rfl) rfl
  · have hnot := countMessage_of_not (f := f) (.inl hstate)
    rw [messageRequest_of_ended (by rw [hnot]; exact not_working_of_not_showing hstate), hnot]
  · refine messageAnswers_of_count ?_ (working_of_showing hstate)
    rw [countMessage_of_not (.inr hcounted), onMessage_self]
  · refine ⟨s.msu.slots[k].next f, next_countedAs f _, messageAnswers_of_count ?_ (next_working hstate)⟩
    rw [countMessage_of_counts hstate hcounted (runsOut_eq_false hlasts)]
    exact congrArg (fun v => ({ s with msu := { s.msu with slots := v } } : State)) (upd_congr rfl)
  · have hruns : s.msu.slots[k].runsOut = true := by rw [runsOut_of_some hlast]; rfl
    have hended : (countMessage f k s).msu.slots[k].working = false := by
      rw [countMessage_of_runsOut hstate hcounted hruns, endMessageAt_slot, if_pos rfl]
      exact messageEnded_not_working _ _ _
    rw [messageRequest_of_ended hended, exec_durationRunOut, if_pos hruns, hframe]
    exact ⟨rfl, rfl⟩
  · obtain h | ⟨d, hd, hle⟩ | h := h
    · exact if_neg (by rw [MessageSlot.runsOut, h]; decide)
    · exact if_neg (by rw [runsOut_of_some hd, decide_eq_true_iff]; omega)
    · rw [countMessage_of_not h, ite_self]
  · have hruns : s.msu.slots[k].runsOut = true := by rw [runsOut_of_some hlast]; rfl
    rw [if_pos hruns, countMessage_waits_eq hstate hcounted hruns hout]
    refine ⟨?_, fun z => releaseClaims_claimsAt (.message k) _ z,
      onMessage_then _ _ (releaseClaims_then _ (onMessage_then _ _ (.refl _ _) rfl) rfl) rfl⟩
    exact congrArg (fun v => ({ s.msu with slots := v } : Msu)) (upd_upd _ _ _ _)
  · have hsame : s.msu.slots[k].state ≠ .showing ∨ s.msu.slots[k].counted = s.ftu.frame ∨
        s.msu.slots[k].blink.phase = s.msu.slots[k].phase ∨ s.msu.slots[k].runsOut = true := by
      obtain h | h | h | h | h | ⟨d, hd, hle⟩ := h
      · exact .inr (.inr (.inl (blink_phase_of_steady (.inl h))))
      · exact .inr (.inr (.inl (blink_phase_of_steady (.inr (.inl h)))))
      · exact .inr (.inr (.inl (blink_phase_of_steady (.inr (.inr h)))))
      · exact .inl h
      · exact .inr (.inl h)
      · exact .inr (.inr (.inr (by rw [runsOut_of_some hd]; exact decide_eq_true hle)))
    obtain h | h | h | h := hsame
    · rw [countMessage_of_not (.inl h), ite_self]
    · rw [countMessage_of_not (.inr h), ite_self]
    · exact if_neg (by rw [h, bne_self_eq_false, Bool.and_false]; decide)
    · exact if_neg (by rw [h, Bool.not_true, Bool.false_and]; decide)
  · have hruns := runsOut_eq_false hlasts
    have hcond : (!s.msu.slots[k].runsOut && s.msu.slots[k].blink.phase != s.msu.slots[k].phase) = true := by
      rw [hruns, bne_iff_ne.mpr (blink_phase_of_flip hon hoff hleft)]
      rfl
    rw [if_pos hcond, countMessage_of_counts hstate hcounted hruns]
    have hslot : (onMessage k (MessageSlot.next s.ftu.frame) s).msu.slots[k] = s.msu.slots[k].next s.ftu.frame :=
      (onMessage_get _ _ _ _).trans (if_pos rfl)
    obtain ⟨hshape, -, -, hflips, -⟩ := next_countedAs s.ftu.frame s.msu.slots[k]
    obtain ⟨hofOn, hofOff⟩ := hflips hon hoff hleft
    dsimp only
    rw [hslot]
    refine ⟨⟨?_, ?_, hshape⟩, fun j hj => (onMessage_get _ _ _ _).trans (if_neg hj), onMessage_then _ _ (.refl _ _) rfl⟩
    · cases hphase : s.msu.slots[k].phase with
      | on => exact (hofOn hphase).1
      | off => exact (hofOff hphase).1
    · cases hphase : s.msu.slots[k].phase with
      | on => exact (hofOn hphase).2
      | off => exact (hofOff hphase).2

end Sys2Proof.Machine
end

section
/-! SUPPORT. The events that reports and content requests raise, and the close of the ended frame on each link (section 5.1). -/

namespace Sys2Proof.Machine

/-! ## The events of play records, accounts, reports and requests -/

section
variable {s : State}

theorem testReadIndex_raisesWork (s : State) : RaisesWork s (testReadIndex s) := by
  unfold testReadIndex
  dsimp only
  split
  · split
    · exact .of_same rfl
    · exact RaisesWork.trans (t := s.onPlw _) (.of_same rfl) (raise_raisesWork rfl _)
  · exact .of_same rfl

theorem writeRecord_raisesWork (r : PlayRecord) (s : State) : RaisesWork s (writeRecord r s) :=
  .of_same (writeRecord_then r (ChangesOnly.refl [.mem, .plw, .sru] s) rfl .events rfl)

/-- The books of a record that is dropped. -/
def dropped (r : PlayRecord) (s : State) : State :=
  (if r.preClear then s else addUnlogged r.group r.entry r.zoneFrames s).onPlw fun p =>
    { p with overflow := saturate (p.overflow + 1) }

theorem dropRecord_eq (r : PlayRecord) (s : State) : dropRecord r s =
    raise .logOverflow (anchorWrite 0x110 [BitVec.ofNat 32 (dropped r s).plw.overflow] (dropped r s)) := rfl

theorem dropped_smp (r : PlayRecord) (s : State) : (dropped r s).smp = s.smp := by
  unfold dropped
  rw [State.onPlw_smp]
  split <;> rfl

theorem dropRecord_raisesWork (r : PlayRecord) (s : State) : RaisesWork s (dropRecord r s) := by
  rw [dropRecord_eq]
  refine RaisesWork.trans (.of_same ?_) (raise_raisesWork rfl _)
  rw [anchorWrite_smp, dropped_smp]

theorem handRecord_raisesWork (r : PlayRecord) (s : State) : RaisesWork s (handRecord r s) := by
  unfold handRecord
  split
  · exact dropRecord_raisesWork r s
  · split
    · split
      · exact (testReadIndex_raisesWork s).trans (writeRecord_raisesWork r _)
      · exact (testReadIndex_raisesWork s).trans (.of_same rfl)
    · exact .of_same rfl

theorem closeSlot_raisesWork (g : Fin 8) (s : State) : RaisesWork s (closeSlot g s) := by
  unfold closeSlot
  split
  · exact .of_same rfl
  · next x hx =>
    have hhand : RaisesWork s (handRecord (x.record g) (onGroup g (fun r => { r with openSlot := none }) s)) :=
      RaisesWork.trans (t := onGroup g (fun r => { r with openSlot := none }) s) (.of_same rfl) (handRecord_raisesWork _ _)
    dsimp only
    split
    · exact hhand.trans (.of_same (writeSnapshot_then g _ (nextFree_then (ChangesOnly.refl [.sru, .mem, .free] _) rfl) rfl
        .events rfl))
    · exact hhand.trans (.of_same rfl)

theorem dwellEnd_raisesWork (g : Fin 8) (s : State) : RaisesWork s (dwellEnd g s) := by
  unfold dwellEnd
  split
  · exact .of_same rfl
  · next x hx =>
    split
    · dsimp only
      split
      · exact RaisesWork.trans (t := onGroup g _ s) (.of_same rfl) (closeSlot_raisesWork g _)
      · exact .of_same rfl
    · exact .of_same rfl

theorem answerSlot_raisesWork (g : Fin 8) (f : Frame) (s : State) : RaisesWork s (answerSlot g f s).2 := by
  unfold answerSlot
  split
  · exact .of_same rfl
  · next x hx =>
    split
    · exact .of_same rfl
    · exact RaisesWork.trans (t := onGroup g _ s) (.of_same rfl) (dwellEnd_raisesWork g _)

theorem groupRequest_raisesWork (g : Fin 8) (f : Frame) (s : State) : RaisesWork s (groupRequest g f s).2 := by
  unfold groupRequest
  split
  · exact .of_same rfl
  · split
    · exact RaisesWork.trans (t := selectSlot g f s)
        (.of_same (selectSlot_then g f (ChangesOnly.refl [.sru] s) rfl .events rfl)) (answerSlot_raisesWork g f _)
    · exact answerSlot_raisesWork g f s

theorem creditGroup_raisesWork (g : Fin 8) (k : Nat) (shown : Fin 64) (s : State) :
    RaisesWork s (creditGroup g k shown s) := by
  unfold creditGroup
  dsimp only
  split
  · refine RaisesWork.trans (.of_same ?_) (raise_raisesWork rfl _)
    split
    · rfl
    · exact writeGroupStatus_then (onGroup_then g _ (onSru_then _ (ChangesOnly.refl [.sru, .mem] s) rfl) rfl) rfl .events rfl
  · exact .of_same rfl

theorem groupReport_raisesWork (g : Fin 8) (f : Frame) (r : List ReportEntry) (s : State) :
    RaisesWork s (groupReport g f r s) := by
  unfold groupReport
  split
  · exact .of_same rfl
  · next x hx =>
    split
    · dsimp only
      generalize hu : onGroup g _ s = u
      have hsame : RaisesWork s u := by
        rw [← hu]
        exact .of_same rfl
      have hcredit : ∀ k, RaisesWork s (if x.preClear then u else creditGroup g k x.entry u) := by
        intro k
        split
        · exact hsame
        · exact hsame.trans (creditGroup_raisesWork g k x.entry u)
      split
      · exact (hcredit _).trans (closeSlot_raisesWork g _)
      · exact hcredit _
    · exact .of_same rfl

theorem clipReport_raisesWork (k : Fin 8) (f : Frame) (r : List ReportEntry) (s : State) :
    RaisesWork s (clipReport k f r s) := by
  unfold clipReport
  dsimp only
  split
  · split
    · exact RaisesWork.trans (t := onClip k _ s) (.of_same rfl) (completeClip_raisesWork k _)
    · exact .of_same rfl
  · exact .of_same rfl

theorem messageReport_raisesWork (k : Fin 8) (f : Frame) (r : List ReportEntry) (s : State) :
    RaisesWork s (messageReport k f r s) := by
  unfold messageReport
  dsimp only
  split
  · split
    · exact RaisesWork.trans (t := onMessage k _ s) (.of_same rfl) (completeMessage_raisesWork k _)
    · exact .of_same rfl
  · exact .of_same rfl

theorem exhaustClip_raisesWork (k : Fin 8) (s : State) : RaisesWork s (exhaustClip k s) := by
  unfold exhaustClip
  split
  · split
    · exact .of_same rfl
    · exact endClip_raisesWork .completed k s
  · exact .of_same rfl

theorem clipRequest_raisesWork (k : Fin 8) (f : Frame) (zones : ZoneMask) (s : State) :
    RaisesWork s (clipRequest k f zones s).2 := by
  unfold clipRequest
  dsimp only
  split
  · dsimp only
    split
    · rw [onClip_onClip]
      exact RaisesWork.trans (t := onClip k _ s) (.of_same rfl) (exhaustClip_raisesWork k _)
    · exact .of_same rfl
  · exact .of_same rfl

theorem countMessage_raisesWork (f : Frame) (k : Fin 8) (s : State) : RaisesWork s (countMessage f k s) := by
  unfold countMessage runOut
  dsimp only
  split
  · split
    · rw [onMessage_onMessage]
      exact RaisesWork.trans (t := onMessage k _ s) (.of_same rfl) (endMessageAt_raisesWork _ _ k _)
    · exact .of_same rfl
  · exact .of_same rfl

theorem messageRequest_raisesWork (k : Fin 8) (f : Frame) (zones : ZoneMask) (s : State) :
    RaisesWork s (messageRequest k f zones s).2 := by
  unfold messageRequest
  dsimp only
  split
  · exact (countMessage_raisesWork f k s).trans (.of_same rfl)
  · exact countMessage_raisesWork f k s

theorem issueReport_raisesWork (f : Frame) (r : List ReportEntry) (who : Claimant) (s : State) :
    RaisesWork s (issueReport f r who s) := by
  cases who with
  | clip k => exact clipReport_raisesWork k f r s
  | message k => exact messageReport_raisesWork k f r s
  | group g => exact groupReport_raisesWork g f r s

theorem contentRequest_raisesWork (f : Frame) (zones : ZoneMask) (who : Claimant) (s : State) :
    RaisesWork s (contentRequest f zones who s).2 := by
  cases who with
  | clip k => exact clipRequest_raisesWork k f zones s
  | message k => exact messageRequest_raisesWork k f zones s
  | group g => exact groupRequest_raisesWork g f s

end

/-! ## What the requests of a frame leave of the CLO -/

theorem askAll_induct {P : State → Prop} {f : Frame} {view : List ViewEntry} {ws : List Claimant} {s : State} (h0 : P s)
    (hstep : ∀ w ∈ ws, ∀ t, P t → P (contentRequest f (headedZones view w) w t).2) : P (askAll f view ws s).2 := by
  have hfold : ∀ (ws : List Claimant) (acc : List (Claimant × Answer) × State), P acc.2 →
      (∀ w ∈ ws, ∀ t, P t → P (contentRequest f (headedZones view w) w t).2) →
      P (ws.foldl (fun acc w => (acc.1 ++ [(w, (contentRequest f (headedZones view w) w acc.2).1)],
        (contentRequest f (headedZones view w) w acc.2).2)) acc).2 := by
    intro ws
    induction ws with
    | nil => exact fun acc h _ => h
    | cons w ws ih =>
      exact fun acc h hstep => ih _ (hstep w (List.mem_cons_self ..) _ h) fun w' hw' =>
        hstep w' (List.mem_cons_of_mem _ hw')
  exact hfold ws ([], s) h0 hstep

theorem contentRequest_clo (f : Frame) (zones : ZoneMask) (who : Claimant) (s : State) :
    (contentRequest f zones who s).2.clo = s.clo :=
  contentRequest_then f zones who (ChangesOnly.refl [.cle, .msu, .zar, .mem, .events, .etu, .sru, .plw, .free] s) rfl
    .clo rfl

theorem viewAndCompose_links (f : Frame) (s : State) : (viewAndCompose f s).clo.links = s.clo.links := by
  unfold viewAndCompose
  dsimp only
  split
  · exact askAll_induct (P := fun t => t.clo.links = s.clo.links) rfl fun w _ t h => by rw [contentRequest_clo]; exact h
  · rfl

theorem viewAndCompose_raisesWork (f : Frame) (s : State) : RaisesWork s (viewAndCompose f s) := by
  unfold viewAndCompose
  dsimp only
  split
  · refine RaisesWork.trans (t := (askAll f (viewOf s.zar) (freeOrder s.free (askedSet (viewOf s.zar) s.zar)) s.nextFree).2)
      ?_ (.of_same rfl)
    exact askAll_induct (P := RaisesWork s) (.of_same rfl) fun w _ t h => h.trans (contentRequest_raisesWork _ _ _ _)
  · exact .of_same rfl

/-! ## The close of the ended frame -/

theorem closeLinks_links (s : State) : (closeLinks s).clo.links = s.clo.links.map PanelLink.close := by
  unfold closeLinks reportLinks
  dsimp only
  split
  · rw [raise_clo, anchorWrite_clo]
    rfl
  · rfl

theorem closeAndReport_links (s : State) : (closeAndReport s).clo.links = s.clo.links.map PanelLink.close := by
  rw [← closeLinks_links]
  unfold closeAndReport
  dsimp only
  split
  · rfl
  · exact inFreeOrder_induct (P := fun t => t.clo.links = (closeLinks s).clo.links) rfl fun who _ t h => by
      rw [show (issueReport _ _ who t).clo = t.clo from issueReport_then _ _ who
        (ChangesOnly.refl [.cle, .msu, .sru, .plw, .mem, .events, .etu, .free] t) rfl .clo rfl]
      exact h

theorem closeAndReport_raisesWork (s : State) : RaisesWork (closeLinks s) (closeAndReport s) := by
  unfold closeAndReport
  dsimp only
  split
  · exact .of_same rfl
  · exact RaisesWork.trans (inFreeOrder_raisesWork (fun who t => issueReport_raisesWork _ _ who t) _ _) (.of_same rfl)

theorem goesDown_iff (l : PanelLink) : l.goesDown = true ↔ l.up = true ∧ l.seen = false ∧ 2 ≤ l.miss := by
  simp [PanelLink.goesDown, and_assoc]

theorem anyGoesDown_iff (links : Vector PanelLink 4) : links.toList.any PanelLink.goesDown = true ↔
    ∃ n : Fin 4, links[n].up = true ∧ links[n].seen = false ∧ 2 ≤ links[n].miss := by
  simp only [List.any_eq_true, goesDown_iff, Vector.mem_toList_iff]
  constructor
  · rintro ⟨l, hl, h⟩
    obtain ⟨i, hi, rfl⟩ := Vector.getElem_of_mem hl
    exact ⟨⟨i, hi⟩, h⟩
  · rintro ⟨n, h⟩
    exact ⟨links[n], Vector.getElem_mem n.isLt, h⟩

theorem closeLinks_linkState (s : State) : pendingFlag (closeLinks s) .linkState =
    (pendingFlag s .linkState || s.clo.links.toList.any PanelLink.goesDown) := by
  unfold closeLinks reportLinks
  dsimp only
  split
  · next h =>
    rw [raise_isPending, h, beq_self_eq_true, Bool.or_true, Bool.or_true]
  · next h =>
    rw [Bool.not_eq_true] at h
    rw [h, Bool.or_false]
    rfl

theorem close_eq (l : PanelLink) : l.close =
    if l.seen then { up := l.up, miss := 0, seen := false }
    else if l.up = false then { up := false, miss := 3, seen := false }
    else if l.miss = 0 ∨ l.miss = 1 then { up := true, miss := l.miss + 1, seen := false }
    else { up := false, miss := 3, seen := false } := by
  obtain ⟨up, miss, seen⟩ := l
  unfold PanelLink.close
  dsimp only
  cases seen with
  | true => rfl
  | false =>
    cases up with
    | false => rfl
    | true =>
      by_cases h : 2 ≤ miss
      · have h' : ¬(miss = 0 ∨ miss = 1) := by omega
        simp [h, h']
      · have h' : miss = 0 ∨ miss = 1 := by omega
        simp [h, h']

theorem onLink_links (n : Fin 4) (f : PanelLink → PanelLink) (s : State) :
    (onLink n f s).clo = { s.clo with links := upd s.clo.links n f } := rfl

/-- Settles O40. -/
theorem endedFrameClosesLinks : Obligations.EndedFrameClosesLinks := by
  refine ⟨fun s hdue => ⟨_, congrArg Host.Outcome.next (if_pos hdue), fun n => ?_, ?_⟩, fun n s haligned =>
    ⟨_, rfl, fun hdue hup hseen hmiss => ?_, fun h => if_neg ?_⟩⟩
  · unfold cloFrameStart
    rw [viewAndCompose_links, closeAndReport_links]
    exact (Vector.getElem_map _ _).trans (close_eq _)
  · have hwork := (closeAndReport_raisesWork (s.onClo fun c => { c with frameDue := false })).trans
      (viewAndCompose_raisesWork s.ftu.frame _)
    unfold cloFrameStart
    rw [hwork.only .linkState rfl, closeLinks_linkState, Bool.or_eq_true]
    exact or_congr Iff.rfl (anyGoesDown_iff s.clo.links)
  · have hdown : (s.clo.frameDue && s.clo.links[n].goesDown) = true := by
      rw [hdue, Bool.true_and]
      exact (goesDown_iff _).mpr ⟨hup, hseen, by omega⟩
    rw [if_pos hdown]
    have hclose : s.clo.links[n].close = { up := false, miss := 3, seen := false } := by
      rw [close_eq, hseen, hup, hmiss]
      rfl
    have hlinks : (onLink n PanelLink.close s).clo =
        { s.clo with links := upd s.clo.links n fun _ => { up := false, miss := 3, seen := false } } := by
      rw [onLink_links, upd_congr (g := fun _ => { up := false, miss := 3, seen := false }) hclose]
    refine ⟨?_, ?_, reportLinks_then (onLink_then _ _ (.refl _ _) rfl) rfl, fun hforce => ?_, fun hforce m => ?_,
      fun a ha => ?_⟩
    · rw [reportLinks, raise_clo, anchorWrite_clo, hlinks]
    · rw [reportLinks, raise_smp, anchorWrite_smp]
      rfl
    · exact reportLinks_mem_of_not_inForce (s := onLink n PanelLink.close s) hforce
    · have hbit := reportLinks_linkBit (s := onLink n PanelLink.close s) haligned hforce m
      rw [hlinks] at hbit
      refine hbit.trans ?_
      dsimp only
      rw [upd_get]
      by_cases hm : m = n
      · simp [hm]
      · simp [hm]
    · exact reportLinks_get_outside (s := onLink n PanelLink.close s) ha
  · intro hc
    obtain ⟨hdue, hdown⟩ := (Bool.and_eq_true _ _).mp hc
    obtain ⟨hup, hseen, hmiss⟩ := (goesDown_iff _).mp hdown
    obtain h | h | h | h := h
    · rw [h] at hdue
      cases hdue
    · rw [h] at hup
      cases hup
    · rw [h] at hseen
      cases hseen
    · omega

end Sys2Proof.Machine
end

section
/-! SUPPORT. A play record handed over (chapter 9): the read index, the record's words in show memory, and the retry of a frame
start. -/

namespace Sys2Proof.Machine

/-! ## The read index -/

section
variable {s : State}

theorem logRoom_iff (s : State) : logRoom s = true ↔ LogHasRoom s := by
  unfold logRoom
  simp only [Bool.and_eq_true, decide_eq_true_iff]

theorem testReadIndex_plw (s : State) : (testReadIndex s).plw = { s.plw with badIndex := badIndexAfter s } := by
  unfold testReadIndex badIndexAfter
  dsimp only
  split
  · split
    · next h => rw [← h]
    · rfl
  · rfl

theorem testReadIndex_events (s : State) : (testReadIndex s).smp.events = eventsAfterIndex s := by
  unfold testReadIndex eventsAfterIndex
  dsimp only
  split
  · next hbad =>
    split
    · next h => rw [if_neg fun hc => hc.2 h, BitVec.or_zero]
    · next h =>
      rw [if_pos ⟨hbad, h⟩]
      rfl
  · next hgood =>
    rw [if_neg fun hc => hgood hc.1, BitVec.or_zero]
    rfl

theorem testReadIndex_of_good (h : (anchorWord s 0x20).toNat < s.plw.logLength) :
    testReadIndex s = s.onPlw fun p => { p with badIndex := none } := if_neg (Nat.not_le.mpr h)

end

/-! ## A record in show memory -/

/-- The bytes of a word put together of four. -/
theorem bits_of_bytes (a b c d : Byte) : bits (a ++ b ++ c ++ d : Word) 0 8 = d ∧ bits (a ++ b ++ c ++ d : Word) 8 8 = c ∧
    bits (a ++ b ++ c ++ d : Word) 16 8 = b ∧ ∀ i, i < 8 → (a ++ b ++ c ++ d : Word).getLsbD (24 + i) = a.getLsbD i := by
  unfold bits
  refine ⟨?_, ?_, ?_, fun i hi => ?_⟩
  · ext i hi
    simp only [BitVec.getElem_extractLsb', BitVec.getLsbD_append]
    simp [hi]
  · ext i hi
    simp only [BitVec.getElem_extractLsb', BitVec.getLsbD_append]
    simp [hi]
  · ext i hi
    simp only [BitVec.getElem_extractLsb', BitVec.getLsbD_append]
    have h8 : ¬16 + i < 8 := by omega
    have h16 : ¬16 + i - 8 < 8 := by omega
    have hi' : 16 + i - 8 - 8 = i := by omega
    simp [h8, h16, hi', hi]
  · simp only [BitVec.getLsbD_append]
    have h8 : ¬24 + i < 8 := by omega
    have h16 : ¬24 + i - 8 < 8 := by omega
    have h24 : ¬24 + i - 8 - 8 < 8 := by omega
    have hi' : 24 + i - 8 - 8 - 8 = i := by omega
    simp [h8, h16, h24, hi']

/-- The halves of a word put together of two. -/
theorem bits_of_halves (a b : BitVec 16) : bits (a ++ b : Word) 0 16 = b ∧ bits (a ++ b : Word) 16 16 = a := by
  unfold bits
  constructor
  · ext i hi
    simp only [BitVec.getElem_extractLsb', BitVec.getLsbD_append]
    simp [hi]
  · ext i hi
    simp only [BitVec.getElem_extractLsb', BitVec.getLsbD_append]
    simp [BitVec.getLsbD_eq_getElem hi]

theorem playRecord_flags (r : PlayRecord) :
    r.flags.getLsbD 0 = r.cut ∧ r.flags.getLsbD 1 = r.preClear ∧ r.flags.getLsbD 2 = r.fallback := by
  unfold PlayRecord.flags
  cases r.cut <;> cases r.preClear <;> cases r.fallback <;> decide

theorem bits_low_half (n : Nat) : bits (BitVec.ofNat 32 (n % 65536)) 0 16 = BitVec.ofNat 16 n := by
  unfold bits
  refine BitVec.eq_of_toNat_eq ?_
  rw [BitVec.extractLsb'_toNat, BitVec.toNat_ofNat, BitVec.toNat_ofNat, Nat.shiftRight_zero]
  omega

section
variable {s : State}

theorem writeRecord_mem {r : PlayRecord} (hforce : s.smp.inForce = true) : (writeRecord r s).mem =
    (s.mem.storeWords (s.plw.logOffset.toNat + 32 * s.plw.writeIndex) r.words).storeWords (s.smp.anchor.toNat + 0x10C)
      [BitVec.ofNat 32 ((s.plw.writeIndex + 1) % s.plw.logLength)] := by
  unfold writeRecord
  dsimp only
  have hmem : ∀ t : State, (if r.preClear then t else addLogged r.group r.entry r.zoneFrames t).mem = t.mem := by
    intro t
    split <;> rfl
  rw [hmem, anchorWrite_mem]
  exact if_pos hforce

theorem writeRecord_plw (r : PlayRecord) (s : State) : (writeRecord r s).plw =
    { s.plw with writeIndex := (s.plw.writeIndex + 1) % s.plw.logLength } := by
  unfold writeRecord
  dsimp only
  have hplw : ∀ t : State, (if r.preClear then t else addLogged r.group r.entry r.zoneFrames t).plw = t.plw := by
    intro t
    split <;> rfl
  rw [hplw, anchorWrite_plw]
  rfl

theorem playRecord_words_length (r : PlayRecord) : r.words.length = 8 := rfl

/-- A record written stands in its place, whatever else of the unit has been set since the state it is compared with (9.1). -/
theorem writeRecord_logWritten {r : PlayRecord} (hforce : s.smp.inForce = true) (hinside : LogInside s) {u : State}
    (hu : ChangesOnly [.plw] s u) (hoffset : u.plw.logOffset = s.plw.logOffset) (hlength : u.plw.logLength = s.plw.logLength)
    (hindex : u.plw.writeIndex = s.plw.writeIndex) : LogWritten s (writeRecord r u) r := by
  obtain ⟨hlt, hfits, haligned, hclear⟩ := hinside
  have hanchor := anchor_inside haligned
  have hforceu : u.smp.inForce = true := (hu.inForce rfl).trans hforce
  have hmem : (writeRecord r u).mem = (s.mem.storeWords (logRecordOffset s) r.words).storeWords
      (s.smp.anchor.toNat + 0x10C) [BitVec.ofNat 32 ((s.plw.writeIndex + 1) % s.plw.logLength)] := by
    rw [writeRecord_mem hforceu, hoffset, hlength, hindex, show u.mem = s.mem from hu .mem rfl, hu.anchor rfl]
    rfl
  have hindex' : (writeRecord r u).plw.writeIndex = (s.plw.writeIndex + 1) % s.plw.logLength := by
    rw [writeRecord_plw, hindex, hlength]
  have hspan : 32 * (s.plw.writeIndex + 1) ≤ 32 * s.plw.logLength := Nat.mul_le_mul_left 32 hlt
  have hsize : Config.memorySize = 2 ^ 32 := rfl
  have hplace : logRecordOffset s = s.plw.logOffset.toNat + 32 * s.plw.writeIndex := rfl
  have hword : ∀ k, (hk : k < 8) → (writeRecord r u).mem.word (logRecordOffset s + 4 * k) = r.words[k] := by
    intro k hk
    rw [hmem, Memory.word_storeWords_outside _ _ _ _ (by rw [List.length_singleton]; omega)]
    exact Memory.word_storeWords _ _ _ _ hk (by omega)
  have hanchorWord : (writeRecord r u).mem.word (s.smp.anchor.toNat + 0x10C) =
      BitVec.ofNat 32 (writeRecord r u).plw.writeIndex := by
    rw [hindex', hmem]
    exact Memory.word_storeWords_first _ _ _ _ (by omega)
  have hsru : (writeRecord r u).sru = if r.preClear then s.sru else (addLogged r.group r.entry r.zoneFrames s).sru := by
    rw [writeRecord_sru, show u.sru = s.sru from hu .sru rfl, addLogged, addLogged, onAccount_sru, onAccount_sru,
      show u.sru = s.sru from hu .sru rfl]
  obtain ⟨hentry, hgroup, hcreative, hflags⟩ := bits_of_bytes r.flags (BitVec.ofNat 8 r.creative)
    (BitVec.ofNat 8 r.group.val) (BitVec.ofNat 8 r.entry.val)
  obtain ⟨hcut, hpre, hfall⟩ := playRecord_flags r
  obtain ⟨hplanned, hanswered⟩ := bits_of_halves (BitVec.ofNat 16 r.answered) (BitVec.ofNat 16 r.planned)
  have hword1 : (writeRecord r u).mem.word (logRecordOffset s + 4) = r.flags ++ BitVec.ofNat 8 r.creative ++
      BitVec.ofNat 8 r.group.val ++ BitVec.ofNat 8 r.entry.val := hword 1 (by omega)
  have hword3 : (writeRecord r u).mem.word (logRecordOffset s + 12) =
      BitVec.ofNat 16 r.answered ++ BitVec.ofNat 16 r.planned := hword 3 (by omega)
  have hword5 : (writeRecord r u).mem.word (logRecordOffset s + 20) = BitVec.ofNat 32 (r.preemptedFrames % 65536) :=
    hword 5 (by omega)
  refine ⟨hindex', hword 0 (by omega), ?_, ?_, ?_, ?_, ?_, ?_, hword 2 (by omega), ?_, ?_, hword 4 (by omega), ?_,
    hanchorWord, fun g i => ?_, ?_, ?_, writeRecord_then r (hu.mono rfl) rfl, fun a ha hrecord => ?_⟩
  · rw [hword1]; exact hentry
  · rw [hword1]; exact hgroup
  · rw [hword1]; exact hcreative
  · rw [hword1]; exact (hflags 0 (by omega)).trans hcut
  · rw [hword1]; exact (hflags 1 (by omega)).trans hpre
  · rw [hword1]; exact (hflags 2 (by omega)).trans hfall
  · rw [hword3]; exact hplanned
  · rw [hword3]; exact hanswered
  · rw [hword5]; exact bits_low_half _
  · rw [hsru]
    cases hclearBit : r.preClear with
    | true => simp
    | false =>
      simp only [Bool.false_eq_true, if_false, addLogged, onAccount_get, and_true]
      by_cases h : g = r.group ∧ i = r.entry
      · rw [if_pos h, if_pos h, h.1, h.2]
      · rw [if_neg h, if_neg h]
  · rw [hsru]
    split <;> rfl
  · rw [hsru]
    split <;> rfl
  · rw [hmem, Memory.get_storeWords_outside _ _ _ _ (by rw [List.length_singleton]; unfold AnchorByte at ha; omega),
      Memory.get_storeWords_outside _ _ _ _ (by rw [playRecord_words_length]; omega)]

/-! ## A record dropped -/

theorem dropped_plw (r : PlayRecord) (s : State) :
    (dropped r s).plw = { s.plw with overflow := min (s.plw.overflow + 1) 4294967295 } := by
  unfold dropped
  rw [State.onPlw_plw]
  split <;> rfl

theorem dropped_account (r : PlayRecord) (s : State) (g : Fin 8) (i : Fin 64) : (dropped r s).sru.accounts[g][i] =
    if g = r.group ∧ i = r.entry ∧ r.preClear = false then
      { s.sru.accounts[g][i] with unlogged := s.sru.accounts[g][i].unlogged + BitVec.ofNat 64 r.zoneFrames }
    else s.sru.accounts[g][i] := by
  unfold dropped
  simp only [State.onPlw_sru]
  cases hclear : r.preClear with
  | true => simp
  | false =>
    simp only [Bool.false_eq_true, if_false, addUnlogged, onAccount_get, and_true]
    by_cases h : g = r.group ∧ i = r.entry
    · rw [if_pos h, if_pos h, h.1, h.2]
    · rw [if_neg h, if_neg h]

end

/-! ## The retry of a frame start -/

/-- The frame start that waits in the log writer is taken. -/
def plwHandled (s : State) : State := s.onPlw fun p => { p with frameDue := false }

theorem exec_holdQueueRetry {s : State} (hdue : s.plw.frameDue = true) : exec .holdQueueRetry s =
    .next (plwFrameStart (plwHandled s)) := congrArg Host.Outcome.next (if_pos hdue)

theorem writeRecord_plwHandled (r : PlayRecord) (s : State) :
    writeRecord r (plwHandled s) = plwHandled (writeRecord r s) := by
  unfold writeRecord anchorWrite plwHandled
  dsimp only
  by_cases hforce : s.smp.inForce = true <;> by_cases hclear : r.preClear = true <;>
    simp [hforce, hclear, addLogged, onAccount, State.onSru, State.onPlw, State.withMem]

theorem plwFrameStart_of_held {r : PlayRecord} {rest : List PlayRecord} {s : State} (hforce : s.smp.inForce = true)
    (hhold : s.plw.hold = r :: rest) (hroom : LogHasRoom s) : plwFrameStart s =
      retryFuel rest.length (writeRecord r ((testReadIndex s).onPlw fun p => { p with hold := rest })) := by
  have hnonempty : ¬s.plw.hold = [] := by rw [hhold]; exact List.cons_ne_nil _ _
  rw [plwFrameStart, if_pos hforce, if_neg hnonempty, hhold, List.length_cons, retryFuel, hhold]
  exact if_pos ((logRoom_iff s).mpr hroom)

/-- The state in which the oldest held record is written. -/
def retrying (rest : List PlayRecord) (s : State) : State := s.onPlw fun p => { p with hold := rest, badIndex := none }

theorem testReadIndex_of_settled {s : State} (h : (anchorWord s 0x20).toNat < s.plw.logLength)
    (hbad : s.plw.badIndex = none) : testReadIndex s = s := by
  rw [testReadIndex_of_good h]
  have hplw : ({ s.plw with badIndex := none } : Plw) = s.plw := by rw [← hbad]
  exact congrArg (fun p => ({ s with plw := p } : State)) hplw

/-- The read index of the anchor stands after a record is written. -/
theorem LogWritten.readIndex {s t : State} {r : PlayRecord} (h : LogWritten s t r) (hinside : LogInside s) :
    anchorWord t 0x20 = anchorWord s 0x20 := by
  obtain ⟨-, -, -, -, -, -, -, -, -, -, -, -, -, -, -, -, -, hframe, houtside⟩ := h
  obtain ⟨hlt, -, -, hclear⟩ := hinside
  have hspan : 32 * (s.plw.writeIndex + 1) ≤ 32 * s.plw.logLength := Nat.mul_le_mul_left 32 hlt
  have hplace : logRecordOffset s = s.plw.logOffset.toNat + 32 * s.plw.writeIndex := rfl
  unfold anchorWord
  rw [hframe.anchor rfl]
  exact Memory.word_congr fun a hlo hhi => houtside a (by unfold AnchorByte; omega) (by omega)

/-- Settles O47. -/
theorem logWritesHoldsOrDrops : Obligations.LogWritesHoldsOrDrops := by
  refine ⟨fun r s => ⟨fun hfull => ?_, fun hsome hnot => ?_, fun hempty hforce => ?_, fun hempty hforce hroom => ?_,
    fun hempty hforce hroom hinside => ?_⟩, fun s hdue => ?_, fun s hdue hforce => ?_, fun s hdue hforce h => ?_,
    fun r rest s hdue hforce hhold hroom hinside => ?_⟩
  · have hdrop : handRecord r s = dropRecord r s := if_pos hfull
    dsimp only
    rw [hdrop, dropRecord_eq]
    have hin : WritesIn 0x110 0x114 (dropped r s) (anchorWrite 0x110 [BitVec.ofNat 32 (dropped r s).plw.overflow]
        (dropped r s)) := anchorWrite_in (Nat.le_refl 0x110) (by rw [List.length_singleton]) _
    have hmem : (dropped r s).mem = s.mem := by
      unfold dropped
      rw [State.onPlw_mem]
      split <;> rfl
    have hsmp := dropped_smp r s
    refine ⟨?_, ?_, fun g i => ?_, fun hforce haligned => ?_, fun hforce => ?_, ?_, fun a ha => ?_⟩
    · rw [raise_plw, anchorWrite_plw, dropped_plw]
    · rw [raise_smp, anchorWrite_smp, hsmp]
      rfl
    · simp only [raise_sru, anchorWrite_sru, dropped_account]
    · rw [← hsmp] at hforce haligned ⊢
      rw [raise_plw, anchorWrite_plw]
      exact anchorWrite_word_at haligned hforce (by rw [List.length_singleton]; omega) _ 0 rfl rfl
    · exact (hin.unanchored (by rw [hsmp]; exact hforce)).trans hmem
    · rw [← dropRecord_eq]
      exact dropRecord_then r (.refl _ _) rfl
    · refine (hin.outside a ?_).trans (by rw [hmem])
      rwa [AnchorByte, hsmp]
  · have hheld : handRecord r s = holdRecord r s :=
      (if_neg (Nat.not_le.mpr hnot)).trans (if_neg fun h => by rw [h.1] at hsome; exact absurd hsome (by decide))
    dsimp only
    rw [hheld]
    exact ⟨rfl, holdRecord_then r (.refl _ _) rfl⟩
  · have hheld : handRecord r s = holdRecord r s :=
      (if_neg (by rw [hempty]; decide)).trans (if_neg fun h => by rw [hforce] at h; exact absurd h.2 (by decide))
    dsimp only
    rw [hheld]
    refine ⟨?_, holdRecord_then r (.refl _ _) rfl⟩
    rw [holdRecord, State.onPlw_plw, hempty]
    rfl
  · have hheld : handRecord r s = holdRecord r (testReadIndex s) :=
      (if_neg (by rw [hempty]; decide)).trans ((if_pos ⟨hempty, hforce⟩).trans
        (if_neg fun h => hroom ((logRoom_iff s).mp h)))
    dsimp only
    rw [hheld]
    refine ⟨?_, ?_, holdRecord_then r (testReadIndex_then (.refl _ _) rfl) rfl⟩
    · rw [holdRecord, State.onPlw_plw, testReadIndex_plw]
      dsimp only
      rw [hempty]
      rfl
    · rw [holdRecord, State.onPlw_smp, testReadIndex_events]
  · have hwrite : handRecord r s = writeRecord r (testReadIndex s) :=
      (if_neg (by rw [hempty]; decide)).trans ((if_pos ⟨hempty, hforce⟩).trans (if_pos ((logRoom_iff s).mpr hroom)))
    dsimp only
    rw [hwrite, testReadIndex_of_good hroom.1]
    exact ⟨writeRecord_logWritten hforce hinside (onPlw_then _ (.refl _ _) rfl) rfl rfl rfl, by rw [writeRecord_plw]; rfl⟩
  · exact congrArg Host.Outcome.next (if_neg (by rw [hdue]; decide))
  · rw [exec_holdQueueRetry hdue]
    exact congrArg Host.Outcome.next (if_neg (show ¬s.smp.inForce = true by rw [hforce]; decide))
  · refine ⟨_, exec_holdQueueRetry hdue, ?_⟩
    have htest : plwFrameStart (plwHandled s) =
        testReadIndex (plwHandled s) := by
      refine (if_pos hforce).trans ?_
      by_cases hempty : s.plw.hold = []
      · exact if_pos hempty
      · refine (if_neg hempty).trans ?_
        have hnoroom : ¬logRoom (plwHandled s) = true :=
          fun hroom => h.resolve_left hempty ((logRoom_iff s).mp hroom)
        obtain ⟨r, rest, hhold⟩ := List.exists_cons_of_ne_nil hempty
        rw [show (plwHandled s).plw.hold = r :: rest from hhold, List.length_cons, retryFuel,
          show (plwHandled s).plw.hold = r :: rest from hhold]
        exact if_neg hnoroom
    rw [htest]
    refine ⟨?_, ?_, testReadIndex_then (onPlw_then _ (.refl _ _) rfl) rfl⟩
    · rw [testReadIndex_plw]
      rfl
    · rw [testReadIndex_events]
      rfl
  · have hwritten : LogWritten s (writeRecord r (retrying rest s)) r :=
      writeRecord_logWritten hforce hinside (onPlw_then _ (.refl _ _) rfl) rfl rfl rfl
    have hplw : (writeRecord r (retrying rest s)).plw = { s.plw with
        hold := rest, badIndex := none, writeIndex := (s.plw.writeIndex + 1) % s.plw.logLength } := writeRecord_plw _ _
    generalize hu : writeRecord r (retrying rest s) = u at hwritten hplw
    have hretried : writeRecord r ((testReadIndex (plwHandled s)).onPlw
        fun p => { p with hold := rest }) = plwHandled u := by
      rw [← hu, ← writeRecord_plwHandled, testReadIndex_of_good (s := plwHandled s) hroom.1]
      rfl
    have hfirst : exec .holdQueueRetry s = .next (retryFuel rest.length (plwHandled u)) := by
      rw [exec_holdQueueRetry hdue, plwFrameStart_of_held (s := plwHandled s) hforce hhold hroom, hretried]
    have hforceu : u.smp.inForce = true := by
      rw [← hu]
      exact ((writeRecord_then r (onPlw_then _ (ChangesOnly.refl [.mem, .plw, .sru] s) rfl) rfl).inForce rfl).trans hforce
    have hgood : (anchorWord u 0x20).toNat < u.plw.logLength := by
      rw [hwritten.readIndex hinside, hplw]
      exact hroom.1
    refine ⟨_, u, hfirst, ?_, hwritten, hplw⟩
    rw [exec_holdQueueRetry ((congrArg Plw.frameDue hplw).trans hdue)]
    refine congrArg Host.Outcome.next ((if_pos hforceu).trans ?_)
    have hholdu : (plwHandled u).plw.hold = rest := congrArg Plw.hold hplw
    by_cases hlast : rest = []
    · rw [hholdu, if_pos hlast, testReadIndex_of_settled (s := plwHandled u) hgood (congrArg Plw.badIndex hplw), hlast]
      rfl
    · rw [hholdu, if_neg hlast]

end Sys2Proof.Machine
end

section
/-! SUPPORT. The rotation of a group (chapter 8): the entry that a selection takes, the answer of a slot, its end, its close and
the snapshot section that the close writes. -/

namespace Sys2Proof.Machine

/-! ## The selection -/

theorem foldl_better_mem {as : Vector Account 64} (l : List (Fin 64)) (best : Option (Fin 64)) {b : Fin 64}
    (h : l.foldl (better as) best = some b) : b ∈ l ∨ best = some b := by
  induction l generalizing best with
  | nil => exact .inr h
  | cons j l ih =>
    obtain hmem | hbest := ih _ h
    · exact .inl (List.mem_cons_of_mem _ hmem)
    · unfold better at hbest
      split at hbest
      · cases hbest
        exact .inl (List.mem_cons_self ..)
      · split at hbest
        · cases hbest
          exact .inl (List.mem_cons_self ..)
        · exact .inr hbest

theorem foldl_better_stays {as : Vector Account 64} {i : Fin 64} (l : List (Fin 64))
    (h : ∀ j ∈ l, as[j].balance ≤ as[i].balance) : l.foldl (better as) (some i) = some i := by
  induction l with
  | nil => rfl
  | cons j l ih =>
    have hstep : better as (some i) j = some i := if_neg (Int.not_lt.mpr (h j (List.mem_cons_self ..)))
    rw [List.foldl_cons, hstep]
    exact ih fun j hj => h j (List.mem_cons_of_mem _ hj)

theorem bestEntry_of_none {r : Sru} {g : Fin 8} (h : ∀ i, eligible r g i = false) : bestEntry r g = none := by
  have hnone : (List.finRange 64).filter (eligible r g) = [] := by
    rw [List.filter_eq_nil_iff]
    intro i _
    rw [h i]
    decide
  rw [bestEntry, hnone]
  rfl

/-- The selection takes the greatest balance, and the lowest number of those that have it (R132). -/
theorem bestEntry_of_greatest {r : Sru} {g : Fin 8} {i : Fin 64} (hi : eligible r g i = true)
    (h : ∀ j, eligible r g j = true → r.accounts[g][j].balance < r.accounts[g][i].balance ∨
      (r.accounts[g][j].balance = r.accounts[g][i].balance ∧ i ≤ j)) : bestEntry r g = some i := by
  have hsorted : ((List.finRange 64).filter (eligible r g)).Pairwise (· < ·) := (List.pairwise_lt_finRange 64).filter _
  have hall : ∀ j ∈ (List.finRange 64).filter (eligible r g), eligible r g j = true := fun j hj => (List.mem_filter.mp hj).2
  have hmem : i ∈ (List.finRange 64).filter (eligible r g) := List.mem_filter.mpr ⟨List.mem_finRange i, hi⟩
  unfold bestEntry
  generalize (List.finRange 64).filter (eligible r g) = l at hsorted hall hmem
  obtain ⟨before, after, rfl⟩ := List.append_of_mem hmem
  obtain ⟨-, -, hlt⟩ := List.pairwise_append.mp hsorted
  have hbefore : ∀ j ∈ before, r.accounts[g][j].balance < r.accounts[g][i].balance := by
    intro j hj
    have hji : j < i := hlt j hj i (List.mem_cons_self ..)
    obtain hless | ⟨-, hle⟩ := h j (hall j (List.mem_append_left _ hj))
    · exact hless
    · exact absurd hji (Fin.not_lt.mpr hle)
  have htaken : better r.accounts[g] (before.foldl (better r.accounts[g]) none) i = some i := by
    cases hbest : before.foldl (better r.accounts[g]) none with
    | none => rfl
    | some b =>
      obtain hmem | hnone := foldl_better_mem before none hbest
      · exact if_pos (hbefore b hmem)
      · cases hnone
  rw [List.foldl_append, List.foldl_cons, htaken]
  refine foldl_better_stays after fun j hj => ?_
  obtain hless | ⟨heq, -⟩ := h j (hall j (List.mem_append_right _ (List.mem_cons_of_mem _ hj)))
  · exact Int.le_of_lt hless
  · exact Int.le_of_eq heq

/-! ## A current slot -/

section
variable {g : Fin 8} {s : State} {x : Slot}

theorem onGroup_openSlot (g : Fin 8) (o : Option Slot) (s : State) :
    (onGroup g (fun r => { r with openSlot := o }) s).sru.groups[g].openSlot = o :=
  congrArg RotationGroup.openSlot (onGroup_get_self g _ s)

theorem dwellEnd_of_none (h : s.sru.groups[g].openSlot = none) : dwellEnd g s = s := by
  unfold dwellEnd
  rw [h]

theorem dwellEnd_of_left (hopen : s.sru.groups[g].openSlot = some x) (h : x.closing = true ∨ x.remaining ≠ 0) :
    dwellEnd g s = s := by
  unfold dwellEnd
  rw [hopen]
  refine if_neg fun hc => ?_
  obtain ⟨hcurrent, hzero⟩ := (Bool.and_eq_true _ _).mp hc
  obtain h | h := h
  · rw [h] at hcurrent
    cases hcurrent
  · exact h (beq_iff_eq.mp hzero)

theorem dwellEnd_of_answered (hopen : s.sru.groups[g].openSlot = some x) (hcurrent : x.closing = false)
    (hzero : x.remaining = 0) : dwellEnd g s =
      if x.outstanding = none then closeSlot g (onGroup g (fun r => { r with openSlot := some { x with closing := true } }) s)
      else onGroup g (fun r => { r with openSlot := some { x with closing := true } }) s := by
  unfold dwellEnd
  rw [hopen]
  exact if_pos (by rw [hcurrent, hzero]; rfl)

theorem answerSlot_of_none {f : Frame} (h : s.sru.groups[g].openSlot = none) : answerSlot g f s = (.nothing, s) := by
  unfold answerSlot
  rw [h]

theorem answerSlot_of_current {f : Frame} (hopen : s.sru.groups[g].openSlot = some x) (hcurrent : x.closing = false) :
    answerSlot g f s = (creativeAnswer s x, dwellEnd g (onGroup g (fun r => { r with
      openSlot := some { x with outstanding := some f, answered := x.answered + 1, remaining := x.remaining - 1 } }) s)) := by
  unfold answerSlot
  rw [hopen]
  exact if_neg (by rw [hcurrent]; decide)

theorem creativeAnswer_of_some {c : Creative} (h : s.sru.entries[x.entry].creatives[x.creative]? = some c) :
    creativeAnswer s x = .creative x.entry x.number (c.base + (x.answered / c.rep % c.count) * c.pitch) c.width c.height := by
  unfold creativeAnswer
  rw [h]

/-- The answer of a current slot, with the end of its dwell (R133). -/
theorem answerSlot_of_dwell {f : Frame} (hopen : s.sru.groups[g].openSlot = some x) (hcurrent : x.closing = false)
    (hleft : 1 ≤ x.remaining) : answerSlot g f s = (creativeAnswer s x, onGroup g (fun r => { r with
      openSlot := some { x with outstanding := some f, answered := x.answered + 1, remaining := x.remaining - 1,
                                closing := x.remaining == 1 } }) s) := by
  rw [answerSlot_of_current hopen hcurrent]
  generalize hy : ({ x with outstanding := some f, answered := x.answered + 1, remaining := x.remaining - 1 } : Slot) = y
  have hcurrenty : y.closing = false := by rw [← hy]; exact hcurrent
  have hlefty : y.remaining = x.remaining - 1 := by rw [← hy]
  have houty : y.outstanding = some f := by rw [← hy]
  have hends : ({ x with
      outstanding := some f, answered := x.answered + 1, remaining := x.remaining - 1,
      closing := x.remaining == 1 } : Slot) = { y with closing := x.remaining == 1 } := by rw [← hy]
  rw [hends]
  congr 1
  by_cases hlast : x.remaining = 1
  · rw [dwellEnd_of_answered (onGroup_openSlot g (some y) s) hcurrenty (by omega), if_neg (by rw [houty]; exact fun h => nomatch h),
      onGroup_onGroup, hlast]
    rfl
  · rw [dwellEnd_of_left (onGroup_openSlot g (some y) s) (.inr (by omega)), beq_eq_false_iff_ne.mpr hlast, ← hcurrenty]

end

/-- The slot that a selection brings (R132). -/
theorem selectSlot_of_best {g : Fin 8} {f : Frame} {s : State} {i : Fin 64} (h : bestEntry s.sru g = some i) :
    selectSlot g f s = onGroup g (fun r => { r with slotNumber := (newSlot s g i f).number, openSlot := some (newSlot s g i f) })
      (onAccount g i (fun a => { a with
        cursor := (a.cursor + 1) % s.sru.entries[i].creatives.length, plays := a.plays + 1 }) s) := by
  unfold selectSlot
  rw [h]

theorem selectSlot_of_none {g : Fin 8} {f : Frame} {s : State} (h : bestEntry s.sru g = none) : selectSlot g f s = s := by
  unfold selectSlot
  rw [h]

/-! ## The close and its snapshot section -/

section
variable {g : Fin 8} {s : State} {x : Slot}

/-- The state after the close has handed its record over. -/
def handedOver (g : Fin 8) (x : Slot) (s : State) : State :=
  handRecord (x.record g) (onGroup g (fun r => { r with openSlot := none }) s)

/-- The count of logged zone-frames that the section shows: before or after the log has added the record (log 6). -/
def loggedShown (g : Fin 8) (x : Slot) (s : State) : BitVec 64 :=
  if Config.snapshotShowsLog (handedOver g x s).free then (handedOver g x s).sru.accounts[g][x.entry].logged
  else s.sru.accounts[g][x.entry].logged

theorem closeSlot_of_open (hopen : s.sru.groups[g].openSlot = some x) : closeSlot g s =
    if x.haltedUnder.all (· == (handedOver g x s).smp.anchorEpoch) then
      writeSnapshot g (showingLogged (handedOver g x s).sru.accounts[g] x.entry (loggedShown g x s))
        (handedOver g x s).nextFree
    else (handedOver g x s).nextFree := by
  unfold closeSlot
  rw [hopen]
  rfl

/-- A close reads of its slot the record and the anchor that its halt left in force alone. -/
theorem closeSlot_onGroup {y : Slot} (hopen : s.sru.groups[g].openSlot = some x) (hrecord : y.record g = x.record g)
    (hhalted : y.haltedUnder = x.haltedUnder) :
    closeSlot g (onGroup g (fun r => { r with openSlot := some y }) s) = closeSlot g s := by
  have hentry : y.entry = x.entry := congrArg PlayRecord.entry hrecord
  have hover : handedOver g y (onGroup g (fun r => { r with openSlot := some y }) s) = handedOver g x s := by
    unfold handedOver
    rw [onGroup_onGroup, hrecord]
  have hshown : loggedShown g y (onGroup g (fun r => { r with openSlot := some y }) s) = loggedShown g x s := by
    unfold loggedShown
    simp only [hover, hentry]
    rfl
  rw [closeSlot_of_open (onGroup_openSlot g (some y) s), closeSlot_of_open hopen, hover, hshown, hhalted, hentry]

theorem handedOver_then (g : Fin 8) (x : Slot) (s : State) :
    ChangesOnly [.mem, .plw, .sru, .events] s (handedOver g x s) :=
  handRecord_then _ (onGroup_then _ _ (.refl _ _) rfl) rfl

/-- The words of a list whose members give `n` words each. -/
theorem flatMap_getElem? {α β : Type} {n : Nat} (f : α → List β) (hf : ∀ a, (f a).length = n) (l : List α) (i j : Nat)
    (hj : j < n) : (l.flatMap f)[n * i + j]? = (l[i]?).bind fun a => (f a)[j]? := by
  induction l generalizing i with
  | nil => simp
  | cons a l ih =>
    rw [List.flatMap_cons]
    cases i with
    | zero =>
      rw [List.getElem?_append_left (by rw [hf]; omega)]
      simp
    | succ i =>
      rw [List.getElem?_append_right (by rw [hf, Nat.mul_add]; omega), hf,
        show n * (i + 1) + j - n = n * i + j by rw [Nat.mul_add]; omega, ih]
      simp

/-- The words of a section of the exposure snapshot after the first (12.8). -/
def sectionWords (r : RotationGroup) (accounts : Vector Account 64) : List Word :=
  [r.statusWord, 0, 0] ++ accounts.toList.flatMap Account.words

theorem sectionWords_length (r : RotationGroup) (accounts : Vector Account 64) : (sectionWords r accounts).length = 643 := by
  unfold sectionWords
  rw [List.length_append, List.length_flatMap]
  have hconst : (accounts.toList.map fun a => a.words.length) = List.replicate 64 10 := by
    rw [List.eq_replicate_iff]
    refine ⟨by simp, fun b hb => ?_⟩
    obtain ⟨a, -, rfl⟩ := List.mem_map.mp hb
    rfl
  rw [hconst]
  rfl

theorem sectionWords_account (r : RotationGroup) (accounts : Vector Account 64) (i : Fin 64) {j : Nat} (hj : j < 10) :
    (sectionWords r accounts)[3 + 10 * i.val + j]? = (accounts[i].words)[j]? := by
  unfold sectionWords
  rw [List.getElem?_append_right (by simp; omega), show 3 + 10 * i.val + j - [r.statusWord, 0, 0].length = 10 * i.val + j by
    simp only [List.length_cons, List.length_nil]; omega, flatMap_getElem? Account.words (fun _ => rfl) _ _ _ hj]
  have hget : accounts.toList[i.val]? = some accounts[i] := by simp
  rw [hget]
  rfl

theorem word64_of_words (v : BitVec 64) : v.extractLsb' 32 32 ++ v.extractLsb' 0 32 = v := by
  ext i hi
  simp only [BitVec.getElem_append, BitVec.getElem_extractLsb']
  split
  · simp [BitVec.getLsbD_eq_getElem hi]
  · rw [show 32 + (i - 32) = i by omega]
    simp [BitVec.getLsbD_eq_getElem hi]

theorem statusWord_bits (r : RotationGroup) : r.statusWord.getLsbD 0 = r.enabled ∧ r.statusWord.getLsbD 1 = r.saturated := by
  unfold RotationGroup.statusWord RotationGroup.statusByte
  cases r.enabled <;> cases r.saturated <;> decide

theorem writeSnapshot_of_not_inForce {accounts : Vector Account 64} (h : s.smp.inForce = false) :
    writeSnapshot g accounts s = s := if_neg (by rw [h]; decide)

theorem writeSnapshot_sru {accounts : Vector Account 64} (h : s.smp.inForce = true) :
    (writeSnapshot g accounts s).sru =
      { s.sru with groups := upd s.sru.groups g fun r => { r with snapshots := r.snapshots + 1 } } := by
  unfold writeSnapshot
  rw [if_pos h]
  rfl

theorem writeSnapshot_mem {accounts : Vector Account 64} (h : s.smp.inForce = true) : (writeSnapshot g accounts s).mem =
    (s.mem.storeWords (s.sru.snapshotOffset.toNat + 2576 * g.val + 4)
      (sectionWords (writeSnapshot g accounts s).sru.groups[g] accounts)).storeWords
        (s.sru.snapshotOffset.toNat + 2576 * g.val) [(writeSnapshot g accounts s).sru.groups[g].snapshots] := by
  rw [writeSnapshot_sru h]
  unfold writeSnapshot
  rw [if_pos h]
  rfl

/-- A section written reads as its group and accounts (12.8). -/
theorem writeSnapshot_reads {accounts : Vector Account 64} (hforce : s.smp.inForce = true)
    (hfits : s.sru.snapshotOffset.toNat + 20608 ≤ 2 ^ 32) :
    SectionReads (writeSnapshot g accounts s).mem (s.sru.snapshotOffset.toNat + 2576 * g.val)
      (writeSnapshot g accounts s).sru.groups[g] fun i => accounts[i] := by
  have hsize : Config.memorySize = 2 ^ 32 := rfl
  have hg := g.isLt
  rw [writeSnapshot_mem hforce]
  generalize (writeSnapshot g accounts s).sru.groups[g] = r
  generalize hplace : s.sru.snapshotOffset.toNat + 2576 * g.val = a
  have hspan : a + 2576 ≤ 2 ^ 32 := by omega
  have hlen := sectionWords_length r accounts
  have hword : ∀ k, (w : Word) → (sectionWords r accounts)[k]? = some w → ∀ p, p = a + 4 + 4 * k →
      ((s.mem.storeWords (a + 4) (sectionWords r accounts)).storeWords a [r.snapshots]).word p = w := by
    intro k w hk p hp
    obtain ⟨hlt, hget⟩ := List.getElem?_eq_some_iff.mp hk
    rw [hp, Memory.word_storeWords_outside _ _ _ _ (by rw [List.length_singleton]; omega)]
    exact (Memory.word_storeWords _ _ _ _ hlt (by omega)).trans hget
  have hstatus := hword 0 r.statusWord rfl (a + 4) (by omega)
  refine ⟨Memory.word_storeWords_first _ _ _ _ (by omega), ?_, ?_, fun i => ?_⟩
  · rw [hstatus]
    exact (statusWord_bits r).1
  · rw [hstatus]
    exact (statusWord_bits r).2
  · have haccount : ∀ j, (hj : j < 10) → (w : Word) → accounts[i].words[j]? = some w → ∀ p, p = a + 16 + 40 * i.val + 4 * j →
        ((s.mem.storeWords (a + 4) (sectionWords r accounts)).storeWords a [r.snapshots]).word p = w :=
      fun j hj w hw p hp => hword _ w ((sectionWords_account r accounts i hj).trans hw) p (by omega)
    have hdouble : ∀ j (hj : j + 1 < 10) (v : BitVec 64), accounts[i].words[j]? = some (v.extractLsb' 0 32) →
        accounts[i].words[j + 1]? = some (v.extractLsb' 32 32) → ∀ p, p = a + 16 + 40 * i.val + 4 * j →
        doubleAt ((s.mem.storeWords (a + 4) (sectionWords r accounts)).storeWords a [r.snapshots]) p = v := by
      intro j hj v hlow hhigh p hp
      unfold doubleAt
      rw [haccount j (by omega) _ hlow p hp, haccount (j + 1) hj _ hhigh (p + 4) (by omega)]
      exact word64_of_words v
    exact ⟨hdouble 0 (by omega) _ rfl rfl _ (by omega), hdouble 2 (by omega) _ rfl rfl _ (by omega),
      hdouble 4 (by omega) _ rfl rfl _ (by omega), hdouble 6 (by omega) _ rfl rfl _ (by omega),
      haccount 8 (by omega) _ rfl _ (by omega)⟩

theorem writeSnapshot_get_outside {accounts : Vector Account 64} {a : Nat}
    (h : ¬(s.sru.snapshotOffset.toNat + 2576 * g.val ≤ a ∧ a < s.sru.snapshotOffset.toNat + 2576 * g.val + 2576)) :
    (writeSnapshot g accounts s).mem.get a = s.mem.get a := by
  by_cases hforce : s.smp.inForce = true
  · rw [writeSnapshot_mem hforce, Memory.get_storeWords_outside _ _ _ _ (by rw [List.length_singleton]; omega),
      Memory.get_storeWords_outside _ _ _ _ (by rw [sectionWords_length]; omega)]
  · rw [writeSnapshot_of_not_inForce (by simpa using hforce)]

theorem showingLogged_get (accounts : Vector Account 64) (i j : Fin 64) (l : BitVec 64) :
    (showingLogged accounts i l)[j] = if j = i then { accounts[j] with logged := l } else accounts[j] := by
  rw [showingLogged, upd_get]
  by_cases h : j = i
  · rw [if_pos h, if_pos h, h]
  · rw [if_neg h, if_neg h]

end

/-- Settles O45. -/
theorem rotationSelectsAndCloses : Obligations.RotationSelectsAndCloses := by
  refine ⟨fun g f i c s henabled hzones hnone hi hbest hcreative hdwell => ?_, fun g f s => ⟨fun h => ?_,
    fun x c henabled hzones hopen hcurrent hleft hcreative => ?_⟩, fun g x s hopen => ?_, fun g x s hopen hcurrent =>
    ⟨fun hout => ?_, fun hout => ?_⟩, fun g s => ⟨fun h => ?_, fun x hopen hcurrent hzero => ?_⟩⟩
  · have hasked : ¬(!s.sru.groups[g].enabled || s.sru.groups[g].zones == 0) = true := by
      rw [henabled, Bool.not_true, Bool.false_or, beq_iff_eq]
      exact hzones
    have hrequest : groupRequest g f s = answerSlot g f (selectSlot g f s) := (if_neg hasked).trans (if_pos hnone)
    have hslot : newSlot s g i f = {
        number := s.sru.groups[g].slotNumber + 1, entry := i,
        sponsorId := s.sru.entries[i].sponsorId, creative := s.sru.accounts[g][i].cursor, start := f, planned := c.dwell,
        remaining := c.dwell, answered := 0, outstanding := none, running := 0, preemptedFrames := 0, cut := false,
        preClear := false, fallback := s.smp.dev == .fallback, closing := false, haltedUnder := none } := by
      unfold newSlot
      dsimp only
      rw [hcreative]
      rfl
    have hselect := selectSlot_of_best (f := f) (bestEntry_of_greatest hi hbest)
    generalize hu : selectSlot g f s = u at hrequest hselect
    have hopen : u.sru.groups[g].openSlot = some (newSlot s g i f) := by
      rw [hselect, onGroup_get_self]
    have hcreativeu : u.sru.entries[(newSlot s g i f).entry].creatives[(newSlot s g i f).creative]? = some c := by
      rw [hselect]
      exact hcreative
    rw [answerSlot_of_dwell hopen rfl (show 1 ≤ (newSlot s g i f).remaining by rw [hslot]; show 1 ≤ c.dwell; omega),
      creativeAnswer_of_some hcreativeu] at hrequest
    dsimp only
    rw [hrequest]
    refine ⟨?_, ?_, ?_, fun h j hne => ?_, fun h hne => ?_, ?_, ?_⟩
    · rw [hslot]
      simp
    · rw [onGroup_get_self, hselect, onGroup_get_self, hslot]
      have hlast : (c.dwell == 1) = false := beq_eq_false_iff_ne.mpr (by omega)
      rw [hlast]
      rfl
    · rw [hselect]
      exact (onAccount_get _ _ _ _ _ _).trans (if_pos ⟨rfl, rfl⟩)
    · rw [hselect]
      exact (onAccount_get _ _ _ _ _ _).trans (if_neg fun hc => hne.elim (fun h => h hc.1) (fun h => h hc.2))
    · rw [onGroup_get, if_neg hne, hselect, onGroup_get, if_neg hne]
      rfl
    · rw [hselect]
      rfl
    · rw [hselect]
      exact onGroup_then _ _ (onGroup_then _ _ (onAccount_then _ _ _ (.refl _ _) rfl) rfl) rfl
  · obtain h | h | ⟨hnone, h⟩ := h
    · exact if_pos (by rw [h]; rfl)
    · exact if_pos (by rw [h, beq_self_eq_true, Bool.or_true])
    · unfold groupRequest
      rw [if_pos hnone, selectSlot_of_none (bestEntry_of_none h), answerSlot_of_none hnone, ite_self]
  · have hasked : ¬(!s.sru.groups[g].enabled || s.sru.groups[g].zones == 0) = true := by
      rw [henabled, Bool.not_true, Bool.false_or, beq_iff_eq]
      exact hzones
    refine (if_neg hasked).trans ((if_neg (by rw [hopen]; exact fun h => nomatch h)).trans ?_)
    rw [answerSlot_of_dwell hopen hcurrent hleft, creativeAnswer_of_some hcreative]
    rfl
  · have hover : handedOver g x s = handRecord
        { sponsorId := x.sponsorId, entry := x.entry, group := g, creative := x.creative, start := x.start,
          planned := x.planned, answered := x.answered, zoneFrames := x.running,
          preemptedFrames := x.preemptedFrames, cut := x.cut, preClear := x.preClear, fallback := x.fallback }
        { s with sru := { s.sru with groups := upd s.sru.groups g fun r => { r with openSlot := none } } } := rfl
    have hframe := handedOver_then g x s
    have hforceu : (handedOver g x s).smp.inForce = s.smp.inForce := hframe.inForce rfl
    have hepoch : (handedOver g x s).smp.anchorEpoch = s.smp.anchorEpoch := hframe.epoch rfl
    have hoffset : (handedOver g x s).sru.snapshotOffset = s.sru.snapshotOffset :=
      (handRecord_sru_field (F := Sru.snapshotOffset) (fun _ _ _ => rfl) _ _).trans rfl
    have hshown : loggedShown g x s = s.sru.accounts[g][x.entry].logged ∨
        loggedShown g x s = (handedOver g x s).sru.accounts[g][x.entry].logged := by
      unfold loggedShown
      split
      · exact .inr rfl
      · exact .inl rfl
    dsimp only
    rw [← hover, closeSlot_of_open hopen]
    generalize handedOver g x s = u at hforceu hepoch hoffset hshown
    rw [hepoch]
    refine ⟨fun h => ?_, fun hforce hhalted hfits => ?_⟩
    · have hquiet : (if x.haltedUnder.all (· == s.smp.anchorEpoch) then
          writeSnapshot g (showingLogged u.sru.accounts[g] x.entry (loggedShown g x s)) u.nextFree else u.nextFree) =
          u.nextFree := by
        obtain hforce | ⟨e, he, hne⟩ := h
        · rw [writeSnapshot_of_not_inForce (s := u.nextFree) (hforceu.trans hforce), ite_self]
        · exact if_neg (by rw [he, Option.all_some, beq_iff_eq]; exact hne)
      rw [hquiet]
      exact ⟨rfl, nextFree_then (.refl _ _) rfl⟩
    · have hwrites : x.haltedUnder.all (· == s.smp.anchorEpoch) = true := by
        cases he : x.haltedUnder with
        | none => rfl
        | some e => exact beq_iff_eq.mpr (hhalted e he)
      have hforceu' : u.nextFree.smp.inForce = true := hforceu.trans hforce
      rw [if_pos hwrites]
      refine ⟨writeSnapshot_sru hforceu', ⟨loggedShown g x s, hshown, ?_⟩, fun a ha => ?_,
        writeSnapshot_then g _ (nextFree_then (.refl _ _) rfl) rfl⟩
      · have hreads := writeSnapshot_reads (g := g) (s := u.nextFree)
          (accounts := showingLogged u.sru.accounts[g] x.entry (loggedShown g x s)) hforceu' (by
            rw [show u.nextFree.sru.snapshotOffset = s.sru.snapshotOffset from hoffset]; exact hfits)
        rw [show u.nextFree.sru.snapshotOffset = s.sru.snapshotOffset from hoffset] at hreads
        simp only [showingLogged_get] at hreads
        exact hreads
      · refine writeSnapshot_get_outside (s := u.nextFree) ?_
        rw [show u.nextFree.sru.snapshotOffset = s.sru.snapshotOffset from hoffset]
        exact ha
  · unfold cutSlot
    rw [hopen]
    exact (if_neg (by rw [hcurrent]; decide)).trans (if_pos hout)
  · unfold cutSlot
    rw [hopen]
    exact (if_neg (by rw [hcurrent]; decide)).trans (if_neg hout)
  · refine congrArg Host.Outcome.next ?_
    cases hopen : s.sru.groups[g].openSlot with
    | none => exact dwellEnd_of_none hopen
    | some x => exact dwellEnd_of_left hopen (h x hopen)
  · have hends := dwellEnd_of_answered hopen hcurrent hzero
    refine ⟨fun hout => congrArg Host.Outcome.next ?_, fun hout => congrArg Host.Outcome.next ?_⟩
    · rw [hends, if_pos hout]
      exact closeSlot_onGroup hopen rfl rfl
    · rw [hends, if_neg hout]
      rfl

end Sys2Proof.Machine
end

section
/-! SUPPORT. What a shown report credits a group with (sections 8.6, 8.7): the balances, the flag and the status byte. -/

namespace Sys2Proof.Machine

/-! ## The status bytes of the groups -/

theorem statusByte_bits (r : RotationGroup) :
    r.statusByte.getLsbD 0 = r.enabled ∧ r.statusByte.getLsbD 1 = r.saturated := by
  unfold RotationGroup.statusByte
  cases r.enabled <;> cases r.saturated <;> decide

/-- The byte of each group in the two status words. -/
theorem groupWords_byte (gs : Vector RotationGroup 8) (h : Fin 8) :
    ∃ w, (groupWords gs)[h.val / 4]? = some w ∧ (bytesOf w)[h.val % 4]? = some gs[h].statusByte := by
  have hbytes : ∀ a b c d : Byte, bytesOf (a ++ b ++ c ++ d) = [d, c, b, a] := by
    intro a b c d
    obtain ⟨h0, h1, h2, h3⟩ := bits_of_bytes a b c d
    have htop : (a ++ b ++ c ++ d : Word).extractLsb' 24 8 = a := by
      ext i hi
      rw [BitVec.getElem_extractLsb', h3 i hi, BitVec.getLsbD_eq_getElem hi]
    exact congrArg₂ List.cons h0 (congrArg₂ List.cons h1 (congrArg₂ List.cons h2 (congrArg (fun x => [x]) htop)))
  have hwords : groupWords gs = [gs[3].statusByte ++ gs[2].statusByte ++ gs[1].statusByte ++ gs[0].statusByte,
      gs[7].statusByte ++ gs[6].statusByte ++ gs[5].statusByte ++ gs[4].statusByte] := rfl
  rw [hwords]
  have hcases : h = 0 ∨ h = 1 ∨ h = 2 ∨ h = 3 ∨ h = 4 ∨ h = 5 ∨ h = 6 ∨ h = 7 := by omega
  obtain rfl | rfl | rfl | rfl | rfl | rfl | rfl | rfl := hcases <;>
    exact ⟨_, rfl, by rw [hbytes]; rfl⟩

theorem writeGroupStatus_byte {s : State} (hforce : s.smp.inForce = true) (haligned : s.smp.anchor.toNat % 4096 = 0)
    (h : Fin 8) : (writeGroupStatus s).mem.get (s.smp.anchor.toNat + 0x128 + h.val) = s.sru.groups[h].statusByte := by
  obtain ⟨w, hword, hbyte⟩ := groupWords_byte s.sru.groups h
  obtain ⟨hlt, hget⟩ := List.getElem?_eq_some_iff.mp hword
  have hinside := anchor_inside haligned
  have hh := h.isLt
  have hplace : s.smp.anchor.toNat + 0x128 + h.val = s.smp.anchor.toNat + 0x128 + 4 * (h.val / 4) + h.val % 4 := by omega
  rw [writeGroupStatus, anchorWrite_mem, if_pos hforce, hplace,
    Memory.get_storeWords_inside _ _ _ _ _ hlt (by omega) (by rw [groupWords_length] at hlt; omega), hget, hbyte]
  rfl

/-! ## A credit -/

theorem holdBalance_eq (b : Int) : holdBalance b = max (-(2 ^ 47)) (min (2 ^ 47 - 1) b) := rfl

theorem weightSum_eq (r : Sru) (g : Fin 8) : (weightSum r g : Int) =
    ((List.finRange 64).map fun i => if eligible r g i then (r.entries[i].weight : Int) else 0).sum := by
  rw [weightSum, ← Fin.sum_univ_def, ← Fin.sum_univ_def, Nat.cast_sum]
  refine Finset.sum_congr rfl fun i _ => ?_
  unfold eligibleWeight
  split <;> rfl

theorem gainSum_of_eligible {r : Sru} {g : Fin 8} {i : Fin 64} (k : Nat) (h : eligible r g i = true) :
    gainSum r g k i = r.accounts[g][i].balance + (eligibleWeight r g i : Int) * k := by
  rw [gainSum, eligibleWeight, if_pos h]

theorem gained_eq (r : Sru) (g : Fin 8) (k : Nat) (i : Fin 64) : gained r g k i =
    if eligible r g i then
      max (-(2 ^ 47)) (min (2 ^ 47 - 1) (r.accounts[g][i].balance + (eligibleWeight r g i : Int) * k))
    else r.accounts[g][i].balance := by
  unfold gained
  split
  · next h => rw [gainSum_of_eligible k h, holdBalance_eq]
  · rfl

theorem creditHeld_iff (r : Sru) (g : Fin 8) (k : Nat) (shown : Fin 64) : creditHeld r g k shown = true ↔
    (∃ i, eligible r g i = true ∧ holdBalance (gainSum r g k i) ≠ gainSum r g k i) ∨
      holdBalance (chargeSum r g k shown) ≠ chargeSum r g k shown := by
  unfold creditHeld
  simp only [Bool.or_eq_true, List.any_eq_true, List.mem_finRange, true_and, Bool.and_eq_true, bne_iff_ne]

/-- Some change of the report is held at a limit (R136). -/
theorem creditHeld_iff_within (r : Sru) (g : Fin 8) (k : Nat) (shown : Fin 64) : creditHeld r g k shown = true ↔
    (∃ i, eligible r g i = true ∧
      max (-(2 ^ 47)) (min (2 ^ 47 - 1) (r.accounts[g][i].balance + (eligibleWeight r g i : Int) * k)) ≠
        r.accounts[g][i].balance + (eligibleWeight r g i : Int) * k) ∨
      max (-(2 ^ 47)) (min (2 ^ 47 - 1) (gained r g k shown - (weightSum r g : Int) * k)) ≠
        gained r g k shown - (weightSum r g : Int) * k := by
  rw [creditHeld_iff]
  refine or_congr (exists_congr fun i => and_congr_right fun hi => ?_) Iff.rfl
  rw [gainSum_of_eligible k hi, holdBalance_eq]

section
variable {g : Fin 8} {k : Nat} {shown : Fin 64} {s : State}

theorem saturated_group (g h : Fin 8) (s : State) : (saturated g s).sru.groups[h] =
    if h = g then { s.sru.groups[g] with saturated := true } else s.sru.groups[h] := by
  have hsru : (saturated g s).sru = (onGroup g (fun r => { r with saturated := true }) s).sru := by
    unfold saturated
    dsimp only
    rw [raise_sru]
    split
    · rfl
    · rw [writeGroupStatus, anchorWrite_sru]
  rw [hsru, onGroup_get]

theorem saturated_accounts (g : Fin 8) (s : State) : (saturated g s).sru.accounts = s.sru.accounts := by
  unfold saturated
  dsimp only
  rw [raise_sru]
  split
  · rfl
  · rw [writeGroupStatus, anchorWrite_sru]
    rfl

theorem saturated_events (g : Fin 8) (s : State) : (saturated g s).smp.events = s.smp.events ||| 0x100#10 := by
  unfold saturated
  dsimp only
  rw [raise_smp]
  split
  · rfl
  · rw [writeGroupStatus, anchorWrite_smp]
    rfl

theorem saturated_mem_of_set (h : s.sru.groups[g].saturated = true) : (saturated g s).mem = s.mem := by
  unfold saturated
  dsimp only
  rw [raise_mem, if_pos h]
  rfl

theorem saturated_mem_of_clear (h : s.sru.groups[g].saturated = false) : (saturated g s).mem =
    (writeGroupStatus (onGroup g (fun r => { r with saturated := true }) s)).mem := by
  unfold saturated
  dsimp only
  rw [raise_mem, if_neg (by rw [h]; decide)]

theorem saturated_unanchored (h : s.smp.inForce = false) : (saturated g s).mem = s.mem := by
  cases hset : s.sru.groups[g].saturated with
  | true => exact saturated_mem_of_set hset
  | false =>
    rw [saturated_mem_of_clear hset]
    exact anchorWrite_mem_of_not_inForce (s := onGroup g (fun r => { r with saturated := true }) s) h _ _

theorem saturated_get_outside {a : Nat} (h : ¬AnchorByte s 0x128 0x130 a) : (saturated g s).mem.get a = s.mem.get a := by
  cases hset : s.sru.groups[g].saturated with
  | true => rw [saturated_mem_of_set hset]
  | false =>
    rw [saturated_mem_of_clear hset]
    exact writeGroupStatus_get_outside (s := onGroup g (fun r => { r with saturated := true }) s) h

end

/-! ## The slot beside its credit -/

theorem groupWords_congr {as bs : Vector RotationGroup 8} (h : ∀ g : Fin 8, as[g].statusByte = bs[g].statusByte) :
    groupWords as = groupWords bs := by
  unfold groupWords
  rw [show as[0].statusByte = bs[0].statusByte from h 0, show as[1].statusByte = bs[1].statusByte from h 1,
    show as[2].statusByte = bs[2].statusByte from h 2, show as[3].statusByte = bs[3].statusByte from h 3,
    show as[4].statusByte = bs[4].statusByte from h 4, show as[5].statusByte = bs[5].statusByte from h 5,
    show as[6].statusByte = bs[6].statusByte from h 6, show as[7].statusByte = bs[7].statusByte from h 7]

theorem writeGroupStatus_onGroup_openSlot (g : Fin 8) (o : Option Slot) (s : State) :
    writeGroupStatus (onGroup g (fun r => { r with openSlot := o }) s) =
      onGroup g (fun r => { r with openSlot := o }) (writeGroupStatus s) := by
  have hwords : groupWords (onGroup g (fun r => { r with openSlot := o }) s).sru.groups = groupWords s.sru.groups :=
    groupWords_congr fun h => by
      rw [onGroup_get]
      split
      · next heq => rw [heq]; rfl
      · rfl
  unfold writeGroupStatus
  rw [hwords]
  unfold anchorWrite
  by_cases hforce : s.smp.inForce = true
  · rw [if_pos hforce]
    exact if_pos hforce
  · rw [if_neg hforce]
    exact if_neg hforce

theorem saturated_onGroup_openSlot (g : Fin 8) (o : Option Slot) (s : State) :
    saturated g (onGroup g (fun r => { r with openSlot := o }) s) =
      onGroup g (fun r => { r with openSlot := o }) (saturated g s) := by
  have hmark : onGroup g (fun r => { r with saturated := true }) (onGroup g (fun r => { r with openSlot := o }) s) =
      onGroup g (fun r => { r with openSlot := o }) (onGroup g (fun r => { r with saturated := true }) s) := by
    rw [onGroup_onGroup, onGroup_onGroup]
  have hset : (onGroup g (fun r => { r with openSlot := o }) s).sru.groups[g].saturated = s.sru.groups[g].saturated := by
    rw [onGroup_get_self]
  unfold saturated
  dsimp only
  rw [hmark, hset, writeGroupStatus_onGroup_openSlot]
  split <;> rfl

/-- The slot stands beside what a credit reads and changes. -/
theorem creditGroup_onGroup_openSlot (g : Fin 8) (k : Nat) (shown : Fin 64) (o : Option Slot) (s : State) :
    creditGroup g k shown (onGroup g (fun r => { r with openSlot := o }) s) =
      onGroup g (fun r => { r with openSlot := o }) (creditGroup g k shown s) := by
  have hheld : creditHeld (onGroup g (fun r => { r with openSlot := o }) s).sru g k shown = creditHeld s.sru g k shown := by
    rw [Bool.eq_iff_iff, creditHeld_iff, creditHeld_iff]
    exact Iff.rfl
  have hcredited : credited g k shown (onGroup g (fun r => { r with openSlot := o }) s) =
      onGroup g (fun r => { r with openSlot := o }) (credited g k shown s) := rfl
  rw [creditGroup_eq, creditGroup_eq, hheld, hcredited]
  split
  · exact saturated_onGroup_openSlot g o _
  · rfl

/-- The zone-frames of the slot that the report shows. -/
def litCount (g : Fin 8) (x : Slot) (report : List ReportEntry) : Nat :=
  (report.filter fun e => creditsSlot g x e && e.lit).length

/-- The accounts after a shown report of the slot: a slot marked PRE_CLEAR credits nothing. -/
def creditedFor (g : Fin 8) (k : Nat) (x : Slot) (s : State) : State :=
  if x.preClear then s else creditGroup g k x.entry s

section
variable {g : Fin 8} {f : Frame} {report : List ReportEntry} {x : Slot} {s : State}

theorem groupReport_of_outstanding (hopen : s.sru.groups[g].openSlot = some x) (hout : x.outstanding = some f) :
    groupReport g f report s =
      (let t := onGroup g (fun r => { r with openSlot := some (x.reported (litCount g x report)) })
        (creditedFor g (litCount g x report) x s)
       if x.closing then closeSlot g t else t) := by
  have hentered : groupReport g f report s =
      (let u := onGroup g (fun r => { r with openSlot := some (x.reported (litCount g x report)) }) s
       let t := if x.preClear then u else creditGroup g (litCount g x report) x.entry u
       if x.closing then closeSlot g t else t) := by
    unfold groupReport
    rw [hopen]
    exact if_pos hout
  rw [hentered]
  dsimp only
  rw [creditGroup_onGroup_openSlot]
  unfold creditedFor
  cases x.preClear <;> rfl

theorem groupReport_of_not (h : ∀ x, s.sru.groups[g].openSlot = some x → x.outstanding ≠ some f) :
    groupReport g f report s = s := by
  unfold groupReport
  split
  · rfl
  · next x hopen => exact if_neg (h x hopen)

/-- A close after a report does not read whether the slot stood closing before it. -/
theorem groupReport_of_closing (hopen : s.sru.groups[g].openSlot = some x) (hout : x.outstanding = some f)
    (hclosing : x.closing = true) : groupReport g f report s = closeSlot g (groupReport g f report
      (onGroup g (fun r => { r with openSlot := some { x with closing := false } }) s)) := by
  have hcredited : creditedFor g (litCount g x report) { x with closing := false }
      (onGroup g (fun r => { r with openSlot := some { x with closing := false } }) s) =
      onGroup g (fun r => { r with openSlot := some { x with closing := false } })
        (creditedFor g (litCount g x report) x s) := by
    unfold creditedFor
    rw [creditGroup_onGroup_openSlot]
    cases x.preClear <;> rfl
  have hcount : litCount g { x with closing := false } report = litCount g x report := rfl
  rw [groupReport_of_outstanding hopen hout, 
    groupReport_of_outstanding (x := { x with closing := false }) (onGroup_openSlot g _ s) hout, hcount, hcredited]
  dsimp only
  rw [if_pos hclosing, if_neg (by decide), onGroup_onGroup]
  generalize creditedFor g (litCount g x report) x s = u
  generalize litCount g x report = k
  have hclose := closeSlot_onGroup (s := onGroup g (fun r => { r with openSlot := some (x.reported k) }) u)
    (y := ({ x with closing := false } : Slot).reported k) (onGroup_openSlot g _ u) rfl rfl
  rw [onGroup_onGroup] at hclose
  exact hclose.symm

end

/-! ## What a credit leaves -/

section
variable (g : Fin 8) (k : Nat) (shown : Fin 64) (s : State)

theorem creditGroup_accounts (h : Fin 8) : (creditGroup g k shown s).sru.accounts[h] =
    if h = g then creditAccounts s.sru g k shown else s.sru.accounts[h] := by
  have haccounts : (creditGroup g k shown s).sru.accounts = (credited g k shown s).sru.accounts := by
    rw [creditGroup_eq]
    split
    · exact saturated_accounts g _
    · rfl
  simp only [haccounts, credited_accounts]

theorem creditGroup_group (h : Fin 8) : (creditGroup g k shown s).sru.groups[h] =
    if h = g ∧ creditHeld s.sru g k shown = true then { s.sru.groups[g] with saturated := true } else s.sru.groups[h] := by
  rw [creditGroup_eq]
  cases creditHeld s.sru g k shown with
  | true =>
    simp only [if_true, and_true]
    exact saturated_group g h _
  | false => simp only [Bool.false_eq_true, and_false, if_false, credited, State.onSru_sru]

theorem creditGroup_unanchored (h : s.smp.inForce = false) : (creditGroup g k shown s).mem = s.mem := by
  rw [creditGroup_eq]
  split
  · exact saturated_unanchored (s := credited g k shown s) h
  · rfl

theorem creditGroup_get_outside {a : Nat} (h : ¬AnchorByte s 0x128 0x130 a) :
    (creditGroup g k shown s).mem.get a = s.mem.get a := by
  rw [creditGroup_eq]
  split
  · exact saturated_get_outside (s := credited g k shown s) h
  · rfl

end

/-- What the report does to the accounts, by field. -/
theorem creditGroup_account_fields (g : Fin 8) (k : Nat) (shown i : Fin 64) (s : State) :
    let a := (creditGroup g k shown s).sru.accounts[g][i]
    a.delivered = (if i = shown then s.sru.accounts[g][i].delivered + BitVec.ofNat 64 k
      else s.sru.accounts[g][i].delivered) ∧ a.plays = s.sru.accounts[g][i].plays ∧
    a.logged = s.sru.accounts[g][i].logged ∧ a.unlogged = s.sru.accounts[g][i].unlogged ∧
    a.cursor = s.sru.accounts[g][i].cursor ∧
    a.balance = if i = shown then holdBalance (chargeSum s.sru g k shown) else gained s.sru g k i := by
  have haccount : (creditGroup g k shown s).sru.accounts[g] = creditAccounts s.sru g k shown :=
    (creditGroup_accounts g k shown s g).trans (if_pos rfl)
  dsimp only
  rw [haccount, creditAccounts_get]
  split <;> exact ⟨rfl, rfl, rfl, rfl, rfl, rfl⟩

/-- A credit that keeps every balance within the limits holds none. -/
theorem creditHeld_of_within {r : Sru} {g : Fin 8} {k : Nat} {shown : Fin 64}
    (hrange : ∀ i, -(2 ^ 47) ≤ r.accounts[g][i].balance ∧
      r.accounts[g][i].balance + (eligibleWeight r g i : Int) * k ≤ 2 ^ 47 - 1)
    (hcharge : -(2 ^ 47) ≤ r.accounts[g][shown].balance + (eligibleWeight r g shown : Int) * k - (weightSum r g : Int) * k) :
    creditHeld r g k shown = false := by
  have hnonneg : ∀ i, 0 ≤ (eligibleWeight r g i : Int) * k := fun i => Int.mul_nonneg (by omega) (by omega)
  have hwithin : ∀ i, eligible r g i = true → holdBalance (gainSum r g k i) = gainSum r g k i := by
    intro i hi
    have hi' := hrange i
    have hpos := hnonneg i
    rw [gainSum_of_eligible k hi, holdBalance_eq]
    omega
  have hgained : gained r g k shown = r.accounts[g][shown].balance + (eligibleWeight r g shown : Int) * k := by
    unfold gained
    split
    · next hi => rw [hwithin shown hi, gainSum_of_eligible k hi]
    · next hi => rw [eligibleWeight, if_neg hi, Nat.cast_zero, Int.zero_mul, Int.add_zero]
  rw [Bool.eq_false_iff, ne_eq, creditHeld_iff]
  rintro (⟨i, hi, hne⟩ | hne)
  · exact hne (hwithin i hi)
  · refine hne ?_
    have hshown := hrange shown
    have hsum : 0 ≤ (weightSum r g : Int) * k := Int.mul_nonneg (by omega) (by omega)
    rw [chargeSum, hgained, holdBalance_eq]
    omega

theorem creditGroup_of_held {g : Fin 8} {k : Nat} {shown : Fin 64} {s : State} (h : creditHeld s.sru g k shown = true) :
    creditGroup g k shown s = saturated g (credited g k shown s) := by
  rw [creditGroup_eq, if_pos h]

theorem creditGroup_of_not_held {g : Fin 8} {k : Nat} {shown : Fin 64} {s : State}
    (h : creditHeld s.sru g k shown = false) : creditGroup g k shown s = credited g k shown s := by
  rw [creditGroup_eq, if_neg (by rw [h]; decide)]

/-- The status byte of each group after a credit that set SATURATED. -/
theorem creditGroup_statusByte {g : Fin 8} {k : Nat} {shown : Fin 64} {s : State}
    (hheld : creditHeld s.sru g k shown = true) (hclear : s.sru.groups[g].saturated = false) (hforce : s.smp.inForce = true)
    (haligned : s.smp.anchor.toNat % 4096 = 0) (h : Fin 8) :
    ((creditGroup g k shown s).mem.get (s.smp.anchor.toNat + 0x128 + h.val)).getLsbD 0 = s.sru.groups[h].enabled ∧
    ((creditGroup g k shown s).mem.get (s.smp.anchor.toNat + 0x128 + h.val)).getLsbD 1 =
      (decide (h = g) || s.sru.groups[h].saturated) := by
  have hbyte : (creditGroup g k shown s).mem.get (s.smp.anchor.toNat + 0x128 + h.val) =
      (onGroup g (fun r => { r with saturated := true }) (credited g k shown s)).sru.groups[h].statusByte := by
    rw [creditGroup_of_held hheld, saturated_mem_of_clear (s := credited g k shown s) hclear]
    exact writeGroupStatus_byte (s := onGroup g (fun r => { r with saturated := true }) (credited g k shown s)) hforce
      haligned h
  rw [hbyte, (statusByte_bits _).1, (statusByte_bits _).2, onGroup_get]
  by_cases hg : h = g
  · subst hg
    simp [credited]
  · rw [if_neg hg, decide_eq_false hg]
    exact ⟨rfl, rfl⟩

/-- Settles O46. -/
theorem shownReportCreditsGroup : Obligations.ShownReportCreditsGroup := by
  refine ⟨fun g f report x s hopen hout hcurrent => ?_, fun g f report x s => groupReport_of_closing,
    fun g f report s h => groupReport_of_not h⟩
  intro k t weight sum
  have hk : litCount g x report = k := congrArg List.length (List.filter_congr fun e _ => by
    rw [Bool.and_comm, creditsSlot, ← Bool.and_assoc] <;> rfl)
  have ht : t = onGroup g (fun r => { r with openSlot := some (x.reported k) }) (creditedFor g k x s) := by
    rw [← hk]
    exact (groupReport_of_outstanding hopen hout).trans (if_neg (by rw [hcurrent]; decide))
  have hweight : weight = fun i => (eligibleWeight s.sru g i : Int) := by
    funext i
    show (if eligible s.sru g i then (s.sru.entries[i].weight : Int) else 0) = _
    unfold eligibleWeight
    split <;> rfl
  have hsum : sum = (weightSum s.sru g : Int) := (weightSum_eq s.sru g).symm
  clear_value k sum t weight
  subst ht hweight hsum
  refine ⟨congrArg RotationGroup.openSlot (onGroup_get_self g _ _), fun hclear => ?_, fun hlive => ?_, fun hforce => ?_,
    fun a ha => ?_, fun h hne => ?_, ?_⟩
  · unfold creditedFor
    rw [if_pos hclear]
    rfl
  · have hcredit : creditedFor g k x s = creditGroup g k x.entry s := if_neg (by rw [hlive]; decide)
    have hfields := fun i => creditGroup_account_fields g k x.entry i s
    have haccounts : (creditGroup g k x.entry s).sru.accounts[g] = creditAccounts s.sru g k x.entry :=
      (creditGroup_accounts g k x.entry s g).trans (if_pos rfl)
    have hflag := creditGroup_group g k x.entry s g
    have hquiet := fun h => creditGroup_of_not_held (g := g) (k := k) (shown := x.entry) (s := s) h
    have hloud := fun h => creditGroup_of_held (g := g) (k := k) (shown := x.entry) (s := s) h
    have hbytes := fun h => creditGroup_statusByte (g := g) (k := k) (shown := x.entry) (s := s) h
    have hwithin := creditHeld_of_within (r := s.sru) (g := g) (k := k) (shown := x.entry)
    have hbalances := fun h i => creditAccounts_balance (r := s.sru) (g := g) (k := k) (shown := x.entry) h i
    have htotal := fun h => creditAccounts_sum (r := s.sru) (g := g) (k := k) (shown := x.entry) h
    have hheldIff := creditHeld_iff_within s.sru g k x.entry
    rw [hcredit]
    simp only [onGroup_accounts, onGroup_get_self, onGroup_smp, onGroup_mem, ← gained_eq]
    generalize creditGroup g k x.entry s = v at *
    generalize creditHeld s.sru g k x.entry = held at *
    refine ⟨fun i => ?_, fun hrange hcharge => ?_, fun i => ?_, fun hheld => ?_, fun hheld => ?_⟩
    · obtain ⟨hdelivered, hplays, hlogged, hunlogged, hcursor, -⟩ := hfields i
      exact ⟨hdelivered, hplays, hlogged, hunlogged, hcursor⟩
    · have hheld := hwithin hrange hcharge
      refine ⟨fun i => ?_, ?_, ?_, ?_⟩
      · simp only [haccounts]
        exact hbalances hheld i
      · simp only [haccounts]
        exact htotal hheld
      · rw [hflag, hheld, if_neg (by simp)]
      · rw [hquiet hheld]
        rfl
    · obtain ⟨-, -, -, -, -, hbalance⟩ := hfields i
      exact hbalance
    · have htrue := hheldIff.mpr hheld
      refine ⟨by rw [hflag, htrue, if_pos ⟨rfl, rfl⟩], ?_, fun hset => ?_, fun hclear hforce haligned h =>
        hbytes htrue hclear hforce haligned h⟩
      · rw [hloud htrue, saturated_events]
        rfl
      · rw [hloud htrue, saturated_mem_of_set (s := credited g k x.entry s) hset]
        rfl
    · have hfalse : held = false := by
        rw [← Bool.not_eq_true]
        exact fun htrue => hheld (hheldIff.mp htrue)
      refine ⟨by rw [hflag, hfalse, if_neg (by simp)], ?_, ?_⟩ <;> rw [hquiet hfalse] <;> rfl
  · have hmem : (creditedFor g k x s).mem = s.mem := by
      unfold creditedFor
      split
      · rfl
      · exact creditGroup_unanchored g k x.entry s hforce
    exact hmem
  · have hget : (creditedFor g k x s).mem.get a = s.mem.get a := by
      unfold creditedFor
      split
      · rfl
      · exact creditGroup_get_outside g k x.entry s ha
    exact hget
  · rw [onGroup_get, if_neg hne]
    unfold creditedFor
    split
    · exact ⟨rfl, rfl⟩
    · exact ⟨(creditGroup_group g k x.entry s h).trans (if_neg fun hc => hne hc.1),
        (creditGroup_accounts g k x.entry s h).trans (if_neg hne)⟩
  · refine onGroup_then _ _ ?_ rfl
    unfold creditedFor
    split
    · exact .refl _ _
    · exact creditGroup_then _ _ _ (.refl _ _) rfl

end Sys2Proof.Machine
end

section
/-! SUPPORT. What a clip or a message that completes leaves in its origin's record, in the trigger entries and in memory
(R101, R119, R172, R174), and the WITHDRAW that brings an end about. -/

namespace Sys2Proof.Machine

variable {s t u : State}

/-! ## The completion of an origin -/

/-- The results that an origin gets. -/
def originCompleted (o : Origin) (epoch : Nat) (r : CueResult) (s : State) : State :=
  match o with
  | .cue i => completeCue epoch i r s
  | .trigger e => triggerResult e r.status r.framesShown r.litFrames s

theorem clipCompleted_eq (c : ClipSlot) (s : State) :
    clipCompleted c s = sourceEvent (.clipEnd c.tag) (originCompleted c.origin c.epoch c.result s) := by
  unfold clipCompleted originCompleted
  cases c.origin <;> rfl

theorem messageCompleted_eq (m : MessageSlot) (s : State) : messageCompleted m s = sourceEvent (.messageEnd m.tag)
    (originCompleted m.origin m.epoch (m.result (m.status.getD .completed) m.endFrame) s) := by
  unfold messageCompleted originCompleted completeOrigin
  cases m.origin <;> rfl

theorem RecordReads.of_get {i : Nat} {r : CueResult} {code : Word} (h : RecordReads s t i r code)
    (hget : ∀ a, cueOffset s i ≤ a → a < cueOffset s i + 64 → u.mem.get a = t.mem.get a) : RecordReads s u i r code := by
  have hword : ∀ x, cueOffset s i ≤ x → x + 4 ≤ cueOffset s i + 64 → u.mem.word x = t.mem.word x := fun x hlo hhi =>
    Memory.word_congr fun a hle hlt => hget a (by omega) (by omega)
  unfold RecordReads ResultReads at h ⊢
  rw [hword _ (by omega) (by omega), hword (cueOffset s i + 0x28) (by omega) (by omega),
    hword (cueOffset s i + 0x2C) (by omega) (by omega), hword (cueOffset s i + 0x30) (by omega) (by omega),
    hword (cueOffset s i + 0x34) (by omega) (by omega), hword (cueOffset s i + 0x38) (by omega) (by omega),
    hword (cueOffset s i + 0x3C) (by omega) (by omega)]
  exact h

/-- A record of a list that lies apart from the anchor holds no byte of it. -/
theorem record_apart_anchor {i a lo hi : Nat} (hapart : ListApart s) (hi' : i < s.ciu.listLength) (hhi : hi ≤ 4096)
    (hle : cueOffset s i ≤ a) (hlt : a < cueOffset s i + 64) : ¬AnchorByte s lo hi a := by
  unfold AnchorByte cueOffset at *
  have h : s.ciu.listOffset.toNat + 64 * s.ciu.listLength ≤ s.smp.anchor.toNat ∨
    s.smp.anchor.toNat + 4096 ≤ s.ciu.listOffset.toNat := hapart
  omega

theorem completeCue_of_epoch {epoch : Nat} (h : epoch = s.smp.anchorEpoch) (i : Nat) (r : CueResult) :
    completeCue epoch i r s = writeDone i r s := if_pos h.symm

theorem cueDone_bit : (1#10 <<< Event.cueDone.bit) = 0x001#10 := rfl

/-- What a completion leaves, as the statements say it. -/
theorem originCompleted_outcome {o : Origin} {epoch : Nat} (r : CueResult) (ev : TriggerSource)
    (hepoch : epoch = s.smp.anchorEpoch) (hforce : s.smp.inForce = true) (hinside : CueListInside s)
    (hapart : ListApart s) (hnot : s.etu.handling = false) :
    OriginCompleted s (sourceEvent ev (originCompleted o epoch r s)) o r ev := by
  cases o with
  | cue i =>
    have hu : originCompleted (.cue i) epoch r s = writeDone i r s := completeCue_of_epoch hepoch i r
    rw [hu]
    have hframe := writeDone_then i r (ChangesOnly.refl [.mem, .events] s) rfl
    have hsource := sourceEvent_then ev (ChangesOnly.refl [.etu, .mem] (writeDone i r s)) rfl
    have hetu : (writeDone i r s).etu = s.etu := hframe .etu rfl
    refine ⟨fun e => ?_, fun j hj hlt => ?_, fun e h => nomatch h⟩
    · rw [sourceEvent_entries ev (by rw [hetu]; exact hnot), hframe.dev rfl, hetu]
      rfl
    · cases hj
      obtain ⟨hreads, houtside, hevents⟩ :=
        (if_pos (⟨hforce, hlt⟩ : s.smp.inForce = true ∧ i < s.ciu.listLength)).mp (writeDone_recordWritten hinside r)
      have hanchor : (writeDone i r s).smp.anchor = s.smp.anchor := hframe.anchor rfl
      have hkeeps : ∀ a, ¬AnchorByte s 0x180 0x280 a →
          (sourceEvent ev (writeDone i r s)).mem.get a = (writeDone i r s).mem.get a := fun a ha =>
        sourceEvent_get_outside ev (by unfold AnchorByte; rw [hanchor]; exact ha)
      refine ⟨hreads.of_get fun a hle hlt' => hkeeps a (record_apart_anchor hapart hlt (by decide) hle hlt'),
        Eq.trans (hsource .events rfl) hevents, fun a hresult ha => (hkeeps a ha).trans (houtside a hresult)⟩
  | trigger e =>
    have hframe := triggerResult_then e r.status r.framesShown r.litFrames (ChangesOnly.refl [.etu, .mem] s) rfl
    have hsource := sourceEvent_then ev (ChangesOnly.refl [.etu, .mem]
      (triggerResult e r.status r.framesShown r.litFrames s)) rfl
    have hanchor : (triggerResult e r.status r.framesShown r.litFrames s).smp.anchor = s.smp.anchor := hframe.anchor rfl
    have hentries : ∀ x : Fin 8, (triggerResult e r.status r.framesShown r.litFrames s).etu.entries[x] =
        if x = e then { s.etu.entries[e] with report := { s.etu.entries[e].report with
          lastStatus := r.status.code, lastShown := r.framesShown, lastLit := r.litFrames } }
        else s.etu.entries[x] := fun x => by
      rw [triggerResult, writeReport_etu, onTrigger_get]
    have hhandling : (triggerResult e r.status r.framesShown r.litFrames s).etu.handling = false := by
      rw [triggerResult, writeReport_etu]
      exact hnot
    refine ⟨fun x => ?_, fun i h => (nomatch h), fun _ _ => ⟨?_, fun a ha => ?_⟩⟩
    · have hu : originCompleted (.trigger e) epoch r s = triggerResult e r.status r.framesShown r.litFrames s := rfl
      rw [hu, sourceEvent_entries ev hhandling, hframe.dev rfl, hentries]
      by_cases hx : x = e
      · subst hx
        rw [if_pos rfl, if_pos rfl]
      · rw [if_neg hx, if_neg fun h => hx (by cases h; rfl)]
    · exact Eq.trans (hsource .events rfl) (hframe .events rfl)
    · refine (sourceEvent_get_outside ev (s := triggerResult e r.status r.framesShown r.litFrames s)
        (by unfold AnchorByte; rw [hanchor]; exact ha)).trans ?_
      exact writeReport_get_outside (s := onTrigger e _ s) e ha

/-- The completion of a clip whose record stands under the anchor in force. -/
theorem completeClip_outcome {k : Fin 8} (hepoch : s.cle.slots[k].epoch = s.smp.anchorEpoch)
    (hforce : s.smp.inForce = true) (hinside : CueListInside s) (hapart : ListApart s) (hnot : s.etu.handling = false) :
    OriginCompleted s (completeClip k s) s.cle.slots[k].origin s.cle.slots[k].result (.clipEnd s.cle.slots[k].tag) := by
  have h := originCompleted_outcome s.cle.slots[k].result (.clipEnd s.cle.slots[k].tag) (o := s.cle.slots[k].origin)
    hepoch hforce hinside hapart hnot
  rw [← clipCompleted_eq] at h
  exact h

theorem completeMessage_outcome {k : Fin 8} (hepoch : s.msu.slots[k].epoch = s.smp.anchorEpoch)
    (hforce : s.smp.inForce = true) (hinside : CueListInside s) (hapart : ListApart s) (hnot : s.etu.handling = false) :
    OriginCompleted s (completeMessage k s) s.msu.slots[k].origin
      (s.msu.slots[k].result (s.msu.slots[k].status.getD .completed) s.msu.slots[k].endFrame)
      (.messageEnd s.msu.slots[k].tag) := by
  have h := originCompleted_outcome (s.msu.slots[k].result (s.msu.slots[k].status.getD .completed) s.msu.slots[k].endFrame)
    (.messageEnd s.msu.slots[k].tag) (o := s.msu.slots[k].origin) hepoch hforce hinside hapart hnot
  rw [← messageCompleted_eq] at h
  exact h

/-! ## A WITHDRAW of a clip or a message -/

theorem find?_finRange {n : Nat} {p : Fin n → Bool} {k : Fin n} (hk : p k = true) (hfirst : ∀ j, j < k → p j = false) :
    (List.finRange n).find? p = some k := by
  rw [List.find?_eq_some_iff_getElem]
  refine ⟨hk, k.val, by simp, by simp, fun j hj => ?_⟩
  rw [List.getElem_finRange]
  simp [hfirst ⟨j, _⟩ hj]

theorem clipWithTag_of_first {c : Cle} {tag : Tag} {k : Fin 8} (hw : c.slots[k].working = true)
    (htag : c.slots[k].tag = tag) (hfirst : ∀ j : Fin 8, j < k → c.slots[j].working = true → c.slots[j].tag ≠ tag) :
    clipWithTag c tag = some k :=
  find?_finRange (by rw [hw, htag, beq_self_eq_true]; rfl) fun j hj => by
    cases hwj : c.slots[j].working with
    | false => rfl
    | true => exact beq_eq_false_iff_ne.mpr (hfirst j hj hwj)

theorem clipWithTag_of_none {c : Cle} {tag : Tag} (h : ∀ k : Fin 8, c.slots[k].working = true → c.slots[k].tag ≠ tag) :
    clipWithTag c tag = none := by
  unfold clipWithTag
  rw [List.find?_eq_none]
  intro k _ hc
  obtain ⟨hw, htag⟩ := (Bool.and_eq_true _ _).mp hc
  exact h k hw (beq_iff_eq.mp htag)

theorem messageWithTag_of_first {m : Msu} {tag : Tag} {k : Fin 8} (hw : m.slots[k].working = true)
    (htag : m.slots[k].tag = tag) (hfirst : ∀ j : Fin 8, j < k → m.slots[j].working = true → m.slots[j].tag ≠ tag) :
    messageWithTag m tag = some k :=
  find?_finRange (by rw [hw, htag, beq_self_eq_true]; rfl) fun j hj => by
    cases hwj : m.slots[j].working with
    | false => rfl
    | true => exact beq_eq_false_iff_ne.mpr (hfirst j hj hwj)

theorem messageWithTag_of_none {m : Msu} {tag : Tag}
    (h : ∀ k : Fin 8, m.slots[k].working = true → m.slots[k].tag ≠ tag) : messageWithTag m tag = none := by
  unfold messageWithTag
  rw [List.find?_eq_none]
  intro k _ hc
  obtain ⟨hw, htag⟩ := (Bool.and_eq_true _ _).mp hc
  exact h k hw (beq_iff_eq.mp htag)

/-- What the owner makes of a WITHDRAW given as a command. -/
def withdrawAct (target entry : BitVec 8) (tag : Tag) (s : State) : Taking × State :=
  let r := takeWithdraw target entry tag RunSlots.none s
  (r.1, r.2.2)

theorem exec_withdraw (take : CueTake) (target entry : BitVec 8) (tag : Tag) (s : State) :
    exec (.withdraw take target entry tag) s = .next (takeAndWrite take (withdrawAct target entry tag) s) := rfl

theorem withdrawAct_clip {k : Fin 8} {tag : Tag} (h : clipWithTag s.cle tag = some k) (entry : BitVec 8) :
    withdrawAct 1 entry tag s = (.done .ok, endClip .withdrawn k s) := by
  change (foundTaking (withdrawClip tag RunSlots.none s).1, (withdrawClip tag RunSlots.none s).2.2) = _
  rw [withdrawClip, h]
  rfl

theorem withdrawAct_clip_none {tag : Tag} (h : clipWithTag s.cle tag = none) (entry : BitVec 8) :
    withdrawAct 1 entry tag s = (.refused .notFound 0, s) := by
  change (foundTaking (withdrawClip tag RunSlots.none s).1, (withdrawClip tag RunSlots.none s).2.2) = _
  rw [withdrawClip, h]
  rfl

theorem withdrawAct_message {k : Fin 8} {tag : Tag} (h : messageWithTag s.msu tag = some k) (entry : BitVec 8) :
    withdrawAct 2 entry tag s = (.done .ok, endMessage .withdrawn k s) := by
  change (foundTaking (withdrawMessage tag RunSlots.none s).1, (withdrawMessage tag RunSlots.none s).2.2) = _
  rw [withdrawMessage, h]
  rfl

theorem withdrawAct_message_none {tag : Tag} (h : messageWithTag s.msu tag = none) (entry : BitVec 8) :
    withdrawAct 2 entry tag s = (.refused .notFound 0, s) := by
  change (foundTaking (withdrawMessage tag RunSlots.none s).1, (withdrawMessage tag RunSlots.none s).2.2) = _
  rw [withdrawMessage, h]
  rfl

theorem withdrawAct_trigger (entry : BitVec 8) (tag : Tag) (s : State) :
    withdrawAct 3 entry tag s = withdrawTrigger entry s := rfl

theorem withdrawAct_bad {target : BitVec 8} (h : target.toNat = 0 ∨ 3 < target.toNat) (entry : BitVec 8) (tag : Tag)
    (s : State) : withdrawAct target entry tag s = (.refused .badValue 0, s) := by
  unfold withdrawAct takeWithdraw
  split
  · omega
  · omega
  · omega
  · rfl

theorem endClip_claimsAt {status : Status} {k : Fin 8} (h : s.cle.slots[k].working = true) (z : Fin 16) :
    claimsAt (endClip status k s).zar z = (claimsAt s.zar z).filter fun c => c.who != .clip k := by
  rw [endClip_zar, h]
  exact releaseClaims_claimsAt (.clip k) s z

/-- Settles O28. -/
theorem withdrawnClipCompletes : Obligations.WithdrawnClipCompletes := by
  intro take entry k j s hinside hw hfirst hout horigin hepoch hforce hdev hnot hi hj hij hapart
  have hact := withdrawAct_clip (clipWithTag_of_first hw rfl hfirst) entry
  have hframe : ChangesOnly [.cle, .mem, .events, .etu, .zar] s (endClip .withdrawn k s) :=
    endClip_then _ _ (.refl _ _) rfl
  have hwritten := takeAndWrite_frame take (withdrawAct 1 entry s.cle.slots[k].tag) s
  have hstands := takeAndWrite_standsDone (take := take) (act := withdrawAct 1 entry s.cle.slots[k].tag) (status := .ok)
    hinside (by rw [hact]; exact .inl rfl) (by rw [hact]; exact hframe.mono rfl) hforce hi
  have hget : ∀ a, ¬ResultByte s take.index a →
      (takeAndWrite take (withdrawAct 1 entry s.cle.slots[k].tag) s).mem.get a = (endClip .withdrawn k s).mem.get a :=
    fun a ha => by
      rw [takeAndWrite_get_outside (by rw [hact]; exact hframe .ciu rfl) ha, hact]
  rw [hact] at hwritten
  refine ⟨_, exec_withdraw _ _ _ _ _, ?_⟩
  generalize takeAndWrite take (withdrawAct 1 entry s.cle.slots[k].tag) s = t at hwritten hstands hget
  have hended := endClip_of_shown (status := .withdrawn) hw hout
  have hslot : (clipEnding .withdrawn k s).cle.slots[k] = s.cle.slots[k].endedAt s.ftu.frame .withdrawn := by
    rw [clipEnding_cle]
    exact (upd_get _ _ _ _).trans (if_pos rfl)
  have houtcome := completeClip_outcome (s := clipEnding .withdrawn k s) (k := k) (by rw [hslot]; exact hepoch) hforce
    hinside hapart hnot
  rw [← hended, hslot] at houtcome
  obtain ⟨hentries, hrecord, -⟩ := houtcome
  obtain ⟨hreads, -, houtside⟩ := hrecord j horigin hj
  have hsame : t.cle = (endClip .withdrawn k s).cle := hwritten .cle rfl
  have hresult : ∀ a, cueOffset s j ≤ a → a < cueOffset s j + 64 → ¬ResultByte s take.index a := by
    intro a hle hlt
    unfold ResultByte cueOffset at *
    omega
  refine ⟨?_, fun l hl => ?_, fun z => ?_, hstands.1, ?_, fun e => ?_, (hframe.mono rfl).trans (hwritten.mono rfl),
    fun a ha hja hanchor => ?_⟩
  · rw [hsame, endClip_slot, if_pos rfl, ClipSlot.ended, if_pos hw, if_pos hout]
  · rw [hsame, endClip_slot, if_neg hl]
  · rw [show t.zar = (endClip .withdrawn k s).zar from hwritten .zar rfl]
    exact endClip_claimsAt hw z
  · exact RecordReads.of_get (t := endClip .withdrawn k s) hreads fun a hle hlt => hget a (hresult a hle hlt)
  · rw [show t.etu = (endClip .withdrawn k s).etu from hwritten .etu rfl, hentries e]
    have hrunning : ((clipEnding .withdrawn k s).smp.dev == .running) = true := beq_iff_eq.mpr hdev
    have hcue : ¬((s.cle.slots[k].endedAt s.ftu.frame .withdrawn).origin = .trigger e) := fun h =>
      nomatch horigin.symm.trans h
    rw [hrunning, if_neg hcue]
    rfl
  · rw [hget a ha]
    exact houtside a hja hanchor

/-- Settles O27. -/
theorem withdrawEndsItsTarget : Obligations.WithdrawEndsItsTarget := by
  intro take target entry tag s hinside
  refine ⟨_, exec_withdraw _ _ _ _ _, fun h => ?_, fun h => ?_, fun k f htarget hw htag hfirst hout => ?_,
    fun k f htarget hw htag hfirst hout => ?_, fun e htarget hentry harmed => ?_⟩
  · refine takeAndWrite_refused hinside ?_
    obtain h | h | ⟨rfl, h⟩ := h
    · exact withdrawAct_bad (.inl h) entry tag s
    · exact withdrawAct_bad (.inr h) entry tag s
    · rw [withdrawAct_trigger, withdrawTrigger, index_of_le h]
  · refine takeAndWrite_refused hinside ?_
    obtain ⟨rfl, h⟩ | ⟨rfl, h⟩ | ⟨rfl, e, he, h⟩ := h
    · exact withdrawAct_clip_none (clipWithTag_of_none h) entry
    · exact withdrawAct_message_none (messageWithTag_of_none h) entry
    · rw [withdrawAct_trigger, withdrawTrigger, index_of_val he]
      dsimp only
      rw [h]
      rfl
  · subst htarget
    have hact := withdrawAct_clip (clipWithTag_of_first hw htag hfirst) entry
    rw [endClip_of_outstanding hw hout] at hact
    have hframe : ChangesOnly [.cle, .zar] s (clipEnding .withdrawn k s) := clipEnding_frame _ _ (.refl _ _) rfl
    have hwritten := takeAndWrite_frame take (withdrawAct 1 entry tag) s
    have hdone := takeAndWrite_takenDone (take := take) (act := withdrawAct 1 entry tag) (status := .ok) hinside
      (by rw [hact]; exact .inl rfl) (by rw [hact]; exact hframe.mono rfl)
    rw [hact] at hwritten
    refine ⟨hdone, hwritten .cle rfl, fun z => ?_, ?_, ?_, (hframe.mono rfl).trans (hwritten.mono rfl)⟩
    all_goals rw [show (takeAndWrite take (withdrawAct 1 entry tag) s).zar = (clipEnding .withdrawn k s).zar from
      hwritten .zar rfl]
    · exact releaseClaims_claimsAt (.clip k) s z
    · rfl
    · rfl
  · subst htarget
    have hact := withdrawAct_message (messageWithTag_of_first hw htag hfirst) entry
    rw [endMessage, endMessageAt_of_outstanding hw hout] at hact
    have hframe : ChangesOnly [.msu, .zar] s (messageEnding .withdrawn s.ftu.frame k s) :=
      onMessage_then _ _ (releaseClaims_then _ (.refl _ _) rfl) rfl
    have hwritten := takeAndWrite_frame take (withdrawAct 2 entry tag) s
    have hdone := takeAndWrite_takenDone (take := take) (act := withdrawAct 2 entry tag) (status := .ok) hinside
      (by rw [hact]; exact .inl rfl) (by rw [hact]; exact hframe.mono rfl)
    rw [hact] at hwritten
    refine ⟨hdone, hwritten .msu rfl, fun z => ?_, (hframe.mono rfl).trans (hwritten.mono rfl)⟩
    rw [show (takeAndWrite take (withdrawAct 2 entry tag) s).zar = (messageEnding .withdrawn s.ftu.frame k s).zar from
      hwritten .zar rfl]
    exact releaseClaims_claimsAt (.message k) s z
  · subst htarget
    have hact : withdrawAct 3 entry tag s =
        (.done .ok, onTrigger e (fun x => { x with armed := false, pending := false }) s) := by
      rw [withdrawAct_trigger, withdrawTrigger, index_of_val hentry]
      dsimp only
      rw [if_pos harmed, disarmTrigger, if_pos harmed]
    have hframe : ChangesOnly [.etu] s (onTrigger e (fun x => { x with armed := false, pending := false }) s) :=
      onTrigger_then _ _ (.refl _ _) rfl
    have hwritten := takeAndWrite_frame take (withdrawAct 3 entry tag) s
    have hdone := takeAndWrite_takenDone (take := take) (act := withdrawAct 3 entry tag) (status := .ok) hinside
      (by rw [hact]; exact .inl rfl) (by rw [hact]; exact hframe.mono rfl)
    rw [hact] at hwritten
    exact ⟨hdone, hwritten .etu rfl, (hframe.mono rfl).trans (hwritten.mono rfl)⟩

end Sys2Proof.Machine
end

section
/-! SUPPORT. The shown report of a clip or a message, slot by slot (R80, R100, R118), and what the requests of the next frame
leave of its credits. -/

namespace Sys2Proof.Machine

variable {s t : State}

/-! ## One pass in which each element settles what is its own -/

/-- Where one element's act settles what it changes, and no other element's act changes it, a pass that holds the element leaves
it settled, however often the element stands in the list. -/
theorem inFreeOrder_settles {ι α : Type} {x : ι} {proj : State → α} {h : α → α} {f : ι → State → State}
    (hx : ∀ t, proj (f x t) = h (proj t)) (hother : ∀ y t, y ≠ x → proj (f y t) = proj t) (hidem : ∀ a, h (h a) = h a)
    (hfree : ∀ t, proj t.nextFree = proj t) {l : List ι} (hl : x ∈ l) (s : State) :
    proj (inFreeOrder l f s) = h (proj s) := by
  have hinOrder : ∀ (l : List ι) (s : State), x ∈ l → proj (inOrder l f s) = h (proj s) := by
    intro l
    induction l with
    | nil => exact fun s hl => nomatch hl
    | cons y l ih =>
      intro s hl
      have hstep : inOrder (y :: l) f s = inOrder l f (f y s) := rfl
      rw [hstep]
      by_cases hy : y = x
      · subst hy
        refine inOrder_induct (P := fun t => proj t = h (proj s)) (hx s) fun z _ t ht => ?_
        by_cases hz : z = y
        · rw [hz, hx, ht, hidem]
        · rw [hother z t hz, ht]
      · rw [ih (f y s) ((List.mem_cons.mp hl).resolve_left (Ne.symm hy)), hother y s hy]
  have hpass : inFreeOrder l f s = inOrder (freeOrder s.free l) f s.nextFree := rfl
  rw [hpass, hinOrder _ _ ((freeOrder_mem _ _ _).mpr hl), hfree]

theorem completeClip_slot (k j : Fin 8) (s : State) :
    (completeClip k s).cle.slots[j] = if j = k then .cleared else s.cle.slots[j] := by
  rw [completeClip_cle]
  exact upd_get _ _ _ _

theorem completeMessage_slot (k j : Fin 8) (s : State) :
    (completeMessage k s).msu.slots[j] = if j = k then .cleared else s.msu.slots[j] := by
  rw [completeMessage_msu]
  exact upd_get _ _ _ _

/-! ## The report of a clip -/

/-- A slot after its report has credited it (R100). -/
def ClipSlot.credited (k : Fin 8) (f : Frame) (report : List ReportEntry) (c : ClipSlot) : ClipSlot :=
  if (report.filter (creditsClip k)).isEmpty then { c with outstanding := none }
  else { c with
    outstanding := none, framesShown := saturate (c.framesShown + 1),
    litFrames := saturate (c.litFrames + ((report.filter (creditsClip k)).filter ReportEntry.lit).length),
    firstShown := some (c.firstShown.getD f) }

/-- What a report makes of a slot. -/
def ClipSlot.reported (k : Fin 8) (f : Frame) (report : List ReportEntry) (c : ClipSlot) : ClipSlot :=
  if c.state ≠ .idle ∧ c.outstanding = some f then (if c.state = .ending then .cleared else c.credited k f report) else c

section
variable {k : Fin 8} {f : Frame} {report : List ReportEntry}

theorem clip_credited_outstanding (c : ClipSlot) : (c.credited k f report).outstanding = none := by
  unfold ClipSlot.credited
  split <;> rfl

theorem clip_reported_idem (c : ClipSlot) : (c.reported k f report).reported k f report = c.reported k f report := by
  by_cases h : c.state ≠ .idle ∧ c.outstanding = some f
  · refine if_neg fun hc => ?_
    have hnone : (c.reported k f report).outstanding = none := by
      rw [ClipSlot.reported, if_pos h]
      split
      · rfl
      · exact clip_credited_outstanding c
    exact nomatch hnone.symm.trans hc.2
  · rw [show c.reported k f report = c from if_neg h]
    exact if_neg h

theorem clipReport_of_outstanding (hstate : s.cle.slots[k].state ≠ .idle) (hout : s.cle.slots[k].outstanding = some f) :
    clipReport k f report s = if s.cle.slots[k].state = .ending then
      completeClip k (onClip k (ClipSlot.credited k f report) s) else onClip k (ClipSlot.credited k f report) s :=
  if_pos ⟨hstate, hout⟩

theorem clipReport_slot (j : Fin 8) : (clipReport k f report s).cle.slots[j] =
    if j = k then s.cle.slots[k].reported k f report else s.cle.slots[j] := by
  by_cases h : s.cle.slots[k].state ≠ .idle ∧ s.cle.slots[k].outstanding = some f
  · rw [clipReport_of_outstanding h.1 h.2, ClipSlot.reported, if_pos h]
    split
    · refine (completeClip_slot k j _).trans ?_
      split
      · rfl
      · next hj => rw [onClip_get, if_neg hj]
    · exact onClip_get _ _ _ _
  · rw [show clipReport k f report s = s from if_neg h, ClipSlot.reported, if_neg h]
    split
    · next hj => rw [hj]
    · rfl

end

/-! ## The report of a message -/

/-- A slot after its report has credited it (R118). -/
def MessageSlot.credited (k : Fin 8) (f : Frame) (report : List ReportEntry) (m : MessageSlot) : MessageSlot :=
  if (report.filter (creditsMessage k)).isEmpty then { m with outstanding := none }
  else { m with
    outstanding := none, framesShown := saturate (m.framesShown + 1),
    litFrames := saturate (m.litFrames + ((report.filter (creditsMessage k)).filter ReportEntry.lit).length),
    firstShown := some (m.firstShown.getD f) }

/-- What a report makes of a slot. -/
def MessageSlot.reported (k : Fin 8) (f : Frame) (report : List ReportEntry) (m : MessageSlot) : MessageSlot :=
  if m.state ≠ .idle ∧ m.outstanding = some f then (if m.state = .ending then .cleared else m.credited k f report) else m

section
variable {k : Fin 8} {f : Frame} {report : List ReportEntry}

theorem message_credited_outstanding (m : MessageSlot) : (m.credited k f report).outstanding = none := by
  unfold MessageSlot.credited
  split <;> rfl

theorem message_reported_idem (m : MessageSlot) :
    (m.reported k f report).reported k f report = m.reported k f report := by
  by_cases h : m.state ≠ .idle ∧ m.outstanding = some f
  · refine if_neg fun hc => ?_
    have hnone : (m.reported k f report).outstanding = none := by
      rw [MessageSlot.reported, if_pos h]
      split
      · rfl
      · exact message_credited_outstanding m
    exact nomatch hnone.symm.trans hc.2
  · rw [show m.reported k f report = m from if_neg h]
    exact if_neg h

theorem messageReport_of_outstanding (hstate : s.msu.slots[k].state ≠ .idle)
    (hout : s.msu.slots[k].outstanding = some f) : messageReport k f report s = if s.msu.slots[k].state = .ending then
      completeMessage k (onMessage k (MessageSlot.credited k f report) s)
      else onMessage k (MessageSlot.credited k f report) s :=
  if_pos ⟨hstate, hout⟩

theorem messageReport_slot (j : Fin 8) : (messageReport k f report s).msu.slots[j] =
    if j = k then s.msu.slots[k].reported k f report else s.msu.slots[j] := by
  by_cases h : s.msu.slots[k].state ≠ .idle ∧ s.msu.slots[k].outstanding = some f
  · rw [messageReport_of_outstanding h.1 h.2, MessageSlot.reported, if_pos h]
    split
    · refine (completeMessage_slot k j _).trans ?_
      split
      · rfl
      · next hj => rw [onMessage_get, if_neg hj]
    · exact onMessage_get _ _ _ _
  · rw [show messageReport k f report s = s from if_neg h, MessageSlot.reported, if_neg h]
    split
    · next hj => rw [hj]
    · rfl

end

/-! ## The reports of the ended frame -/

theorem closeLinks_clo (s : State) :
    (closeLinks s).clo = { s.clo with links := s.clo.links.map PanelLink.close } := by
  unfold closeLinks reportLinks
  dsimp only
  split
  · rw [raise_clo, anchorWrite_clo]
    rfl
  · rfl

theorem closeLinks_frame (s : State) : ChangesOnly [.clo, .mem, .events] s (closeLinks s) :=
  closeLinks_then (.refl _ _) rfl

theorem issueReport_clip {k : Fin 8} {f : Frame} {report : List ReportEntry} {who : Claimant} (h : who ≠ .clip k) :
    (issueReport f report who t).cle.slots[k] = t.cle.slots[k] := by
  cases who with
  | clip j => exact (clipReport_slot k).trans (if_neg fun hj => h (by rw [hj]))
  | message j =>
    have hcle := messageReport_then j f report (ChangesOnly.refl [.msu, .mem, .events, .etu] t) rfl .cle rfl
    exact congrArg (fun c : Cle => c.slots[k]) hcle
  | group g =>
    have hcle := groupReport_then g f report (ChangesOnly.refl [.sru, .plw, .events, .mem, .free] t) rfl .cle rfl
    exact congrArg (fun c : Cle => c.slots[k]) hcle

theorem issueReport_message {k : Fin 8} {f : Frame} {report : List ReportEntry} {who : Claimant} (h : who ≠ .message k) :
    (issueReport f report who t).msu.slots[k] = t.msu.slots[k] := by
  cases who with
  | clip j =>
    have hmsu := clipReport_then j f report (ChangesOnly.refl [.cle, .mem, .events, .etu] t) rfl .msu rfl
    exact congrArg (fun m : Msu => m.slots[k]) hmsu
  | message j => exact (messageReport_slot k).trans (if_neg fun hj => h (by rw [hj]))
  | group g =>
    have hmsu := groupReport_then g f report (ChangesOnly.refl [.sru, .plw, .events, .mem, .free] t) rfl .msu rfl
    exact congrArg (fun m : Msu => m.slots[k]) hmsu

/-- The report that the ended frame's owners get. -/
def closedReport (w : FrameWork) (s : State) : List ReportEntry := reportFor w (s.clo.links.map PanelLink.close)

theorem closeAndReport_eq {w : FrameWork} (h : s.clo.work = some w) : closeAndReport s =
    (inFreeOrder s.clo.asked (issueReport w.number (closedReport w s)) (closeLinks s)).onClo fun c =>
      { c with asked := [] } := by
  have hclo := closeLinks_clo s
  have hwork : (closeLinks s).clo.work = some w := by rw [hclo]; exact h
  unfold closeAndReport
  dsimp only
  rw [hwork]
  dsimp only
  rw [hclo]
  rfl

section
variable {k : Fin 8} {w : FrameWork}

theorem closeAndReport_clip (hwork : s.clo.work = some w) (hasked : Claimant.clip k ∈ s.clo.asked) :
    (closeAndReport s).cle.slots[k] = s.cle.slots[k].reported k w.number (closedReport w s) := by
  rw [closeAndReport_eq hwork]
  have hslot := inFreeOrder_settles (x := Claimant.clip k) (proj := fun t => t.cle.slots[k])
    (h := ClipSlot.reported k w.number (closedReport w s)) (f := issueReport w.number (closedReport w s))
    (fun t => (clipReport_slot k).trans (if_pos rfl)) (fun y t hy => issueReport_clip hy) clip_reported_idem (fun _ => rfl)
    hasked (closeLinks s)
  refine hslot.trans ?_
  rw [show (closeLinks s).cle = s.cle from closeLinks_frame s .cle rfl]

theorem closeAndReport_message (hwork : s.clo.work = some w) (hasked : Claimant.message k ∈ s.clo.asked) :
    (closeAndReport s).msu.slots[k] = s.msu.slots[k].reported k w.number (closedReport w s) := by
  rw [closeAndReport_eq hwork]
  have hslot := inFreeOrder_settles (x := Claimant.message k) (proj := fun t => t.msu.slots[k])
    (h := MessageSlot.reported k w.number (closedReport w s)) (f := issueReport w.number (closedReport w s))
    (fun t => (messageReport_slot k).trans (if_pos rfl)) (fun y t hy => issueReport_message hy) message_reported_idem
    (fun _ => rfl) hasked (closeLinks s)
  refine hslot.trans ?_
  rw [show (closeLinks s).msu = s.msu from closeLinks_frame s .msu rfl]

end

/-! ## What a content request leaves of the credits -/

/-- A slot whose clip stands where it stood, or is exhausted there (R97, R98). -/
def ClipSlot.spent (frame : Frame) (c : ClipSlot) : ClipSlot :=
  if c.exhausted then (if c.holdLast then { c with state := .held } else c.ended frame .completed) else c

/-- What a content request makes of a slot. -/
def ClipSlot.answered (f frame : Frame) (zones : ZoneMask) (c : ClipSlot) : ClipSlot :=
  if c.working && (c.holdings &&& zones) != 0 then
    (if c.state = .playing then ({ c with outstanding := some f } : ClipSlot).advance.spent frame
     else { c with outstanding := some f })
  else c

theorem exhaustClip_slot (k j : Fin 8) (s : State) : (exhaustClip k s).cle.slots[j] =
    if j = k then s.cle.slots[k].spent s.ftu.frame else s.cle.slots[j] := by
  unfold exhaustClip ClipSlot.spent
  split
  · split
    · exact onClip_get _ _ _ _
    · exact endClip_slot _ _ _ _
  · split
    · next h => rw [h]
    · rfl

theorem clipRequest_slot (k j : Fin 8) (f : Frame) (zones : ZoneMask) (s : State) :
    (clipRequest k f zones s).2.cle.slots[j] =
      if j = k then s.cle.slots[k].answered f s.ftu.frame zones else s.cle.slots[j] := by
  unfold clipRequest ClipSlot.answered
  dsimp only
  split
  · split
    · rw [exhaustClip_slot, onClip_onClip, onClip_get, onClip_get, if_pos rfl]
      split
      · rfl
      · rfl
    · exact onClip_get _ _ _ _
  · split
    · next h => rw [h]
    · rfl

/-- What a content request makes of a slot (R114). -/
def MessageSlot.answered (f : Frame) (zones : ZoneMask) (m : MessageSlot) : MessageSlot :=
  if (m.afterCount f).working && ((m.afterCount f).holdings &&& zones) != 0 then
    { m.afterCount f with outstanding := some f }
  else m.afterCount f

theorem messageRequest_slot (k j : Fin 8) (f : Frame) (zones : ZoneMask) (s : State) :
    (messageRequest k f zones s).2.msu.slots[j] =
      if j = k then s.msu.slots[k].answered f zones else s.msu.slots[j] := by
  have hslot : (countMessage f k s).msu.slots[k] = s.msu.slots[k].afterCount f :=
    (countMessage_slot _ _ _ _).trans (if_pos rfl)
  unfold messageRequest MessageSlot.answered
  dsimp only
  rw [hslot]
  split
  · refine (onMessage_get _ _ _ _).trans ?_
    split
    · rw [hslot]
    · next hj => exact (countMessage_slot _ _ _ _).trans (if_neg hj)
  · exact countMessage_slot _ _ _ _

/-- What the reports have credited to a slot. -/
def ClipSlot.credits (c : ClipSlot) : Nat × Nat × Option Frame := (c.framesShown, c.litFrames, c.firstShown)

def MessageSlot.credits (m : MessageSlot) : Nat × Nat × Option Frame := (m.framesShown, m.litFrames, m.firstShown)

theorem spent_credits {c : ClipSlot} {f frame : Frame} (h : c.outstanding = some f) :
    (c.spent frame).credits = c.credits := by
  unfold ClipSlot.spent
  split
  · split
    · rfl
    · unfold ClipSlot.ended
      split
      · rw [if_neg (by rw [h]; exact fun h => nomatch h)]
        rfl
      · rfl
  · rfl

theorem clip_answered_credits (f frame : Frame) (zones : ZoneMask) (c : ClipSlot) :
    (c.answered f frame zones).credits = c.credits := by
  unfold ClipSlot.answered
  split
  · split
    · rw [spent_credits (f := f) (by rw [advance_eq]), advance_eq]
      rfl
    · rfl
  · rfl

theorem clip_answered_of_not_working {f frame : Frame} {zones : ZoneMask} {c : ClipSlot} (h : c.working = false) :
    c.answered f frame zones = c := if_neg (by rw [h, Bool.false_and]; decide)

/-- A slot that this frame's count does not bring to its end. -/
def MessageSlot.Lasts (f : Frame) (m : MessageSlot) : Prop := m.counted = f ∨ ∀ d, m.duration = some d → 2 ≤ d

theorem afterCount_of_lasts {m : MessageSlot} {f : Frame} (h : m.Lasts f) :
    m.afterCount f = m ∨ m.afterCount f = m.next f := by
  unfold MessageSlot.afterCount
  split
  · next hc =>
    obtain ⟨-, hcounted⟩ := (Bool.and_eq_true _ _).mp hc
    exact .inr (if_neg (by rw [runsOut_eq_false (h.resolve_left (bne_iff_ne.mp hcounted))]; decide))
  · exact .inl rfl

theorem message_answered_of_lasts {m : MessageSlot} {f : Frame} {zones : ZoneMask} (h : m.Lasts f) :
    (m.answered f zones).credits = m.credits ∧ (m.answered f zones).Lasts f := by
  have hcount : (m.afterCount f).credits = m.credits ∧ (m.afterCount f).Lasts f := by
    obtain hn | hn := afterCount_of_lasts h
    · rw [hn]
      exact ⟨rfl, h⟩
    · rw [hn, (next_countedAs f m).1]
      exact ⟨rfl, .inl rfl⟩
  unfold MessageSlot.answered
  split
  · exact hcount
  · exact hcount

theorem message_answered_of_idle {m : MessageSlot} {f : Frame} {zones : ZoneMask} (h : m.working = false) :
    m.answered f zones = m := by
  have hcount : m.afterCount f = m := if_neg (by rw [h, Bool.false_and]; decide)
  unfold MessageSlot.answered
  rw [hcount]
  exact if_neg (by rw [h, Bool.false_and]; decide)

theorem contentRequest_clip {k : Fin 8} (f : Frame) (zones : ZoneMask) (who : Claimant) (s : State) :
    (contentRequest f zones who s).2.cle.slots[k] = s.cle.slots[k] ∨
      (contentRequest f zones who s).2.cle.slots[k] = s.cle.slots[k].answered f s.ftu.frame zones := by
  cases who with
  | clip j =>
    refine Or.symm (?_ : (clipRequest j f zones s).2.cle.slots[k] = _ ∨ (clipRequest j f zones s).2.cle.slots[k] = _)
    rw [clipRequest_slot]
    by_cases h : k = j
    · subst h
      exact .inl (if_pos rfl)
    · exact .inr (if_neg h)
  | message j =>
    have hcle := messageRequest_then j f zones (ChangesOnly.refl [.msu, .mem, .events, .etu, .zar] s) rfl .cle rfl
    exact .inl (congrArg (fun c : Cle => c.slots[k]) hcle)
  | group g =>
    have hcle := groupRequest_then g f (ChangesOnly.refl [.sru, .plw, .events, .mem, .free] s) rfl .cle rfl
    exact .inl (congrArg (fun c : Cle => c.slots[k]) hcle)

theorem contentRequest_message {k : Fin 8} (f : Frame) (zones : ZoneMask) (who : Claimant) (s : State) :
    (contentRequest f zones who s).2.msu.slots[k] = s.msu.slots[k] ∨
      (contentRequest f zones who s).2.msu.slots[k] = s.msu.slots[k].answered f zones := by
  cases who with
  | clip j =>
    have hmsu := clipRequest_then j f zones (ChangesOnly.refl [.cle, .mem, .events, .etu, .zar] s) rfl .msu rfl
    exact .inl (congrArg (fun m : Msu => m.slots[k]) hmsu)
  | message j =>
    refine Or.symm (?_ : (messageRequest j f zones s).2.msu.slots[k] = _ ∨ (messageRequest j f zones s).2.msu.slots[k] = _)
    rw [messageRequest_slot]
    by_cases h : k = j
    · subst h
      exact .inl (if_pos rfl)
    · exact .inr (if_neg h)
  | group g =>
    have hmsu := groupRequest_then g f (ChangesOnly.refl [.sru, .plw, .events, .mem, .free] s) rfl .msu rfl
    exact .inl (congrArg (fun m : Msu => m.slots[k]) hmsu)

/-- What the requests of a frame keep of every state that they pass. -/
theorem viewAndCompose_induct {P : State → Prop} {f : Frame} {s : State} (h0 : P s) (hfree : ∀ t, P t → P t.nextFree)
    (hclo : ∀ t g, P t → P (t.onClo g)) (hstep : ∀ zones w t, P t → P (contentRequest f zones w t).2) :
    P (viewAndCompose f s) := by
  unfold viewAndCompose
  dsimp only
  split
  · exact hclo _ _ (askAll_induct (hfree _ h0) fun w _ t h => hstep _ w t h)
  · exact hclo _ _ h0

theorem viewAndCompose_clip_credits (f : Frame) (k : Fin 8) (s : State) :
    ((viewAndCompose f s).cle.slots[k]).credits = s.cle.slots[k].credits :=
  viewAndCompose_induct (P := fun t => t.cle.slots[k].credits = s.cle.slots[k].credits) rfl (fun _ h => h) (fun _ _ h => h)
    fun zones w t h => by
      obtain hsame | hanswered := contentRequest_clip (k := k) f zones w t
      · rw [hsame, h]
      · rw [hanswered, clip_answered_credits, h]

theorem viewAndCompose_clip_idle {f : Frame} {k : Fin 8} {c : ClipSlot} (hw : c.working = false)
    (h : s.cle.slots[k] = c) : (viewAndCompose f s).cle.slots[k] = c :=
  viewAndCompose_induct (P := fun t => t.cle.slots[k] = c) h (fun _ h => h) (fun _ _ h => h) fun zones w t h => by
    obtain hsame | hanswered := contentRequest_clip (k := k) f zones w t
    · rw [hsame, h]
    · rw [hanswered, h, clip_answered_of_not_working hw]

theorem viewAndCompose_message_credits {f : Frame} {k : Fin 8} (h : s.msu.slots[k].Lasts f) :
    ((viewAndCompose f s).msu.slots[k]).credits = s.msu.slots[k].credits :=
  (viewAndCompose_induct (P := fun t => t.msu.slots[k].credits = s.msu.slots[k].credits ∧ t.msu.slots[k].Lasts f)
    ⟨rfl, h⟩ (fun _ h => h) (fun _ _ h => h) fun zones w t ⟨hcredits, hlasts⟩ => by
      obtain hsame | hanswered := contentRequest_message (k := k) f zones w t
      · rw [hsame]
        exact ⟨hcredits, hlasts⟩
      · rw [hanswered]
        obtain ⟨hc, hl⟩ := message_answered_of_lasts (zones := zones) hlasts
        exact ⟨hc.trans hcredits, hl⟩).1

theorem viewAndCompose_message_idle {f : Frame} {k : Fin 8} {m : MessageSlot} (hw : m.working = false)
    (h : s.msu.slots[k] = m) : (viewAndCompose f s).msu.slots[k] = m :=
  viewAndCompose_induct (P := fun t => t.msu.slots[k] = m) h (fun _ h => h) (fun _ _ h => h) fun zones w t h => by
    obtain hsame | hanswered := contentRequest_message (k := k) f zones w t
    · rw [hsame, h]
    · rw [hanswered, h, message_answered_of_idle hw]

/-! ## What the report of the ended frame credits -/

/-- A head's entries of the view. -/
def headEntries (w : FrameWork) (who : Claimant) : List ViewEntry := w.view.filter fun v => v.head == some who

/-- How many of them are lit after the close. -/
def litEntries (w : FrameWork) (s : State) (who : Claimant) : Nat :=
  ((headEntries w who).filter fun v => s.clo.links[v.defn.link].up &&
    (s.clo.links[v.defn.link].seen || decide (s.clo.links[v.defn.link].miss < 2))).length

/-- The report's entry for one entry of the view. -/
def closedEntry (w : FrameWork) (s : State) (v : ViewEntry) : ReportEntry :=
  { zone := v.defn.id, head := v.head, lit := (s.clo.links.map PanelLink.close)[v.defn.link].up,
    drawn := answerOf w.answers v.head }

theorem closedReport_eq (w : FrameWork) (s : State) : closedReport w s = w.view.map (closedEntry w s) := rfl

theorem close_up (l : PanelLink) : l.close.up = (l.up && (l.seen || decide (l.miss < 2))) := by
  obtain ⟨up, miss, seen⟩ := l
  rw [close_eq]
  cases seen with
  | true => exact (Bool.and_true up).symm
  | false =>
    cases up with
    | false => rfl
    | true =>
      by_cases h : miss = 0 ∨ miss = 1
      · have hlt : miss < 2 := by omega
        simp [h, hlt]
      · have hlt : ¬miss < 2 := by omega
        simp [h, hlt]

theorem closedEntry_lit (w : FrameWork) (s : State) (v : ViewEntry) : (closedEntry w s v).lit =
    (s.clo.links[v.defn.link].up && (s.clo.links[v.defn.link].seen || decide (s.clo.links[v.defn.link].miss < 2))) := by
  have hget : (s.clo.links.map PanelLink.close)[v.defn.link] = s.clo.links[v.defn.link].close := Vector.getElem_map _ _
  rw [closedEntry, hget, close_up]

theorem filter_closedReport {w : FrameWork} {who : Claimant} {p : ReportEntry → Bool}
    (hp : ∀ v : ViewEntry, p (closedEntry w s v) = (v.head == some who)) :
    (closedReport w s).filter p = (headEntries w who).map (closedEntry w s) := by
  rw [closedReport_eq, List.filter_map]
  exact congrArg (List.map _) (List.filter_congr fun v _ => hp v)

theorem litEntries_eq (w : FrameWork) (s : State) (who : Claimant) :
    (((headEntries w who).map (closedEntry w s)).filter ReportEntry.lit).length = litEntries w s who := by
  rw [List.filter_map, List.length_map, litEntries]
  exact congrArg List.length (List.filter_congr fun v _ => closedEntry_lit w s v)

theorem creditsClip_closedEntry {w : FrameWork} {k : Fin 8} {offset width height idx : Nat}
    (h : w.answers.lookup (.clip k) = some (.clip offset width height idx)) (v : ViewEntry) :
    creditsClip k (closedEntry w s v) = (v.head == some (.clip k)) := by
  unfold creditsClip
  cases hhead : (v.head == some (.clip k)) with
  | false => exact (congrArg (· && _) hhead).trans (Bool.false_and _)
  | true =>
    have hdrawn : (closedEntry w s v).drawn = .clip offset width height idx := by
      rw [closedEntry, beq_iff_eq.mp hhead, answerOf]
      dsimp only
      rw [h]
      rfl
    rw [hdrawn]
    exact (congrArg (· && true) hhead).trans rfl

theorem creditsMessage_closedEntry {w : FrameWork} {k : Fin 8} {content : MessageAnswer}
    (h : w.answers.lookup (.message k) = some (.message content)) (v : ViewEntry) :
    creditsMessage k (closedEntry w s v) = (v.head == some (.message k)) := by
  unfold creditsMessage
  cases hhead : (v.head == some (.message k)) with
  | false => exact (congrArg (· && _) hhead).trans (Bool.false_and _)
  | true =>
    have hdrawn : (closedEntry w s v).drawn = .message content := by
      rw [closedEntry, beq_iff_eq.mp hhead, answerOf]
      dsimp only
      rw [h]
      rfl
    rw [hdrawn]
    exact (congrArg (· && true) hhead).trans rfl

theorem clip_credited_credits {w : FrameWork} {k : Fin 8} {offset width height idx : Nat}
    (h : w.answers.lookup (.clip k) = some (.clip offset width height idx)) (f : Frame) (c : ClipSlot) :
    (c.credited k f (closedReport w s)).credits = if headEntries w (.clip k) = [] then c.credits else
      (min (c.framesShown + 1) 4294967295, min (c.litFrames + litEntries w s (.clip k)) 4294967295,
        some (c.firstShown.getD f)) := by
  unfold ClipSlot.credited
  rw [filter_closedReport (creditsClip_closedEntry h), litEntries_eq, List.isEmpty_map]
  cases headEntries w (.clip k) <;> rfl

theorem message_credited_credits {w : FrameWork} {k : Fin 8} {content : MessageAnswer}
    (h : w.answers.lookup (.message k) = some (.message content)) (f : Frame) (m : MessageSlot) :
    (m.credited k f (closedReport w s)).credits = if headEntries w (.message k) = [] then m.credits else
      (min (m.framesShown + 1) 4294967295, min (m.litFrames + litEntries w s (.message k)) 4294967295,
        some (m.firstShown.getD f)) := by
  unfold MessageSlot.credited
  rw [filter_closedReport (creditsMessage_closedEntry h), litEntries_eq, List.isEmpty_map]
  cases headEntries w (.message k) <;> rfl

theorem message_credited_lasts {m : MessageSlot} {f g : Frame} {k : Fin 8} {report : List ReportEntry} (h : m.Lasts f) :
    (m.credited k g report).Lasts f := by
  unfold MessageSlot.credited
  split
  · exact h
  · exact h

theorem credits_split {c d : Nat × Nat × Option Frame} {P : Prop} [Decidable P] {x : Nat × Nat × Option Frame}
    (h : d = if P then c else x) :
    (P → d.1 = c.1 ∧ d.2.1 = c.2.1 ∧ d.2.2 = c.2.2) ∧ (¬P → d.1 = x.1 ∧ d.2.1 = x.2.1 ∧ d.2.2 = x.2.2) := by
  refine ⟨fun hP => ?_, fun hP => ?_⟩
  · rw [h, if_pos hP]
    exact ⟨rfl, rfl, rfl⟩
  · rw [h, if_neg hP]
    exact ⟨rfl, rfl, rfl⟩

/-- The state in which the CLO handles the frame start. -/
def cloHandled (s : State) : State := s.onClo fun c => { c with frameDue := false }

theorem exec_cloFrameStart (hdue : s.clo.frameDue = true) :
    exec .cloFrameStart s = .next (cloFrameStart s.ftu.frame (cloHandled s)) :=
  congrArg Host.Outcome.next (if_pos hdue)

/-- The results that a report's completion hands to a clip's origin. -/
theorem clip_credited_result {k : Fin 8} {f : Frame} {report : List ReportEntry} {c : ClipSlot} {status : Status}
    (h : c.status = some status) : (c.credited k f report).result =
      { status := status, late := c.late, preempted := c.preempted, refused := c.refused, takeFrame := c.takeFrame,
        firstShown := if report.filter (creditsClip k) = [] then c.firstShown.getD 0 else c.firstShown.getD f,
        endFrame := c.endFrame,
        framesShown := if report.filter (creditsClip k) = [] then c.framesShown else min (c.framesShown + 1) 4294967295,
        litFrames := if report.filter (creditsClip k) = [] then c.litFrames
          else min (c.litFrames + ((report.filter (creditsClip k)).filter ReportEntry.lit).length) 4294967295 } := by
  unfold ClipSlot.credited ClipSlot.result
  cases report.filter (creditsClip k) <;> simp [h, saturate, Config.countMax]

theorem message_credited_result {k : Fin 8} {f : Frame} {report : List ReportEntry} {m : MessageSlot} (status : Status) :
    (m.credited k f report).result status m.endFrame =
      { status := if status = .completed ∧ (if report.filter (creditsMessage k) = [] then m.framesShown
          else min (m.framesShown + 1) 4294967295) = 0 then .expiredUnshown else status,
        late := m.late, preempted := m.preempted, refused := m.refused, takeFrame := m.takeFrame,
        firstShown := if report.filter (creditsMessage k) = [] then m.firstShown.getD 0 else m.firstShown.getD f,
        endFrame := m.endFrame,
        framesShown := if report.filter (creditsMessage k) = [] then m.framesShown
          else min (m.framesShown + 1) 4294967295,
        litFrames := if report.filter (creditsMessage k) = [] then m.litFrames
          else min (m.litFrames + ((report.filter (creditsMessage k)).filter ReportEntry.lit).length) 4294967295 } := by
  unfold MessageSlot.credited MessageSlot.result writtenStatus
  cases report.filter (creditsMessage k) <;> simp [saturate, Config.countMax]

theorem clip_credited_kept (k : Fin 8) (f : Frame) (report : List ReportEntry) (c : ClipSlot) :
    (c.credited k f report).origin = c.origin ∧ (c.credited k f report).tag = c.tag ∧
    (c.credited k f report).epoch = c.epoch := by
  unfold ClipSlot.credited
  split <;> exact ⟨rfl, rfl, rfl⟩

theorem message_credited_kept (k : Fin 8) (f : Frame) (report : List ReportEntry) (m : MessageSlot) :
    (m.credited k f report).origin = m.origin ∧ (m.credited k f report).tag = m.tag ∧
    (m.credited k f report).epoch = m.epoch ∧ (m.credited k f report).status = m.status ∧
    (m.credited k f report).endFrame = m.endFrame := by
  unfold MessageSlot.credited
  split <;> exact ⟨rfl, rfl, rfl, rfl, rfl⟩

/-- Settles O42. -/
theorem shownReportCreditsClipOrMessage : Obligations.ShownReportCreditsClipOrMessage := by
  refine ⟨fun k w s hdue hwork => ⟨fun offset width height idx hasked hw hout hanswer => ?_,
    fun content hasked hw hout hanswer hlasts => ?_, fun hasked hstate hout => ?_, fun hasked hstate hout => ?_⟩,
    fun k f report status s => ?_, fun k f report status s => ?_⟩
  · have hreported : (closeAndReport (cloHandled s)).cle.slots[k] =
        s.cle.slots[k].credited k w.number (closedReport w (cloHandled s)) := by
      refine (closeAndReport_clip (s := cloHandled s) hwork hasked).trans ?_
      have hstate : s.cle.slots[k].state ≠ .idle ∧ s.cle.slots[k].state ≠ .ending := by
        unfold ClipSlot.working at hw
        constructor <;> intro h <;> rw [h] at hw <;> exact absurd hw (by decide)
      exact (if_pos ⟨hstate.1, hout⟩).trans (if_neg hstate.2)
    refine ⟨_, exec_cloFrameStart hdue, ?_⟩
    have hcredits := clip_credited_credits (s := cloHandled s) hanswer w.number s.cle.slots[k]
    exact credits_split (((viewAndCompose_clip_credits s.ftu.frame k (closeAndReport (cloHandled s))).trans
      (congrArg ClipSlot.credits hreported)).trans hcredits)
  · have hreported : (closeAndReport (cloHandled s)).msu.slots[k] =
        s.msu.slots[k].credited k w.number (closedReport w (cloHandled s)) := by
      refine (closeAndReport_message (s := cloHandled s) hwork hasked).trans ?_
      have hstate : s.msu.slots[k].state ≠ .idle ∧ s.msu.slots[k].state ≠ .ending := by
        unfold MessageSlot.working at hw
        constructor <;> intro h <;> rw [h] at hw <;> exact absurd hw (by decide)
      exact (if_pos ⟨hstate.1, hout⟩).trans (if_neg hstate.2)
    refine ⟨_, exec_cloFrameStart hdue, ?_⟩
    have hcredits := message_credited_credits (s := cloHandled s) hanswer w.number s.msu.slots[k]
    have hlasts' : (closeAndReport (cloHandled s)).msu.slots[k].Lasts s.ftu.frame := by
      rw [hreported]
      exact message_credited_lasts hlasts
    exact credits_split (((viewAndCompose_message_credits hlasts').trans
      (congrArg MessageSlot.credits hreported)).trans hcredits)
  · refine ⟨_, exec_cloFrameStart hdue, viewAndCompose_clip_idle rfl ?_⟩
    refine (closeAndReport_clip (s := cloHandled s) hwork hasked).trans ?_
    exact (if_pos ⟨fun h => (nomatch hstate.symm.trans h), hout⟩).trans (if_pos hstate)
  · refine ⟨_, exec_cloFrameStart hdue, viewAndCompose_message_idle rfl ?_⟩
    refine (closeAndReport_message (s := cloHandled s) hwork hasked).trans ?_
    exact (if_pos ⟨fun h => (nomatch hstate.symm.trans h), hout⟩).trans (if_pos hstate)
  · intro c mine t hstate hout hstatus hepoch hforce hinside hapart hnot
    have hreport : t = completeClip k (onClip k (ClipSlot.credited k f report) s) :=
      (clipReport_of_outstanding (fun h => nomatch hstate.symm.trans h) hout).trans (if_pos hstate)
    have hslot : (onClip k (ClipSlot.credited k f report) s).cle.slots[k] = c.credited k f report :=
      (onClip_get _ _ _ _).trans (if_pos rfl)
    obtain ⟨horigin, htag, hepoch'⟩ := clip_credited_kept k f report c
    have houtcome := completeClip_outcome (s := onClip k (ClipSlot.credited k f report) s) (k := k)
      (by rw [hslot, hepoch']; exact hepoch) hforce hinside hapart hnot
    rw [hslot, horigin, htag, clip_credited_result hstatus] at houtcome
    refine ⟨?_, ?_, clipReport_then _ _ _ (.refl _ _) rfl⟩
    · rw [hreport, completeClip_cle]
      exact congrArg (fun v => ({ s.cle with slots := v } : Cle)) (upd_upd _ _ _ _)
    · rw [hreport]
      exact houtcome
  · intro m mine shown t hstate hout hstatus hepoch hforce hinside hapart hnot
    have hreport : t = completeMessage k (onMessage k (MessageSlot.credited k f report) s) :=
      (messageReport_of_outstanding (fun h => nomatch hstate.symm.trans h) hout).trans (if_pos hstate)
    have hslot : (onMessage k (MessageSlot.credited k f report) s).msu.slots[k] = m.credited k f report :=
      (onMessage_get _ _ _ _).trans (if_pos rfl)
    obtain ⟨horigin, htag, hepoch', hstatus', hend⟩ := message_credited_kept k f report m
    have houtcome := completeMessage_outcome (s := onMessage k (MessageSlot.credited k f report) s) (k := k)
      (by rw [hslot, hepoch']; exact hepoch) hforce hinside hapart hnot
    have hgiven : m.status = some status := hstatus
    rw [hslot, horigin, htag, hstatus', hend, hgiven, Option.getD_some, message_credited_result status] at houtcome
    refine ⟨?_, ?_, messageReport_then _ _ _ (.refl _ _) rfl⟩
    · rw [hreport, completeMessage_msu]
      exact congrArg (fun v => ({ s.msu with slots := v } : Msu)) (upd_upd _ _ _ _)
    · rw [hreport]
      exact houtcome

end Sys2Proof.Machine
end

section
/-! SUPPORT. What a request for a claim makes of the claim lists (R65, R66, R68, R69): one zone, and a whole request. -/

namespace Sys2Proof.Machine

variable {s t : State}

/-! ## The place of a claim -/

theorem takeWhile_level_eq_filter {cs : List Claim} (h : cs.Pairwise fun d e => d.level ≤ e.level) (n : Nat) :
    (cs.takeWhile fun d => decide (d.level ≤ n)) = cs.filter fun d => decide (d.level ≤ n) := by
  induction cs with
  | nil => rfl
  | cons d cs ih =>
    obtain ⟨hd, hcs⟩ := List.pairwise_cons.mp h
    by_cases hle : d.level ≤ n
    · simp only [List.takeWhile_cons, List.filter_cons, hle, decide_true, if_true, ih hcs]
    · have hnone : (cs.filter fun d => decide (d.level ≤ n)) = [] := by
        rw [List.filter_eq_nil_iff]
        intro e he
        have := hd e he
        simp only [decide_eq_true_eq]
        omega
      simp [hle, hnone]

theorem dropWhile_level_eq_filter {cs : List Claim} (h : cs.Pairwise fun d e => d.level ≤ e.level) (n : Nat) :
    (cs.dropWhile fun d => decide (d.level ≤ n)) = cs.filter fun d => decide (n < d.level) := by
  induction cs with
  | nil => rfl
  | cons d cs ih =>
    obtain ⟨hd, hcs⟩ := List.pairwise_cons.mp h
    by_cases hle : d.level ≤ n
    · have hnot : ¬n < d.level := by omega
      simp only [List.dropWhile_cons, List.filter_cons, hle, hnot, decide_true, decide_false, if_true, ih hcs]
      rfl
    · have hall : (cs.filter fun d => decide (n < d.level)) = cs := by
        rw [List.filter_eq_self]
        intro e he
        have := hd e he
        simp only [decide_eq_true_eq]
        omega
      have hlt : n < d.level := by omega
      simp [hle, hlt, hall]

theorem insertClaim_eq_filter {c : Claim} {cs : List Claim} (h : cs.Pairwise fun d e => d.level ≤ e.level) :
    insertClaim c cs = cs.filter (fun d => d.level ≤ c.level) ++ [c] ++ cs.filter (fun d => c.level < d.level) := by
  rw [insertClaim, takeWhile_level_eq_filter h, dropWhile_level_eq_filter h, List.append_assoc]
  rfl

/-! ## A loss reported changes no claim list -/

theorem removeClaim_of_not_holds {who : Claimant} {cs : List Claim} (h : holdsIn who cs = false) :
    removeClaim who cs = cs := by
  rw [removeClaim, List.filter_eq_self]
  intro c hc
  rw [bne_iff_ne]
  rintro rfl
  rw [show holdsIn c.who cs = true from holdsIn_iff.mpr (List.mem_map_of_mem hc)] at h
  cases h

theorem holdsIn_of_not_holdsAny {z : Zar} {who : Claimant} (h : holdsAny z who = false) (i : Fin 16) :
    holdsIn who (claimsAt z i) = false := by
  rw [holdsAny, List.any_eq_false] at h
  exact Bool.eq_false_iff.mpr (h i (List.mem_finRange i))

theorem Zar.ext_table {y z : Zar} (hbanks : y.banks = z.banks) (hselector : y.selector = z.selector)
    (htable : ∀ i : Fin 16, y.table[i] = z.table[i]) : y = z := by
  have h : y.table = z.table := Vector.ext fun i hi => htable ⟨i, hi⟩
  cases y
  cases z
  simp_all

theorem Zar.onAllClaims_of_fixed {z : Zar} {f : List Claim → List Claim}
    (h : ∀ i : Fin 16, f (claimsAt z i) = claimsAt z i) : z.onAllClaims f = z := by
  refine Zar.ext_table rfl rfl fun i => ?_
  rw [Zar.onAllClaims_get]
  cases he : z.table[i] with
  | none => rfl
  | some e =>
    have hclaims : claimsAt z i = e.claims := claimsAt_eq he
    have hfix : f e.claims = e.claims := by rw [← hclaims, h i]
    rw [Option.map_some, hfix]

theorem releaseClaims_of_none {who : Claimant} (h : holdsAny s.zar who = false) :
    s.zar.onAllClaims (removeClaim who) = s.zar :=
  Zar.onAllClaims_of_fixed fun i => removeClaim_of_not_holds (holdsIn_of_not_holdsAny h i)

theorem loseClip_zar (status : Status) (k : Fin 8) (lost : ZoneMask) (s : State) :
    (loseClip status k lost s).zar = s.zar := by
  unfold loseClip
  split
  · dsimp only
    split
    · rfl
    · next h =>
      rw [endClip_zar]
      split
      · exact releaseClaims_of_none (s := s) (Bool.eq_false_iff.mpr h)
      · rfl
  · rfl

theorem loseMessage_zar (status : Status) (k : Fin 8) (lost : ZoneMask) (s : State) :
    (loseMessage status k lost s).zar = s.zar := by
  unfold loseMessage endMessage
  split
  · dsimp only
    split
    · rfl
    · next h =>
      rw [endMessageAt_zar]
      split
      · exact releaseClaims_of_none (s := s) (Bool.eq_false_iff.mpr h)
      · rfl
  · rfl

theorem reportLost_zar_eq (status : Status) (who : Claimant) (lost : ZoneMask) (s : State) :
    (reportLost status who lost s).zar = s.zar := by
  cases who with
  | clip k => exact loseClip_zar status k lost s
  | message k => exact loseMessage_zar status k lost s
  | group g => rfl

theorem reportPreempted_zar (who : Option Claimant) (s : State) : (reportPreempted who s).zar = s.zar :=
  reportPreempted_then who (ChangesOnly.refl [.cle, .msu] s) rfl .zar rfl

/-! ## One zone -/

/-- The list that a request leaves in a zone that takes it. -/
def takenClaims (c : Claim) (safety : Bool) (cs : List Claim) : Option (List Claim) :=
  if holdsIn c.who cs then some cs
  else if fullList cs then
    if safety then (evictable cs).map fun v => insertClaim c (removeClaim v.who cs) else none
  else some (insertClaim c cs)

/-- The list that a request leaves in a zone of the layout. -/
def claimedList (c : Claim) (safety : Bool) (cs : List Claim) : List Claim := (takenClaims c safety cs).getD cs

/-- Whether a zone takes a request. -/
def zoneTakes (c : Claim) (safety : Bool) (e : Option ZoneEntry) : Bool :=
  match e with
  | some x => (takenClaims c safety x.claims).isSome
  | none => false

theorem Zar.onClaims_congr {z : Zar} {i : Fin 16} {f g : List Claim → List Claim}
    (h : ∀ e, z.table[i] = some e → f e.claims = g e.claims) : z.onClaims i f = z.onClaims i g := by
  refine Zar.ext_table rfl rfl fun j => ?_
  rw [Zar.onClaims_get, Zar.onClaims_get]
  split
  · cases he : z.table[i] with
    | none => rfl
    | some e => rw [Option.map_some, Option.map_some, h e he]
  · rfl

theorem Zar.onClaims_of_fixed {z : Zar} {i : Fin 16} {f : List Claim → List Claim}
    (h : ∀ e, z.table[i] = some e → f e.claims = e.claims) : z.onClaims i f = z := by
  refine (Zar.onClaims_congr (g := fun cs => cs) h).trans (Zar.ext_table rfl rfl fun j => ?_)
  rw [Zar.onClaims_get]
  split
  · next hj => rw [hj]; cases z.table[i] <;> rfl
  · rfl

theorem Zar.onClaims_onClaims (z : Zar) (i : Fin 16) (f g : List Claim → List Claim) :
    (z.onClaims i f).onClaims i g = z.onClaims i fun cs => g (f cs) := by
  refine Zar.ext_table rfl rfl fun j => ?_
  rw [Zar.onClaims_get, Zar.onClaims_get, Zar.onClaims_get, Zar.onClaims_get]
  by_cases h : j = i
  · rw [if_pos h, if_pos rfl, if_pos h, Option.map_map]
    rfl
  · rw [if_neg h, if_neg h, if_neg h]

theorem placeClaim_zar (z : Fin 16) (c : Claim) (s : State) :
    (placeClaim z c s).zar = s.zar.onClaims z (insertClaim c) := by
  unfold placeClaim
  dsimp only
  split
  · rw [reportPreempted_zar]
    rfl
  · rfl

theorem evictAndPlace_zar (z : Fin 16) (v c : Claim) (s : State) :
    (evictAndPlace z v c s).zar = s.zar.onClaims z fun cs => insertClaim c (removeClaim v.who cs) := by
  unfold evictAndPlace
  rw [reportLost_zar_eq, placeClaim_zar, State.onZar_zar, Zar.onClaims_onClaims]

/-- What a request does in one zone of a device that runs. -/
theorem claimZone_cases (c : Claim) (safety : Bool) (z : Fin 16) (s : State) (hlive : s.smp.dev.live = true) :
    (s.zar.table[z] = none ∧ claimZone c safety z s = (false, s)) ∨
    ∃ e, s.zar.table[z] = some e ∧
      ((holdsIn c.who e.claims = true ∧ claimZone c safety z s = (true, s)) ∨
       (holdsIn c.who e.claims = false ∧ fullList e.claims = false ∧ claimZone c safety z s = (true, placeClaim z c s)) ∨
       (holdsIn c.who e.claims = false ∧ fullList e.claims = true ∧ (safety = false ∨ evictable e.claims = none) ∧
         claimZone c safety z s = (false, s)) ∨
       ∃ v, holdsIn c.who e.claims = false ∧ fullList e.claims = true ∧ safety = true ∧ evictable e.claims = some v ∧
         claimZone c safety z s = (true, evictAndPlace z v c s)) := by
  unfold claimZone
  rw [hlive, if_neg (by decide)]
  cases he : s.zar.table[z] with
  | none => exact .inl ⟨rfl, rfl⟩
  | some e =>
    refine .inr ⟨e, rfl, ?_⟩
    dsimp only
    cases hholds : holdsIn c.who e.claims with
    | true => exact .inl ⟨rfl, rfl⟩
    | false =>
      rw [if_neg (by decide)]
      cases hfull : fullList e.claims with
      | false => exact .inr (.inl ⟨rfl, rfl, rfl⟩)
      | true =>
        rw [if_pos rfl]
        cases safety with
        | false => exact .inr (.inr (.inl ⟨rfl, rfl, .inl rfl, rfl⟩))
        | true =>
          rw [if_pos rfl]
          cases hv : evictable e.claims with
          | none => exact .inr (.inr (.inl ⟨rfl, rfl, .inr rfl, rfl⟩))
          | some v => exact .inr (.inr (.inr ⟨v, rfl, rfl, rfl, rfl, rfl⟩))

theorem claimZone_of_not_live {c : Claim} {safety : Bool} {z : Fin 16} (h : s.smp.dev.live = false) :
    claimZone c safety z s = (false, s) := if_pos h

/-- The lists and the answer of one zone. -/
theorem claimZone_zar (c : Claim) (safety : Bool) (z : Fin 16) (hlive : s.smp.dev.live = true) :
    (claimZone c safety z s).2.zar = s.zar.onClaims z (claimedList c safety) ∧
    (claimZone c safety z s).1 = zoneTakes c safety s.zar.table[z] := by
  obtain ⟨he, h⟩ | ⟨e, he, h⟩ := claimZone_cases c safety z s hlive
  · rw [h, he]
    exact ⟨(Zar.onClaims_of_fixed fun e h => by rw [he] at h; cases h).symm, rfl⟩
  · rw [he]
    obtain ⟨hholds, h⟩ | ⟨hholds, hfull, h⟩ | ⟨hholds, hfull, hnot, h⟩ | ⟨v, hholds, hfull, hsafety, hv, h⟩ := h <;> rw [h]
    · have htaken : takenClaims c safety e.claims = some e.claims := if_pos hholds
      refine ⟨(Zar.onClaims_of_fixed fun x hx => ?_).symm, ?_⟩
      · cases he.symm.trans hx
        rw [claimedList, htaken]
        rfl
      · rw [zoneTakes, htaken]
        rfl
    · have htaken : takenClaims c safety e.claims = some (insertClaim c e.claims) := by
        rw [takenClaims, hholds, hfull]
        rfl
      refine ⟨(placeClaim_zar z c s).trans (Zar.onClaims_congr fun x hx => ?_), ?_⟩
      · cases he.symm.trans hx
        rw [claimedList, htaken]
        rfl
      · rw [zoneTakes, htaken]
        rfl
    · have htaken : takenClaims c safety e.claims = none := by
        rw [takenClaims, hholds, hfull]
        obtain hnot | hnot := hnot
        · rw [hnot]
          rfl
        · rw [hnot]
          cases safety <;> rfl
      refine ⟨(Zar.onClaims_of_fixed fun x hx => ?_).symm, ?_⟩
      · cases he.symm.trans hx
        rw [claimedList, htaken]
        rfl
      · rw [zoneTakes, htaken]
        rfl
    · have htaken : takenClaims c safety e.claims = some (insertClaim c (removeClaim v.who e.claims)) := by
        rw [takenClaims, hholds, hfull, hsafety, hv]
        rfl
      refine ⟨(evictAndPlace_zar z v c s).trans (Zar.onClaims_congr fun x hx => ?_), ?_⟩
      · cases he.symm.trans hx
        rw [claimedList, htaken]
        rfl
      · rw [zoneTakes, htaken]
        rfl

theorem claimsAt_onClaims (z : Zar) (i j : Fin 16) (f : List Claim → List Claim) (e : ZoneEntry)
    (he : z.table[i] = some e) : claimsAt (z.onClaims i f) j = if j = i then f e.claims else claimsAt z j := by
  by_cases h : j = i
  · subst h
    rw [if_pos rfl]
    exact claimsAt_eq (o := some { e with claims := f e.claims }) (by rw [Zar.onClaims_get, if_pos rfl, he]; rfl)
  · rw [if_neg h]
    unfold claimsAt
    rw [Zar.onClaims_get, if_neg h]

theorem fullList_iff (cs : List Claim) : fullList cs = true ↔ 5 ≤ (nonGroup cs).length := decide_eq_true_iff

theorem evictable_of_last {cs : List Claim} {v : Claim} (h : (nonGroup cs).getLast? = some v) :
    evictable cs = if v.level = 0 then none else some v := by
  rw [evictable, h]

/-- Settles O25. -/
theorem claimsInsertedAndEvictedByLevel : Obligations.ClaimsInsertedAndEvictedByLevel := by
  refine ⟨fun c cs h => ⟨insertClaim_eq_filter h, insertClaim_sorted h⟩, fun c safety z e s hlive he => ?_⟩
  obtain ⟨hzar, htakes⟩ := claimZone_zar c safety z hlive
  have hclaims : claimsAt (claimZone c safety z s).2.zar z = claimedList c safety e.claims := by
    rw [hzar, claimsAt_onClaims _ _ _ _ e he, if_pos rfl]
  rw [he] at htakes
  obtain ⟨hnone, -⟩ | ⟨x, hx, hcases⟩ := claimZone_cases c safety z s hlive
  · cases he.symm.trans hnone
  cases he.symm.trans hx
  have hfullIff := fullList_iff e.claims
  refine ⟨fun hholds => ?_, fun hholds hfull hsafety => ?_, fun hholds hroom => ?_,
    fun v hholds hfull hsafety hlast => ⟨fun hlevel => ?_, fun hlevel => ?_⟩⟩
  · obtain ⟨-, h⟩ | ⟨hnot, -⟩ | ⟨hnot, -⟩ | ⟨_, hnot, -⟩ := hcases
    · exact h
    all_goals rw [hholds] at hnot; cases hnot
  · obtain ⟨hnot, -⟩ | ⟨-, hnot, -⟩ | ⟨-, -, -, h⟩ | ⟨_, -, -, hnot, -⟩ := hcases
    · rw [hholds] at hnot; cases hnot
    · rw [hfullIff.mpr hfull] at hnot; cases hnot
    · exact h
    · rw [hsafety] at hnot; cases hnot
  · have htaken : takenClaims c safety e.claims = some (insertClaim c e.claims) := by
      rw [takenClaims, hholds, if_neg (by decide), if_neg (by rw [hfullIff]; omega)]
    rw [htakes, hclaims, claimedList, zoneTakes, htaken]
    exact ⟨rfl, rfl⟩
  · obtain ⟨hnot, -⟩ | ⟨-, hnot, -⟩ | ⟨-, -, -, h⟩ | ⟨w, -, -, -, hnot, -⟩ := hcases
    · rw [hholds] at hnot; cases hnot
    · rw [hfullIff.mpr hfull] at hnot; cases hnot
    · exact h
    · rw [evictable_of_last hlast, if_pos hlevel] at hnot; cases hnot
  · have htaken : takenClaims c safety e.claims = some (insertClaim c (removeClaim v.who e.claims)) := by
      rw [takenClaims, hholds, if_neg (by decide), if_pos (hfullIff.mpr hfull), if_pos hsafety, evictable_of_last hlast,
        if_neg hlevel]
      rfl
    rw [htakes, hclaims, claimedList, zoneTakes, htaken]
    exact ⟨rfl, rfl⟩

end Sys2Proof.Machine
end

section
/-! SUPPORT. A whole request for claims: what it makes of every list, of the answer, and, where nothing is evicted, of the slots
that it pre-empts (R65 to R68, R70, R75). -/

namespace Sys2Proof.Machine

variable {s t : State}

/-! ## The lists and the answer of a request -/

/-- One zone of a request. -/
def claimStep (c : Claim) (safety : Bool) (acc : ClaimAnswer × State) (z : Fin 16) : ClaimAnswer × State :=
  (if (claimZone c safety z acc.2).1 then { acc.1 with taken := acc.1.taken ||| zoneBit z }
   else { acc.1 with refused := acc.1.refused ||| zoneBit z }, (claimZone c safety z acc.2).2)

theorem claimZones_eq (c : Claim) (safety : Bool) (zs : List (Fin 16)) (s : State) :
    claimZones c safety zs s = zs.foldl (claimStep c safety) (⟨0, 0⟩, s) := rfl

theorem claimZone_frame (c : Claim) (safety : Bool) (z : Fin 16) (s : State) :
    ChangesOnly [.cle, .msu, .zar, .mem, .events, .etu] s (claimZone c safety z s).2 :=
  claimZone_then c safety z (.refl _ _) rfl

/-- What the zones of a request have made of the lists and the answer. -/
structure ClaimsMade (c : Claim) (safety : Bool) (zs : List (Fin 16)) (acc r : ClaimAnswer × State) : Prop where
  table : ∀ j : Fin 16, r.2.zar.table[j] =
    if j ∈ zs then acc.2.zar.table[j].map fun x => { x with claims := claimedList c safety x.claims }
    else acc.2.zar.table[j]
  banks : r.2.zar.banks = acc.2.zar.banks
  selector : r.2.zar.selector = acc.2.zar.selector
  taken : ∀ j : Fin 16, r.1.taken.getLsbD j.val =
    (acc.1.taken.getLsbD j.val || (decide (j ∈ zs) && zoneTakes c safety acc.2.zar.table[j]))
  refused : ∀ j : Fin 16, r.1.refused.getLsbD j.val =
    (acc.1.refused.getLsbD j.val || (decide (j ∈ zs) && !zoneTakes c safety acc.2.zar.table[j]))

theorem claimStep_made (c : Claim) (safety : Bool) (z : Fin 16) (acc : ClaimAnswer × State)
    (hlive : acc.2.smp.dev.live = true) : ClaimsMade c safety [z] acc (claimStep c safety acc z) := by
  obtain ⟨hzar, htakes⟩ := claimZone_zar c safety z hlive
  have hmem : ∀ j : Fin 16, (j ∈ [z]) ↔ j = z := fun j => List.mem_singleton
  refine ⟨fun j => ?_, (congrArg Zar.banks hzar).trans rfl, (congrArg Zar.selector hzar).trans rfl, fun j => ?_,
    fun j => ?_⟩
  · simp only [hmem]
    refine (congrArg (fun y : Zar => y.table[j]) hzar).trans ?_
    rw [Zar.onClaims_get]
    split
    · next h => rw [h]
    · rfl
  · unfold claimStep
    dsimp only
    rw [htakes]
    simp only [hmem]
    cases h : zoneTakes c safety acc.2.zar.table[z] with
    | true =>
      rw [if_pos rfl, BitVec.getLsbD_or, zoneBit_getLsbD]
      by_cases hj : j = z
      · subst hj
        rw [h]
        simp
      · simp [hj, Ne.symm hj]
    | false =>
      rw [if_neg (by decide)]
      by_cases hj : j = z
      · subst hj
        rw [h]
        simp
      · simp [hj]
  · unfold claimStep
    dsimp only
    rw [htakes]
    simp only [hmem]
    cases h : zoneTakes c safety acc.2.zar.table[z] with
    | true =>
      rw [if_pos rfl]
      by_cases hj : j = z
      · subst hj
        rw [h]
        simp
      · simp [hj]
    | false =>
      rw [if_neg (by decide), BitVec.getLsbD_or, zoneBit_getLsbD]
      by_cases hj : j = z
      · subst hj
        rw [h]
        simp
      · simp [hj, Ne.symm hj]

theorem ClaimsMade.cons {c : Claim} {safety : Bool} {z : Fin 16} {zs : List (Fin 16)} {acc mid r : ClaimAnswer × State}
    (hz : z ∉ zs) (h : ClaimsMade c safety [z] acc mid) (k : ClaimsMade c safety zs mid r) :
    ClaimsMade c safety (z :: zs) acc r := by
  have htable : ∀ j : Fin 16, j ∈ zs → mid.2.zar.table[j] = acc.2.zar.table[j] := fun j hj => by
    rw [h.table j, if_neg]
    rw [List.mem_singleton]
    rintro rfl
    exact hz hj
  have hmem : ∀ j : Fin 16, decide (j ∈ z :: zs) = (decide (j ∈ [z]) || decide (j ∈ zs)) := fun j => by
    simp [List.mem_cons]
  refine ⟨fun j => ?_, k.banks.trans h.banks, k.selector.trans h.selector, fun j => ?_, fun j => ?_⟩
  · rw [k.table j]
    by_cases hj : j ∈ zs
    · rw [if_pos hj, if_pos (List.mem_cons_of_mem z hj), htable j hj]
    · rw [if_neg hj, h.table j]
      simp [List.mem_cons, hj]
  · rw [k.taken j, h.taken j, hmem j]
    by_cases hj : j ∈ zs
    · have hjz : j ≠ z := fun h => hz (h ▸ hj)
      rw [htable j hj]
      simp [hj, hjz]
    · simp [hj]
  · rw [k.refused j, h.refused j, hmem j]
    by_cases hj : j ∈ zs
    · have hjz : j ≠ z := fun h => hz (h ▸ hj)
      rw [htable j hj]
      simp [hj, hjz]
    · simp [hj]

theorem claimSteps_made (c : Claim) (safety : Bool) (zs : List (Fin 16)) (hzs : zs.Nodup) (acc : ClaimAnswer × State)
    (hlive : acc.2.smp.dev.live = true) : ClaimsMade c safety zs acc (zs.foldl (claimStep c safety) acc) := by
  induction zs generalizing acc with
  | nil => exact ⟨fun j => rfl, rfl, rfl, fun j => by simp, fun j => by simp⟩
  | cons z zs ih =>
    obtain ⟨hz, hzs⟩ := List.nodup_cons.mp hzs
    have hstep := claimStep_made c safety z acc hlive
    exact hstep.cons hz (ih hzs _ (by
      rw [show (claimStep c safety acc z).2.smp.dev = acc.2.smp.dev from (claimZone_frame c safety z acc.2).dev rfl]
      exact hlive))

theorem zonesOf_nodup (m : ZoneMask) : (zonesOf m).Nodup := (List.nodup_finRange 16).filter _

/-- What a request makes of the lists and the answer of a device that runs. -/
theorem claimZones_made (c : Claim) (safety : Bool) (zones : ZoneMask) (hlive : s.smp.dev.live = true) :
    ClaimsMade c safety (zonesOf zones) (⟨0, 0⟩, s) (claimZones c safety (zonesOf zones) s) :=
  claimSteps_made c safety _ (zonesOf_nodup zones) _ hlive

theorem claimZones_of_not_live {c : Claim} {safety : Bool} (h : s.smp.dev.live = false) (zs : List (Fin 16)) :
    (claimZones c safety zs s).1.taken = 0 := by
  have hsteps : ∀ (zs : List (Fin 16)) (a : ClaimAnswer), a.taken = 0 →
      (zs.foldl (claimStep c safety) (a, s)).1.taken = 0 := by
    intro zs
    induction zs with
    | nil => exact fun a ha => ha
    | cons z zs ih =>
      intro a ha
      have hstep : claimStep c safety (a, s) z = ({ a with refused := a.refused ||| zoneBit z }, s) := by
        unfold claimStep
        rw [claimZone_of_not_live h]
        rfl
      rw [List.foldl_cons, hstep]
      exact ih _ ha
  exact hsteps zs ⟨0, 0⟩ rfl

/-! ## A newcomer's claim -/

/-- A claim whose claimant holds none in any zone. -/
def Newcomer (c : Claim) (s : State) : Prop := ∀ z : Fin 16, holdsIn c.who (claimsAt s.zar z) = false

theorem takenClaims_of_newcomer {c : Claim} {safety : Bool} {cs : List Claim} (h : holdsIn c.who cs = false) :
    takenClaims c safety cs = if fullList cs then
      (if safety then (evictable cs).map fun v => insertClaim c (removeClaim v.who cs) else none)
      else some (insertClaim c cs) := by
  rw [takenClaims, h]
  rfl

theorem fullList_eq_false_iff (cs : List Claim) : fullList cs = false ↔ (nonGroup cs).length < 5 := by
  rw [← Bool.not_eq_true, fullList_iff]
  omega

theorem zoneTakes_iff {c : Claim} {s : State} (hnew : Newcomer c s) (safety : Bool) (z : Fin 16) :
    zoneTakes c safety s.zar.table[z] = true ↔
      ZoneTakes s z ∨ (safety = true ∧ ∃ v, EvictedFrom s z v) := by
  have hclaims := hnew z
  unfold ZoneTakes EvictedFrom zoneTakes
  cases he : s.zar.table[z] with
  | none => simp
  | some e =>
    rw [claimsAt_eq he] at hclaims
    have htaken := takenClaims_of_newcomer (safety := safety) (cs := e.claims) hclaims
    dsimp only
    rw [htaken]
    cases hfull : fullList e.claims with
    | false =>
      rw [fullList_eq_false_iff] at hfull
      refine ⟨fun _ => .inl ⟨e, rfl, hfull⟩, fun _ => rfl⟩
    | true =>
      rw [fullList_iff] at hfull
      have hnot : ¬∃ x, some e = some x ∧ (nonGroup x.claims).length < 5 := by
        rintro ⟨x, hx, hlt⟩
        cases hx
        omega
      cases safety with
      | false =>
        refine ⟨fun h => (nomatch h), fun h => ?_⟩
        obtain h | ⟨h, -⟩ := h
        · exact absurd h hnot
        · cases h
      | true =>
        rw [if_pos rfl, if_pos rfl, Option.isSome_map]
        constructor
        · intro h
          cases hlast : (nonGroup e.claims).getLast? with
          | none => rw [evictable, hlast] at h; cases h
          | some v =>
            rw [evictable_of_last hlast] at h
            by_cases hlevel : v.level = 0
            · rw [if_pos hlevel] at h; cases h
            · exact .inr ⟨rfl, v, e, rfl, hfull, hlast, hlevel⟩
        · rintro (h | ⟨-, v, x, hx, -, hlast, hlevel⟩)
          · exact absurd h hnot
          · cases hx
            rw [evictable_of_last hlast, if_neg hlevel]
            rfl

theorem claimedList_of_refused {c : Claim} {safety : Bool} {e : ZoneEntry} (h : zoneTakes c safety (some e) = false) :
    claimedList c safety e.claims = e.claims := by
  have hnone : takenClaims c safety e.claims = none := by simpa [zoneTakes] using h
  rw [claimedList, hnone]
  rfl

theorem ClaimsMade.claimsAt {c : Claim} {safety : Bool} {zones : ZoneMask} {r : ClaimAnswer × State}
    (h : ClaimsMade c safety (zonesOf zones) (⟨0, 0⟩, s) r) (z : Fin 16) : Machine.claimsAt r.2.zar z =
      if r.1.taken.getLsbD z.val then claimedList c safety (Machine.claimsAt s.zar z) else Machine.claimsAt s.zar z := by
  have htable := h.table z
  have htaken := h.taken z
  simp only [mem_zonesOf] at htable htaken
  cases he : s.zar.table[z] with
  | none =>
    rw [he] at htable htaken
    rw [htaken]
    have hnone : r.2.zar.table[z] = none := by
      rw [htable]
      split <;> rfl
    rw [claimsAt_eq hnone, claimsAt_eq he]
    simp [zoneTakes]
  | some e =>
    rw [he] at htable htaken
    rw [htaken, claimsAt_eq he]
    by_cases hz : zones.getLsbD z.val = true
    · rw [if_pos hz] at htable
      rw [claimsAt_eq htable]
      cases htakes : zoneTakes c safety (some e) with
      | true => simp [hz]
      | false =>
        have hkept := claimedList_of_refused htakes
        simp [hkept]
    · rw [if_neg hz] at htable
      rw [claimsAt_eq htable, decide_eq_false hz]
      simp

/-! ## The slots that an ordinary request pre-empts -/

/-- A slot whose clip has lost the head of a zone (R67). -/
def ClipSlot.preempt (c : ClipSlot) : ClipSlot := if c.working then { c with preempted := true } else c

def MessageSlot.preempt (m : MessageSlot) : MessageSlot := if m.working then { m with preempted := true } else m

theorem clip_preempt_idem (c : ClipSlot) : c.preempt.preempt = c.preempt := by
  unfold ClipSlot.preempt
  by_cases h : c.working = true
  · rw [if_pos h]
    split <;> rfl
  · rw [if_neg h, if_neg h]

theorem message_preempt_idem (m : MessageSlot) : m.preempt.preempt = m.preempt := by
  unfold MessageSlot.preempt
  by_cases h : m.working = true
  · rw [if_pos h]
    split <;> rfl
  · rw [if_neg h, if_neg h]

theorem onClip_self (k : Fin 8) (s : State) : onClip k (fun c => c) s = s := by
  have hslots : upd s.cle.slots k (fun c => c) = s.cle.slots := by simp [upd]
  exact congrArg (fun v => ({ s with cle := { s.cle with slots := v } } : State)) hslots

theorem preemptClip_eq (k : Fin 8) (s : State) : preemptClip k s = onClip k ClipSlot.preempt s := by
  unfold preemptClip
  by_cases h : s.cle.slots[k].working = true
  · rw [if_pos h]
    exact congrArg (fun v => ({ s with cle := { s.cle with slots := v } } : State)) (upd_congr (if_pos h).symm)
  · rw [if_neg h]
    refine (onClip_self k s).symm.trans ?_
    exact congrArg (fun v => ({ s with cle := { s.cle with slots := v } } : State)) (upd_congr (if_neg h).symm)

theorem preemptMessage_eq (k : Fin 8) (s : State) : preemptMessage k s = onMessage k MessageSlot.preempt s := by
  unfold preemptMessage
  by_cases h : s.msu.slots[k].working = true
  · rw [if_pos h]
    exact congrArg (fun v => ({ s with msu := { s.msu with slots := v } } : State)) (upd_congr (if_pos h).symm)
  · rw [if_neg h]
    refine (onMessage_self k s).symm.trans ?_
    exact congrArg (fun v => ({ s with msu := { s.msu with slots := v } } : State)) (upd_congr (if_neg h).symm)

theorem reportPreempted_clip (who : Option Claimant) (j : Fin 8) (s : State) : (reportPreempted who s).cle.slots[j] =
    if who = some (.clip j) then s.cle.slots[j].preempt else s.cle.slots[j] := by
  unfold reportPreempted
  split
  · next k =>
    rw [preemptClip_eq, onClip_get]
    by_cases h : j = k
    · subst h
      rw [if_pos rfl, if_pos rfl]
    · rw [if_neg h, if_neg fun hc => h (by cases hc; rfl)]
  · next k =>
    rw [preemptMessage_eq]
    exact (if_neg fun hc => by cases hc).symm
  · next hclip _ => exact (if_neg fun hc => hclip j hc).symm

theorem reportPreempted_message (who : Option Claimant) (j : Fin 8) (s : State) :
    (reportPreempted who s).msu.slots[j] =
      if who = some (.message j) then s.msu.slots[j].preempt else s.msu.slots[j] := by
  unfold reportPreempted
  split
  · next k =>
    rw [preemptClip_eq]
    exact (if_neg fun hc => by cases hc).symm
  · next k =>
    rw [preemptMessage_eq, onMessage_get]
    by_cases h : j = k
    · subst h
      rw [if_pos rfl, if_pos rfl]
    · rw [if_neg h, if_neg fun hc => h (by cases hc; rfl)]
  · next _ hmessage => exact (if_neg fun hc => hmessage j hc).symm

/-- Whether a newcomer's claim passes the head of a list. -/
def passesHead (c : Claim) (cs : List Claim) (old : Claimant) : Bool :=
  headOf (insertClaim c cs) == some c.who && headOf cs == some old

theorem placeClaim_slots (z : Fin 16) (c : Claim) {e : ZoneEntry} (he : s.zar.table[z] = some e) (j : Fin 8) :
    (placeClaim z c s).cle.slots[j] =
      (if passesHead c e.claims (.clip j) then s.cle.slots[j].preempt else s.cle.slots[j]) ∧
    (placeClaim z c s).msu.slots[j] =
      (if passesHead c e.claims (.message j) then s.msu.slots[j].preempt else s.msu.slots[j]) := by
  have hclaims : claimsAt s.zar z = e.claims := claimsAt_eq he
  have hnew : claimsAt (s.onZar fun a => a.onClaims z (insertClaim c)).zar z = insertClaim c e.claims := by
    rw [State.onZar_zar, claimsAt_onClaims _ _ _ _ e he, if_pos rfl]
  unfold placeClaim passesHead
  dsimp only
  rw [hclaims, hnew]
  by_cases hhead : headOf (insertClaim c e.claims) = some c.who
  · rw [if_pos hhead, beq_iff_eq.mpr hhead]
    refine ⟨(reportPreempted_clip _ _ _).trans ?_, (reportPreempted_message _ _ _).trans ?_⟩
    · simp
    · simp
  · rw [if_neg hhead, beq_eq_false_iff_ne.mpr hhead]
    exact ⟨rfl, rfl⟩

/-- Whether an ordinary request passes the head of a zone. -/
def passesAt (c : Claim) (e : Option ZoneEntry) (old : Claimant) : Bool :=
  match e with
  | some x => !holdsIn c.who x.claims && !fullList x.claims && passesHead c x.claims old
  | none => false

theorem claimZone_ordinary (c : Claim) (z : Fin 16) (s : State) (hlive : s.smp.dev.live = true) :
    ChangesOnly [.zar, .cle, .msu] s (claimZone c false z s).2 ∧
    (claimZone c false z s).2.cle.gate = s.cle.gate ∧
    ∀ j : Fin 8,
      (claimZone c false z s).2.cle.slots[j] =
        (if passesAt c s.zar.table[z] (.clip j) then s.cle.slots[j].preempt else s.cle.slots[j]) ∧
      (claimZone c false z s).2.msu.slots[j] =
        (if passesAt c s.zar.table[z] (.message j) then s.msu.slots[j].preempt else s.msu.slots[j]) := by
  obtain ⟨he, h⟩ | ⟨e, he, h⟩ := claimZone_cases c false z s hlive
  · rw [h, he]
    exact ⟨.refl _ _, rfl, fun j => ⟨rfl, rfl⟩⟩
  · rw [he]
    obtain ⟨hholds, h⟩ | ⟨hholds, hfull, h⟩ | ⟨hholds, hfull, -, h⟩ | ⟨v, -, -, hsafety, -⟩ := h
    · rw [h]
      have hkeeps : ∀ old, passesAt c (some e) old = false := fun old => by rw [passesAt, hholds]; rfl
      exact ⟨.refl _ _, rfl, fun j => ⟨(if_neg (by rw [hkeeps]; decide)).symm, (if_neg (by rw [hkeeps]; decide)).symm⟩⟩
    · rw [h]
      refine ⟨placeClaim_then z c (.refl _ _) rfl, ?_, fun j => ?_⟩
      · unfold placeClaim
        dsimp only
        split
        · unfold reportPreempted
          split
          · rw [preemptClip_eq]
            rfl
          · rw [preemptMessage_eq]
            rfl
          · rfl
        · rfl
      · have hpasses : ∀ old, passesAt c (some e) old = passesHead c e.claims old := fun old => by
          rw [passesAt, hholds, hfull]
          rfl
        rw [hpasses, hpasses]
        exact placeClaim_slots z c he j
    · rw [h]
      have hkeeps : ∀ old, passesAt c (some e) old = false := fun old => by rw [passesAt, hholds, hfull]; rfl
      exact ⟨.refl _ _, rfl, fun j => ⟨(if_neg (by rw [hkeeps]; decide)).symm, (if_neg (by rw [hkeeps]; decide)).symm⟩⟩
    · cases hsafety

/-- What an ordinary request has made of the slots. -/
structure OrdinaryMade (c : Claim) (zs : List (Fin 16)) (s t : State) : Prop where
  frame : ChangesOnly [.zar, .cle, .msu] s t
  gate : t.cle.gate = s.cle.gate
  clips : ∀ j : Fin 8, t.cle.slots[j] =
    if zs.any (fun z => passesAt c s.zar.table[z] (.clip j)) then s.cle.slots[j].preempt else s.cle.slots[j]
  messages : ∀ j : Fin 8, t.msu.slots[j] =
    if zs.any (fun z => passesAt c s.zar.table[z] (.message j)) then s.msu.slots[j].preempt else s.msu.slots[j]

theorem any_congr_of_mem {α : Type} {l : List α} {p q : α → Bool} (h : ∀ x ∈ l, p x = q x) : l.any p = l.any q := by
  induction l with
  | nil => rfl
  | cons x l ih =>
    rw [List.any_cons, List.any_cons, h x (List.mem_cons_self ..), ih fun y hy => h y (List.mem_cons_of_mem _ hy)]

theorem ordinarySteps_made (c : Claim) (zs : List (Fin 16)) (hzs : zs.Nodup) (acc : ClaimAnswer × State)
    (hlive : acc.2.smp.dev.live = true) : OrdinaryMade c zs acc.2 (zs.foldl (claimStep c false) acc).2 := by
  induction zs generalizing acc with
  | nil => exact ⟨.refl _ _, rfl, fun j => rfl, fun j => rfl⟩
  | cons z zs ih =>
    obtain ⟨hz, hzs⟩ := List.nodup_cons.mp hzs
    obtain ⟨hframe, hgate, hslots⟩ := claimZone_ordinary c z acc.2 hlive
    have hzar := (claimZone_zar c false z hlive).1
    have htable : ∀ x ∈ zs, (claimZone c false z acc.2).2.zar.table[x] = acc.2.zar.table[x] := fun x hx => by
      rw [hzar, Zar.onClaims_get, if_neg fun h => hz (by rw [← h]; exact hx)]
    obtain ⟨kframe, kgate, kclips, kmessages⟩ := ih hzs (claimStep c false acc z) (by
      rw [show (claimStep c false acc z).2.smp.dev = acc.2.smp.dev from (claimZone_frame c false z acc.2).dev rfl]
      exact hlive)
    refine ⟨ChangesOnly.trans hframe kframe, kgate.trans hgate, fun j => ?_, fun j => ?_⟩
    · have hrest : (zs.any fun x => passesAt c (claimStep c false acc z).2.zar.table[x] (.clip j)) =
          zs.any fun x => passesAt c acc.2.zar.table[x] (.clip j) := any_congr_of_mem fun x hx => by
        rw [show (claimStep c false acc z).2.zar.table[x] = acc.2.zar.table[x] from htable x hx]
      rw [List.foldl_cons, kclips j, hrest, List.any_cons,
        show (claimStep c false acc z).2.cle.slots[j] = _ from (hslots j).1]
      cases passesAt c acc.2.zar.table[z] (.clip j) <;>
        cases zs.any fun x => passesAt c acc.2.zar.table[x] (.clip j) <;> simp [clip_preempt_idem]
    · have hrest : (zs.any fun x => passesAt c (claimStep c false acc z).2.zar.table[x] (.message j)) =
          zs.any fun x => passesAt c acc.2.zar.table[x] (.message j) := any_congr_of_mem fun x hx => by
        rw [show (claimStep c false acc z).2.zar.table[x] = acc.2.zar.table[x] from htable x hx]
      rw [List.foldl_cons, kmessages j, hrest, List.any_cons,
        show (claimStep c false acc z).2.msu.slots[j] = _ from (hslots j).2]
      cases passesAt c acc.2.zar.table[z] (.message j) <;>
        cases zs.any fun x => passesAt c acc.2.zar.table[x] (.message j) <;> simp [message_preempt_idem]

end Sys2Proof.Machine
end

section
/-! SUPPORT. The checks of a PLAY_CLIP and a POST_MESSAGE in their order, and what an accepted one leaves (R91 to R93, R109, R110). -/

namespace Sys2Proof.Machine

variable {s t u : State}

/-! ## The heads that a newcomer passes -/

theorem headOf_of_newcomer {c : Claim} {cs : List Claim} (h : holdsIn c.who cs = false) : headOf cs ≠ some c.who := by
  intro hc
  rw [headOf, Option.map_eq_some_iff] at hc
  obtain ⟨d, hd, hwho⟩ := hc
  have hheld : holdsIn c.who cs = true := holdsIn_iff.mpr (List.mem_map.mpr ⟨d, List.mem_of_mem_head? hd, hwho⟩)
  rw [hheld] at h
  cases h

theorem insertClaim_eq_withClaim (c : Claim) (cs : List Claim) : insertClaim c cs = withClaim c cs := rfl

/-- The list of a zone that takes an ordinary newcomer. -/
theorem claimedList_of_room {c : Claim} {safety : Bool} {cs : List Claim} (h : holdsIn c.who cs = false)
    (hroom : fullList cs = false) : claimedList c safety cs = insertClaim c cs := by
  rw [claimedList, takenClaims_of_newcomer h, hroom]
  rfl

/-- An ordinary newcomer passes the heads that it takes. -/
theorem passesAt_iff {c : Claim} {zones : ZoneMask} {r : ClaimAnswer × State} (hnew : Newcomer c s)
    (h : ClaimsMade c false (zonesOf zones) (⟨0, 0⟩, s) r) (old : Claimant) :
    ((zonesOf zones).any fun z => passesAt c s.zar.table[z] old) = true ↔
      ∃ z : Fin 16, headOf (claimsAt r.2.zar z) = some c.who ∧ headOf (claimsAt s.zar z) = some old := by
  rw [List.any_eq_true]
  constructor
  · rintro ⟨z, hz, hpasses⟩
    unfold passesAt passesHead at hpasses
    cases he : s.zar.table[z] with
    | none => rw [he] at hpasses; cases hpasses
    | some e =>
      rw [he] at hpasses
      simp only [Bool.and_eq_true, beq_iff_eq, Bool.not_eq_true'] at hpasses
      obtain ⟨⟨hholds, hroom⟩, hhead, hold⟩ := hpasses
      have hclaims : claimsAt r.2.zar z = insertClaim c e.claims := by
        refine (claimsAt_eq (o := some { e with claims := claimedList c false e.claims }) ?_).trans
          (claimedList_of_room hholds hroom)
        rw [h.table z, if_pos hz]
        exact congrArg (Option.map _) he
      exact ⟨z, by rw [hclaims]; exact hhead, by rw [claimsAt_eq he]; exact hold⟩
  · rintro ⟨z, hhead, hold⟩
    have hclaims := h.claimsAt z
    cases htaken : r.1.taken.getLsbD z.val with
    | false =>
      rw [htaken, if_neg (by decide)] at hclaims
      rw [hclaims] at hhead
      exact absurd hhead (headOf_of_newcomer (hnew z))
    | true =>
      rw [htaken, if_pos rfl] at hclaims
      have hbits := h.taken z
      rw [htaken] at hbits
      have hzero : (0 : ZoneMask).getLsbD z.val = false := BitVec.getLsbD_zero
      simp only [hzero, Bool.false_or] at hbits
      obtain ⟨hz, htakes⟩ := (Bool.and_eq_true _ _).mp hbits.symm
      refine ⟨z, decide_eq_true_iff.mp hz, ?_⟩
      cases he : s.zar.table[z] with
      | none => rw [he] at htakes; cases htakes
      | some e =>
        have hnot : holdsIn c.who e.claims = false := by
          have := hnew z
          rwa [claimsAt_eq he] at this
        rw [he] at htakes
        unfold zoneTakes at htakes
        dsimp only at htakes
        rw [takenClaims_of_newcomer hnot] at htakes
        have hroom : fullList e.claims = false := by
          cases hfull : fullList e.claims with
          | false => rfl
          | true => rw [hfull] at htakes; cases htakes
        rw [claimsAt_eq he] at hclaims hold
        have hold' : headOf e.claims = some old := hold
        rw [show ((some e).map ZoneEntry.claims).getD [] = e.claims from rfl, claimedList_of_room hnot hroom] at hclaims
        rw [hclaims] at hhead
        unfold passesAt passesHead
        dsimp only
        rw [hnot, hroom, beq_iff_eq.mpr hhead, beq_iff_eq.mpr hold']
        rfl

theorem preempted_of_preempt {c : ClipSlot} (hidle : c.state ≠ .idle) (hending : c.state ≠ .ending) :
    c.preempt = { c with preempted := true } := by
  refine if_pos ?_
  unfold ClipSlot.working
  cases h : c.state with
  | idle => exact absurd h hidle
  | ending => exact absurd h hending
  | playing => rfl
  | held => rfl

theorem clip_preempt_shape (c : ClipSlot) : c.preempt.state = c.state ∧ { c.preempt with preempted := c.preempted } = c := by
  unfold ClipSlot.preempt
  split <;> exact ⟨rfl, rfl⟩

theorem message_preempt_shape (m : MessageSlot) :
    m.preempt.state = m.state ∧ { m.preempt with preempted := m.preempted } = m := by
  unfold MessageSlot.preempt
  split <;> exact ⟨rfl, rfl⟩

/-- What an ordinary newcomer's request pre-empts, as the statements say it. -/
theorem ordinary_preemptsHeads {c : Claim} {zones : ZoneMask} {r : ClaimAnswer × State} (hnew : Newcomer c s)
    (hclaims : ClaimsMade c false (zonesOf zones) (⟨0, 0⟩, s) r) (hslots : OrdinaryMade c (zonesOf zones) s r.2)
    (hzar : t.zar = r.2.zar) (hclips : ∀ j : Fin 8, Claimant.clip j ≠ c.who → t.cle.slots[j] = r.2.cle.slots[j])
    (hmessages : ∀ j : Fin 8, Claimant.message j ≠ c.who → t.msu.slots[j] = r.2.msu.slots[j]) :
    PreemptsHeads s t c.who := by
  have htakes : ∀ old, TakesHead s t c.who old ↔
      ((zonesOf zones).any fun z => passesAt c s.zar.table[z] old) = true := fun old => by
    rw [passesAt_iff hnew hclaims old, TakesHead, hzar]
    exact Iff.rfl
  refine ⟨fun j hj hidle hending => ?_, fun j hj hstate => ?_⟩
  · rw [htakes]
    have hslot := (hclips j hj).trans (hslots.clips j)
    rw [hslot] at hidle hending ⊢
    cases hpasses : (zonesOf zones).any fun z => passesAt c s.zar.table[z] (.clip j) with
    | false => simp
    | true =>
      rw [hpasses, if_pos rfl] at hidle hending
      rw [(clip_preempt_shape _).1] at hidle hending
      rw [if_pos rfl, preempted_of_preempt hidle hending]
      simp
  · rw [htakes]
    have hslot := (hmessages j hj).trans (hslots.messages j)
    rw [hslot] at hstate ⊢
    cases hpasses : (zonesOf zones).any fun z => passesAt c s.zar.table[z] (.message j) with
    | false => simp
    | true =>
      rw [hpasses, if_pos rfl] at hstate
      rw [(message_preempt_shape _).1] at hstate
      rw [if_pos rfl, MessageSlot.preempt, if_pos (working_of_showing hstate)]
      simp

/-! ## The checks of a PLAY_CLIP -/

theorem insideRegion_iff (base pitch width height count : Nat) :
    insideMemory base (regionBytes pitch width height count) = true ↔
      base + ((count - 1) * pitch + width * height * 4) ≤ 2 ^ 32 := insideMemory_iff ..

theorem byte_le_one_iff (v : BitVec 8) : (v == 0 || v == 1) = true ↔ v.toNat ≤ 1 := by
  rw [Bool.or_eq_true, beq_iff_eq, beq_iff_eq]
  constructor
  · rintro (rfl | rfl) <;> decide
  · intro h
    have : v.toNat = 0 ∨ v.toNat = 1 := by omega
    obtain h | h := this
    · exact .inl (BitVec.eq_of_toNat_eq h)
    · exact .inr (BitVec.eq_of_toNat_eq h)

theorem clipValuesOk_iff (p : ClipPayload) : clipValuesOk p = true ↔
    p.zones ≠ 0 ∧ 1 ≤ p.width.toNat ∧ p.width.toNat ≤ 3840 ∧ 1 ≤ p.height.toNat ∧ p.height.toNat ≤ 1152 ∧ p.count ≠ 0 ∧
      p.endBehaviour.toNat ≤ 1 ∧ p.base.toNat % 4 = 0 ∧ p.pitch.toNat % 4 = 0 := by
  unfold clipValuesOk
  simp only [Bool.and_eq_true, bne_iff_ne, decide_eq_true_eq, byte_le_one_iff, and_assoc]

theorem clipRegionOk_iff (p : ClipPayload) : clipRegionOk p = true ↔
    p.base.toNat + ((p.count.toNat - 1) * p.pitch.toNat + p.width.toNat * p.height.toNat * 4) ≤ 2 ^ 32 :=
  insideRegion_iff ..

theorem clip_working_iff (c : ClipSlot) : c.working = true ↔ c.state = .playing ∨ c.state = .held := by
  simp [ClipSlot.working]

theorem message_working_iff (m : MessageSlot) : m.working = true ↔ m.state = .showing := beq_iff_eq

theorem idleClip_of_first {c : Cle} {k : Fin 8} (hk : c.slots[k].state = .idle)
    (hfirst : ∀ j : Fin 8, j < k → c.slots[j].state ≠ .idle) : idleClip c [] = some k :=
  find?_finRange (by rw [hk]; rfl) fun j hj => by
    rw [show (c.slots[j].state == .idle) = false from beq_eq_false_iff_ne.mpr (hfirst j hj)]
    rfl

theorem idleClip_of_none {c : Cle} (h : ∀ k : Fin 8, c.slots[k].state ≠ .idle) : idleClip c [] = none := by
  unfold idleClip
  rw [List.find?_eq_none]
  intro k _ hc
  exact h k (beq_iff_eq.mp ((Bool.and_eq_true _ _).mp hc).1)

theorem idleClip_state {c : Cle} {k : Fin 8} {kept : List (Fin 8)} (h : idleClip c kept = some k) :
    c.slots[k].state = .idle := by
  have hfound := List.find?_some h
  exact beq_iff_eq.mp ((Bool.and_eq_true _ _).mp hfound).1

theorem idleMessage_of_first {m : Msu} {k : Fin 8} (hk : m.slots[k].state = .idle)
    (hfirst : ∀ j : Fin 8, j < k → m.slots[j].state ≠ .idle) : idleMessage m [] = some k :=
  find?_finRange (by rw [hk]; rfl) fun j hj => by
    rw [show (m.slots[j].state == .idle) = false from beq_eq_false_iff_ne.mpr (hfirst j hj)]
    rfl

theorem idleMessage_of_none {m : Msu} (h : ∀ k : Fin 8, m.slots[k].state ≠ .idle) : idleMessage m [] = none := by
  unfold idleMessage
  rw [List.find?_eq_none]
  intro k _ hc
  exact h k (beq_iff_eq.mp ((Bool.and_eq_true _ _).mp hc).1)

theorem idleMessage_state {m : Msu} {k : Fin 8} {kept : List (Fin 8)} (h : idleMessage m kept = some k) :
    m.slots[k].state = .idle := by
  have hfound := List.find?_some h
  exact beq_iff_eq.mp ((Bool.and_eq_true _ _).mp hfound).1

section
variable {h : Handover} {kept : RunSlots} {p : ClipPayload}

theorem takeClip_of_halted (hgate : s.cle.gate = .halted) : takeClip h kept p s = (.done .halted, s) := by
  rw [takeClip, hgate]

theorem takeClip_of_fallback (hgate : s.cle.gate = .fallback) : takeClip h kept p s = (.done .abandoned, s) := by
  rw [takeClip, hgate]

theorem takeClip_of_open (hgate : s.cle.gate = .open_) : takeClip h kept p s =
    if !clipValuesOk p then (.refused .badValue 0, s)
    else if !clipRegionOk p then (.refused .badRegion 0, s)
    else if (clipWithTag s.cle p.tag).isSome then (.refused .tagInUse 0, s)
    else
      match idleClip s.cle kept.clips with
      | none => (.refused .noSlot 0, s)
      | some k =>
        let r := claimRequest (.clip k) p.level.toNat false p.zones s
        if r.1.taken = 0 then (.refused .zoneFull p.zones, s)
        else (.accepted r.1.refused, onClip k (fun _ => newClip p h r.1 s.ftu.frame s.smp.anchorEpoch) r.2) := by
  rw [takeClip, hgate] <;> rfl

theorem takeClip_badValue (hgate : s.cle.gate = .open_) (hvalues : clipValuesOk p = false) :
    takeClip h kept p s = (.refused .badValue 0, s) := by
  rw [takeClip_of_open hgate, hvalues]
  rfl

theorem takeClip_badRegion (hgate : s.cle.gate = .open_) (hvalues : clipValuesOk p = true)
    (hregion : clipRegionOk p = false) : takeClip h kept p s = (.refused .badRegion 0, s) := by
  rw [takeClip_of_open hgate, hvalues, hregion]
  rfl

theorem takeClip_tagInUse (hgate : s.cle.gate = .open_) (hvalues : clipValuesOk p = true)
    (hregion : clipRegionOk p = true) (htag : (clipWithTag s.cle p.tag).isSome = true) :
    takeClip h kept p s = (.refused .tagInUse 0, s) := by
  rw [takeClip_of_open hgate, hvalues, hregion, htag]
  rfl

theorem takeClip_noSlot (hgate : s.cle.gate = .open_) (hvalues : clipValuesOk p = true)
    (hregion : clipRegionOk p = true) (htag : clipWithTag s.cle p.tag = none)
    (hidle : idleClip s.cle kept.clips = none) : takeClip h kept p s = (.refused .noSlot 0, s) := by
  rw [takeClip_of_open hgate, hvalues, hregion, htag, hidle]
  rfl

/-- The claim that a PLAY_CLIP asks for. -/
def clipClaim (k : Fin 8) (p : ClipPayload) : Claim := ⟨.clip k, clampNat 1 5 p.level.toNat⟩

theorem takeClip_of_slot {k : Fin 8} (hgate : s.cle.gate = .open_) (hvalues : clipValuesOk p = true)
    (hregion : clipRegionOk p = true) (htag : clipWithTag s.cle p.tag = none)
    (hidle : idleClip s.cle kept.clips = some k) : takeClip h kept p s =
      if (claimZones (clipClaim k p) false (zonesOf p.zones) s).1.taken = 0 then (.refused .zoneFull p.zones, s)
      else (.accepted (claimZones (clipClaim k p) false (zonesOf p.zones) s).1.refused,
        onClip k (fun _ => newClip p h (claimZones (clipClaim k p) false (zonesOf p.zones) s).1 s.ftu.frame
          s.smp.anchorEpoch) (claimZones (clipClaim k p) false (zonesOf p.zones) s).2) := by
  rw [takeClip_of_open hgate, hvalues, hregion, htag, hidle]
  rfl

end

/-! ## The checks of a POST_MESSAGE -/

theorem messageValuesOk_iff (p : MessagePayload) : messageValuesOk p = true ↔
    p.zones ≠ 0 ∧ p.cls.toNat ≤ 1 ∧ p.mode.toNat ≤ 1 ∧ 1 ≤ p.textLength.toNat ∧ p.textLength.toNat ≤ 120 := by
  unfold messageValuesOk
  simp only [Bool.and_eq_true, bne_iff_ne, decide_eq_true_eq, byte_le_one_iff, and_assoc]

theorem messageRegionOk_iff (p : MessagePayload) : messageRegionOk p = true ↔
    p.textOffset.toNat + p.textLength.toNat ≤ 2 ^ 32 := insideMemory_iff ..

section
variable {h : Handover} {kept : RunSlots} {p : MessagePayload}

theorem takeMessage_of_halted (hhalt : s.msu.afterHalt = true) : takeMessage h kept p s = (.done .halted, s) := by
  rw [takeMessage, hhalt]
  rfl

theorem takeMessage_badValue (hhalt : s.msu.afterHalt = false) (hvalues : messageValuesOk p = false) :
    takeMessage h kept p s = (.refused .badValue 0, s) := by
  rw [takeMessage, hhalt, hvalues]
  rfl

theorem takeMessage_badRegion (hhalt : s.msu.afterHalt = false) (hvalues : messageValuesOk p = true)
    (hregion : messageRegionOk p = false) : takeMessage h kept p s = (.refused .badRegion 0, s) := by
  rw [takeMessage, hhalt, hvalues, hregion]
  rfl

theorem takeMessage_of_repost {k : Fin 8} (hhalt : s.msu.afterHalt = false) (hvalues : messageValuesOk p = true)
    (hregion : messageRegionOk p = true) (htag : messageWithTag s.msu p.tag = some k) :
    takeMessage h kept p s = (.accepted 0, repost k h p s) := by
  rw [takeMessage, hhalt, hvalues, hregion, htag]
  rfl

theorem takeMessage_noSlot (hhalt : s.msu.afterHalt = false) (hvalues : messageValuesOk p = true)
    (hregion : messageRegionOk p = true) (htag : messageWithTag s.msu p.tag = none)
    (hidle : idleMessage s.msu kept.messages = none) : takeMessage h kept p s = (.refused .noSlot 0, s) := by
  rw [takeMessage, hhalt, hvalues, hregion, htag, hidle]
  rfl

/-- The claim that a POST_MESSAGE asks for. -/
def messageClaim (k : Fin 8) (p : MessagePayload) : Claim :=
  ⟨.message k, if p.cls == 1 then 0 else clampNat 1 5 p.level.toNat⟩

/-- The claims of a POST_MESSAGE. -/
def messageClaims (k : Fin 8) (p : MessagePayload) (s : State) : ClaimAnswer × State :=
  claimZones (messageClaim k p) (p.cls == 1) (zonesOf p.zones) s

theorem takeMessage_of_slot {k : Fin 8} (hhalt : s.msu.afterHalt = false) (hvalues : messageValuesOk p = true)
    (hregion : messageRegionOk p = true) (htag : messageWithTag s.msu p.tag = none)
    (hidle : idleMessage s.msu kept.messages = some k) : takeMessage h kept p s =
      if (messageClaims k p s).1.taken = 0 then (.refused .zoneFull p.zones, s)
      else (.accepted (messageClaims k p s).1.refused, onMessage k (fun _ =>
        ((newMessage p (messageClaims k p s).1).withContent p (messageClaims k p s).2).withOrigin h
          (messageClaims k p s).1.refused (messageClaims k p s).2) (messageClaims k p s).2) := by
  rw [takeMessage, hhalt, hvalues, hregion, htag, hidle]
  rfl

end

/-! ## The claims of a request that no zone takes -/

theorem claims_taken_eq_zero {c : Claim} {safety : Bool} {zones : ZoneMask} (hnew : Newcomer c s)
    (h : s.smp.dev.live = false ∨ ∀ z : Fin 16, zones.getLsbD z.val = true →
      ¬ZoneTakes s z ∧ (safety = true → ∀ v, ¬EvictedFrom s z v)) :
    (claimZones c safety (zonesOf zones) s).1.taken = 0 := by
  cases hlive : s.smp.dev.live with
  | false => exact claimZones_of_not_live hlive _
  | true =>
    rw [hlive] at h
    obtain h | h := h
    · cases h
    refine zoneMask_ext fun z => ?_
    rw [(claimZones_made c safety zones hlive).taken z]
    have hzero : (0 : ZoneMask).getLsbD z.val = false := BitVec.getLsbD_zero
    rw [hzero, Bool.false_or, Bool.and_eq_false_iff]
    by_cases hz : zones.getLsbD z.val = true
    · refine .inr (Bool.eq_false_iff.mpr fun htakes => ?_)
      obtain ⟨hroom, hevict⟩ := h z hz
      obtain htakes | ⟨hsafety, v, hv⟩ := (zoneTakes_iff hnew safety z).mp htakes
      · exact hroom htakes
      · exact hevict hsafety v hv
    · exact .inl (decide_eq_false (by rw [mem_zonesOf]; exact hz))

/-- The zones of a newcomer's answer. -/
theorem claims_taken_iff {c : Claim} {safety : Bool} {zones : ZoneMask} (hnew : Newcomer c s)
    (hlive : s.smp.dev.live = true) (z : Fin 16) :
    ((claimZones c safety (zonesOf zones) s).1.taken.getLsbD z.val = true ↔ zones.getLsbD z.val = true ∧
      (ZoneTakes s z ∨ (safety = true ∧ ∃ v, EvictedFrom s z v))) ∧
    ((claimZones c safety (zonesOf zones) s).1.refused.getLsbD z.val = true ↔ zones.getLsbD z.val = true ∧
      ¬(ZoneTakes s z ∨ (safety = true ∧ ∃ v, EvictedFrom s z v))) := by
  have hmade := claimZones_made c safety zones hlive
  have hzero : (0 : ZoneMask).getLsbD z.val = false := BitVec.getLsbD_zero
  rw [hmade.taken z, hmade.refused z, hzero, Bool.false_or, Bool.false_or, Bool.and_eq_true, Bool.and_eq_true,
    decide_eq_true_iff, mem_zonesOf, Bool.not_eq_true', ← Bool.not_eq_true, zoneTakes_iff hnew]
  exact ⟨Iff.rfl, Iff.rfl⟩

/-! ## What the command leaves in its record -/

theorem exec_playClip (h : Handover) (p : ClipPayload) (s : State) :
    exec (.playClip h p) s = .next (writeHandover h (takeClip h RunSlots.none p s)) := rfl

theorem exec_postMessage (h : Handover) (p : MessagePayload) (s : State) :
    exec (.postMessage h p) s = .next (writeHandover h (takeMessage h RunSlots.none p s)) := rfl

/-- The status and the zones that a taking without effect writes. -/
def Taking.answers (tk : Taking) (status : Status) (zones : ZoneMask) : Prop :=
  tk = .refused status zones ∨ tk = .done status ∧ zones = 0

theorem writeTaking_of_answers {tk : Taking} {status : Status} {zones : ZoneMask} (h : tk.answers status zones) (i : Nat)
    (late : Bool) (s : State) :
    writeTaking i late tk s = writeDone i (takenResult s.ftu.frame late status zones) s := by
  obtain rfl | ⟨rfl, rfl⟩ := h <;> rfl

theorem writeHandover_refused {r : Taking × State} {status : Status} {zones : ZoneMask} (hinside : CueListInside s) (i : Nat)
    (late : Bool) (hstate : r.2 = s) (h : r.1.answers status zones) :
    ChangesOnly [.mem, .events] s (writeHandover ⟨.cue i, late⟩ r) ∧
    RecordWritten s (writeHandover ⟨.cue i, late⟩ r) i (takenResult s.ftu.frame late status zones) 3 := by
  have heq : writeHandover ⟨.cue i, late⟩ r = writeDone i (takenResult s.ftu.frame late status zones) s := by
    obtain ⟨tk, u⟩ := r
    dsimp only at hstate h
    subst hstate
    exact writeTaking_of_answers h i late u
  rw [heq]
  exact ⟨writeDone_then _ _ (.refl _ _) rfl, writeDone_recordWritten hinside _⟩

/-- The record of an accepted action whose owner wrote no memory. -/
theorem writeHandover_accepted {zones : ZoneMask} (hinside : CueListInside s) (i : Nat) (late : Bool)
    (hframe : ChangesOnly [.zar, .cle, .msu] s u) :
    RecordWritten s (writeHandover ⟨.cue i, late⟩ (.accepted zones, u)) i (acceptedResult s.ftu.frame late zones) 2 := by
  have hciu : u.ciu = s.ciu := hframe .ciu rfl
  have hftu : u.ftu = s.ftu := hframe .ftu rfl
  have heq : writeHandover ⟨.cue i, late⟩ (.accepted zones, u) =
      writeCue i (acceptedResult s.ftu.frame late zones) 2 u := by
    rw [← hftu]
    rfl
  rw [heq, ← recordWritten_congr (hframe .mem rfl) (hframe .events rfl) (hframe.inForce rfl) hciu]
  exact writeCue_recordWritten (by unfold CueListInside; rw [hciu]; exact hinside) _ (by decide)

theorem writeHandover_accepted_frame {zones : ZoneMask} {h : Handover} {i : Nat} (horigin : h.origin = .cue i) (u : State) :
    ChangesOnly [.mem] u (writeHandover h (.accepted zones, u)) := by
  unfold writeHandover
  rw [horigin]
  exact writeCue_then _ _ _ (.refl _ _) rfl

/-- Settles O21. -/
theorem clipAndMessageRefusedInOrder : Obligations.ClipAndMessageRefusedInOrder := by
  refine ⟨fun i late p status zones s hinside hcases => ?_, fun i late p status zones s hinside hcases => ?_⟩
  · refine ⟨_, exec_playClip _ _ _, ?_⟩
    have hvalues : (p.zones = 0 ∨ p.width = 0 ∨ 3840 < p.width.toNat ∨ p.height = 0 ∨ 1152 < p.height.toNat ∨
        p.count = 0 ∨ 1 < p.endBehaviour.toNat ∨ p.base.toNat % 4 ≠ 0 ∨ p.pitch.toNat % 4 ≠ 0) ↔
        clipValuesOk p = false := by
      rw [← Bool.not_eq_true, clipValuesOk_iff]
      have hw : p.width = 0 ↔ ¬1 ≤ p.width.toNat := by bv_omega
      have hh : p.height = 0 ↔ ¬1 ≤ p.height.toNat := by bv_omega
      rw [hw, hh]
      have h1 : ¬p.zones ≠ 0 ↔ p.zones = 0 := not_not
      have h2 : ¬p.count ≠ 0 ↔ p.count = 0 := not_not
      simp only [not_and_or, h1, h2, Nat.not_le]
    have hregion : (2 ^ 32 < p.base.toNat + ((p.count.toNat - 1) * p.pitch.toNat + p.width.toNat * p.height.toNat * 4)) ↔
        clipRegionOk p = false := by
      rw [← Bool.not_eq_true, clipRegionOk_iff, Nat.not_le]
    have htagged : (¬∃ k : Fin 8, (s.cle.slots[k].state = .playing ∨ s.cle.slots[k].state = .held) ∧
        s.cle.slots[k].tag = p.tag) → clipWithTag s.cle p.tag = none := fun h =>
      clipWithTag_of_none fun k hw htag => h ⟨k, (clip_working_iff _).mp hw, htag⟩
    dsimp only at hcases
    rw [hvalues, hregion, Bool.not_eq_false, Bool.not_eq_false] at hcases
    obtain ⟨hgate, rfl, rfl⟩ | ⟨hgate, rfl, rfl⟩ | ⟨hgate, hcases⟩ := hcases
    · exact writeHandover_refused hinside i late (by rw [takeClip_of_halted hgate]) (by
        rw [takeClip_of_halted hgate]; exact .inr ⟨rfl, rfl⟩)
    · exact writeHandover_refused hinside i late (by rw [takeClip_of_fallback hgate]) (by
        rw [takeClip_of_fallback hgate]; exact .inr ⟨rfl, rfl⟩)
    suffices h : takeClip ⟨.cue i, late⟩ RunSlots.none p s = (.refused status zones, s) from
      writeHandover_refused hinside i late (by rw [h]) (by rw [h]; exact .inl rfl)
    obtain ⟨hv, rfl, rfl⟩ | ⟨hv, hr, rfl, rfl⟩ | ⟨hv, hr, ⟨k, hstate, htag⟩, rfl, rfl⟩ | ⟨hv, hr, htag, hslot, rfl, rfl⟩ |
      ⟨hv, hr, htag, hslot, hfree, hzones, rfl, rfl⟩ := hcases
    · exact takeClip_badValue hgate hv
    · exact takeClip_badRegion hgate hv hr
    · refine takeClip_tagInUse hgate hv hr ?_
      rw [clipWithTag, List.find?_isSome]
      exact ⟨k, List.mem_finRange k, by rw [(clip_working_iff _).mpr hstate, htag, beq_self_eq_true]; rfl⟩
    · exact takeClip_noSlot hgate hv hr (htagged htag) (idleClip_of_none hslot)
    · cases hidle : idleClip s.cle RunSlots.none.clips with
      | none =>
        refine absurd (fun k hk => ?_) hslot
        have := List.find?_eq_none.mp hidle k (List.mem_finRange k)
        rw [hk] at this
        exact this rfl
      | some k =>
        rw [takeClip_of_slot hgate hv hr (htagged htag) hidle, if_pos]
        refine claims_taken_eq_zero (fun z => hfree z k (idleClip_state hidle)) ?_
        exact hzones.imp id fun h z hz => ⟨h z hz, fun hs => nomatch hs⟩
  · refine ⟨_, exec_postMessage _ _ _, ?_⟩
    have hvalues : (p.zones = 0 ∨ 1 < p.cls.toNat ∨ 1 < p.mode.toNat ∨ p.textLength = 0 ∨ 120 < p.textLength.toNat) ↔
        messageValuesOk p = false := by
      rw [← Bool.not_eq_true, messageValuesOk_iff]
      have hl : p.textLength = 0 ↔ ¬1 ≤ p.textLength.toNat := by bv_omega
      rw [hl]
      have h1 : ¬p.zones ≠ 0 ↔ p.zones = 0 := not_not
      simp only [not_and_or, h1, Nat.not_le]
    have hregion : (2 ^ 32 < p.textOffset.toNat + p.textLength.toNat) ↔ messageRegionOk p = false := by
      rw [← Bool.not_eq_true, messageRegionOk_iff, Nat.not_le]
    have htagged : (¬∃ k : Fin 8, s.msu.slots[k].state = .showing ∧ s.msu.slots[k].tag = p.tag) →
        messageWithTag s.msu p.tag = none := fun h =>
      messageWithTag_of_none fun k hw htag => h ⟨k, (message_working_iff _).mp hw, htag⟩
    dsimp only at hcases
    rw [hvalues, hregion, Bool.not_eq_false, Bool.not_eq_false] at hcases
    obtain ⟨hhalt, rfl, rfl⟩ | ⟨hhalt, hcases⟩ := hcases
    · exact writeHandover_refused hinside i late (by rw [takeMessage_of_halted hhalt]) (by
        rw [takeMessage_of_halted hhalt]; exact .inr ⟨rfl, rfl⟩)
    suffices h : takeMessage ⟨.cue i, late⟩ RunSlots.none p s = (.refused status zones, s) from
      writeHandover_refused hinside i late (by rw [h]) (by rw [h]; exact .inl rfl)
    obtain ⟨hv, rfl, rfl⟩ | ⟨hv, hr, rfl, rfl⟩ | ⟨hv, hr, htag, hslot, rfl, rfl⟩ |
      ⟨hv, hr, htag, hslot, hfree, hzones, rfl, rfl⟩ := hcases
    · exact takeMessage_badValue hhalt hv
    · exact takeMessage_badRegion hhalt hv hr
    · exact takeMessage_noSlot hhalt hv hr (htagged htag) (idleMessage_of_none hslot)
    · cases hidle : idleMessage s.msu RunSlots.none.messages with
      | none =>
        refine absurd (fun k hk => ?_) hslot
        have := List.find?_eq_none.mp hidle k (List.mem_finRange k)
        rw [hk] at this
        exact this rfl
      | some k =>
        rw [takeMessage_of_slot hhalt hv hr (htagged htag) hidle, if_pos]
        refine claims_taken_eq_zero (fun z => hfree z k (idleMessage_state hidle)) ?_
        exact hzones.imp id fun h z hz => ⟨(h z hz).1, fun hs => (h z hz).2 (beq_iff_eq.mp hs)⟩

end Sys2Proof.Machine
end

section
/-! SUPPORT. An accepted PLAY_CLIP and an accepted ordinary POST_MESSAGE: the slot, the zones that take it and the heads that it
passes (R65 to R68, R91, R93, R110). -/

namespace Sys2Proof.Machine

variable {s t u : State}

theorem newcomer_of_clip {k : Fin 8} {c : Claim} (hwho : c.who = .clip k)
    (h : ∀ z : Fin 16, holdsIn (.clip k) (claimsAt s.zar z) = false) : Newcomer c s := fun z => by
  rw [hwho]
  exact h z

theorem newcomer_of_message {k : Fin 8} {c : Claim} (hwho : c.who = .message k)
    (h : ∀ z : Fin 16, holdsIn (.message k) (claimsAt s.zar z) = false) : Newcomer c s := fun z => by
  rw [hwho]
  exact h z

theorem mask_ne_zero {m : ZoneMask} (z : Fin 16) (h : m.getLsbD z.val = true) : m ≠ 0 := by
  rintro rfl
  exact absurd (h.symm.trans BitVec.getLsbD_zero) (by decide)

/-- The zones, the answer and the lists of an accepted ordinary newcomer. -/
theorem ordinary_zone {c : Claim} {zones : ZoneMask} (hnew : Newcomer c s) (hlive : s.smp.dev.live = true) (z : Fin 16) :
    ((claimZones c false (zonesOf zones) s).1.taken.getLsbD z.val = true ↔ zones.getLsbD z.val = true ∧ ZoneTakes s z) ∧
    ((claimZones c false (zonesOf zones) s).1.refused.getLsbD z.val = true ↔
      zones.getLsbD z.val = true ∧ ¬ZoneTakes s z) ∧
    claimsAt (claimZones c false (zonesOf zones) s).2.zar z =
      if (claimZones c false (zonesOf zones) s).1.taken.getLsbD z.val then withClaim c (claimsAt s.zar z)
      else claimsAt s.zar z := by
  obtain ⟨htaken, hrefused⟩ := claims_taken_iff (safety := false) (zones := zones) hnew hlive z
  have hnot : ¬(false = true ∧ ∃ v, EvictedFrom s z v) := fun h => nomatch h.1
  rw [or_iff_left hnot] at htaken hrefused
  refine ⟨htaken, hrefused, ?_⟩
  rw [(claimZones_made c false zones hlive).claimsAt z]
  by_cases h : (claimZones c false (zonesOf zones) s).1.taken.getLsbD z.val = true
  · rw [if_pos h, if_pos h]
    obtain ⟨e, he, hroom⟩ := (htaken.mp h).2
    have hclaims : claimsAt s.zar z = e.claims := claimsAt_eq he
    exact claimedList_of_room (hnew z) (by rw [hclaims]; exact (fullList_eq_false_iff _).mpr hroom)
  · rw [if_neg h, if_neg h]

theorem ordinary_made (c : Claim) (zones : ZoneMask) (hlive : s.smp.dev.live = true) :
    OrdinaryMade c (zonesOf zones) s (claimZones c false (zonesOf zones) s).2 :=
  ordinarySteps_made c _ (zonesOf_nodup zones) (⟨0, 0⟩, s) hlive

theorem OrdinaryMade.clip_kept {c : Claim} {zs : List (Fin 16)} (h : OrdinaryMade c zs s t) (j : Fin 8) :
    { t.cle.slots[j] with preempted := s.cle.slots[j].preempted } = s.cle.slots[j] := by
  rw [h.clips j]
  split
  · exact (clip_preempt_shape _).2
  · rfl

theorem OrdinaryMade.message_kept {c : Claim} {zs : List (Fin 16)} (h : OrdinaryMade c zs s t) (j : Fin 8) :
    { t.msu.slots[j] with preempted := s.msu.slots[j].preempted } = s.msu.slots[j] := by
  rw [h.messages j]
  split
  · exact (message_preempt_shape _).2
  · rfl

/-- Settles O22. -/
theorem playClipAcceptedPlays : Obligations.PlayClipAcceptedPlays := by
  intro i late p k s hinside hgate hz hw1 hw2 hh1 hh2 hcount hend hbase hpitch hregion htag hidle hfirst hlive hfree hsome
  have hvalues : clipValuesOk p = true := (clipValuesOk_iff p).mpr ⟨hz, hw1, hw2, hh1, hh2, hcount, hend, hbase, hpitch⟩
  have hnew : Newcomer (clipClaim k p) s := newcomer_of_clip rfl hfree
  have hzone := ordinary_zone (zones := p.zones) hnew hlive
  have hclaims := claimZones_made (clipClaim k p) false p.zones hlive
  have hmade := ordinary_made (clipClaim k p) p.zones hlive
  have htake := takeClip_of_slot (h := ⟨.cue i, late⟩) (kept := RunSlots.none) hgate hvalues ((clipRegionOk_iff p).mpr hregion)
    (clipWithTag_of_none fun j hw => htag j ((clip_working_iff _).mp hw)) (idleClip_of_first hidle hfirst)
  obtain ⟨z0, hz0, htakes0⟩ := hsome
  rw [if_neg (mask_ne_zero z0 ((hzone z0).1.mpr ⟨hz0, htakes0⟩))] at htake
  refine ⟨_, exec_playClip _ _ _, ?_⟩
  rw [htake]
  generalize claimZones (clipClaim k p) false (zonesOf p.zones) s = r at hzone hclaims hmade
  have hframe : ChangesOnly [.zar, .cle, .msu] s
      (onClip k (fun _ => newClip p ⟨.cue i, late⟩ r.1 s.ftu.frame s.smp.anchorEpoch) r.2) :=
    onClip_then _ _ hmade.frame rfl
  have hrecord := writeHandover_accepted (zones := r.1.refused) hinside i late hframe
  have hwritten := writeHandover_accepted_frame (h := ⟨.cue i, late⟩) (zones := r.1.refused) rfl
    (onClip k (fun _ => newClip p ⟨.cue i, late⟩ r.1 s.ftu.frame s.smp.anchorEpoch) r.2)
  generalize writeHandover ⟨.cue i, late⟩ (Taking.accepted r.1.refused,
    onClip k (fun _ => newClip p ⟨.cue i, late⟩ r.1 s.ftu.frame s.smp.anchorEpoch) r.2) = t at hrecord hwritten
  have hcle : t.cle = (onClip k (fun _ => newClip p ⟨.cue i, late⟩ r.1 s.ftu.frame s.smp.anchorEpoch) r.2).cle :=
    hwritten .cle rfl
  have hzar : t.zar = r.2.zar := hwritten .zar rfl
  have hmsu : t.msu = r.2.msu := hwritten .msu rfl
  have hslot : t.cle.slots[k] = newClip p ⟨.cue i, late⟩ r.1 s.ftu.frame s.smp.anchorEpoch := by
    rw [hcle, onClip_get, if_pos rfl]
  have hother : ∀ j : Fin 8, j ≠ k → t.cle.slots[j] = r.2.cle.slots[j] := fun j hj => by
    rw [hcle, onClip_get, if_neg hj]
  refine ⟨⟨?_, fun z => ?_, ?_⟩, ?_, fun j hj => ?_, fun j => ?_, ?_, ?_, ?_, (hframe.mono rfl).trans (hwritten.mono rfl)⟩
  · rw [hslot]
    rfl
  · rw [hslot, hzar]
    exact hzone z
  · rw [hslot]
    exact hrecord
  · exact ordinary_preemptsHeads hnew hclaims hmade hzar (fun j hj => hother j fun h => hj (by rw [h]; rfl))
      fun j _ => by rw [hmsu]
  · rw [hother j hj]
    exact hmade.clip_kept j
  · rw [hmsu]
    exact hmade.message_kept j
  · rw [hcle]
    exact hmade.gate
  · rw [hzar]
    exact hclaims.banks
  · rw [hzar]
    exact hclaims.selector

/-! ## The content of a message -/

theorem foldl_max_filter {α : Type} (l : List α) (p : α → Bool) (f : α → Nat) (n : Nat) :
    ((l.filter p).map f).foldl max n = (l.map fun x => if p x then f x else 0).foldl max n := by
  induction l generalizing n with
  | nil => rfl
  | cons x l ih =>
    rw [List.filter_cons, List.map_cons, List.foldl_cons]
    cases p x with
    | true => exact ih _
    | false => simpa using ih n

/-- The widest of the zones, where the request left every zone its definition. -/
theorem widestZone_eq {zones : ZoneMask}
    (h : ∀ i : Fin 16, (u.zar.table[i].map ZoneEntry.defn) = s.zar.table[i].map ZoneEntry.defn) :
    widestZone u.zar zones = widestOf s zones := by
  unfold widestZone widestOf zonesOf
  rw [foldl_max_filter]
  refine congrArg (fun l => List.foldl max 0 l) (List.map_congr_left fun z _ => ?_)
  have hwidth : (u.zar.table[z].map fun e => e.defn.width) = s.zar.table[z].map fun e => e.defn.width := by
    have := congrArg (Option.map ZoneDef.width) (h z)
    rwa [Option.map_map, Option.map_map] at this
  rw [hwidth]

/-- A new message but for its extent and its span, which are measured in the present memory. -/
theorem newMessage_shape (p : MessagePayload) (h : Handover) (a : ClaimAnswer) (hframe : u.ftu = s.ftu)
    (hepoch : u.smp.anchorEpoch = s.smp.anchorEpoch) (hclo : u.clo = s.clo) :
    ((newMessage p a).withContent p u).withOrigin h a.refused u =
      { postedMessage s p h.origin h.late (messageClaim 0 p).level a.taken a.refused with
        textWidth := extentWidth u.mem s.clo.fontOffset.toNat (textCodes u.mem p.textOffset.toNat p.textLength.toNat)
        textHeight := extentHeight u.mem s.clo.fontOffset.toNat (textCodes u.mem p.textOffset.toNat p.textLength.toNat)
        crawlSpan := widestZone u.zar a.taken +
          extentWidth u.mem s.clo.fontOffset.toNat (textCodes u.mem p.textOffset.toNat p.textLength.toNat) } := by
  have hlevel : (messageClaim 0 p).level = if p.cls = 1 then 0 else clampNat 1 5 p.level.toNat := by
    simp [messageClaim]
  rw [hlevel]
  unfold MessageSlot.withContent MessageSlot.withOrigin postedMessage newMessage MessageSlot.cleared
  rw [hframe, hepoch, hclo]

theorem newMessage_posted (p : MessagePayload) (h : Handover) (a : ClaimAnswer) (hframe : u.ftu = s.ftu)
    (hepoch : u.smp.anchorEpoch = s.smp.anchorEpoch) (hclo : u.clo = s.clo) (hmem : u.mem = s.mem)
    (hdefn : ∀ i : Fin 16, (u.zar.table[i].map ZoneEntry.defn) = s.zar.table[i].map ZoneEntry.defn) :
    ((newMessage p a).withContent p u).withOrigin h a.refused u =
      postedMessage s p h.origin h.late (messageClaim 0 p).level a.taken a.refused := by
  rw [newMessage_shape p h a hframe hepoch hclo, widestZone_eq hdefn, hmem]
  rfl

theorem ClaimsMade.defn {c : Claim} {safety : Bool} {zs : List (Fin 16)} {acc r : ClaimAnswer × State}
    (h : ClaimsMade c safety zs acc r) (i : Fin 16) :
    (r.2.zar.table[i].map ZoneEntry.defn) = acc.2.zar.table[i].map ZoneEntry.defn := by
  rw [h.table i]
  split
  · rw [Option.map_map]
    rfl
  · rfl

/-- An accepted ordinary POST_MESSAGE. -/
theorem postMessage_ordinary (i : Nat) (late : Bool) (p : MessagePayload) (k : Fin 8) (s : State)
    (hinside : CueListInside s) (hhalt : s.msu.afterHalt = false) (hz : p.zones ≠ 0) (hcls : p.cls = 0)
    (hmode : p.mode.toNat ≤ 1) (hlength1 : 1 ≤ p.textLength.toNat) (hlength2 : p.textLength.toNat ≤ 120)
    (hregion : p.textOffset.toNat + p.textLength.toNat ≤ 2 ^ 32)
    (htag : ∀ j : Fin 8, s.msu.slots[j].state = .showing → s.msu.slots[j].tag ≠ p.tag)
    (hidle : s.msu.slots[k].state = .idle) (hfirst : ∀ j : Fin 8, j < k → s.msu.slots[j].state ≠ .idle)
    (hlive : s.smp.dev.live = true) (hfree : ∀ z : Fin 16, holdsIn (.message k) (claimsAt s.zar z) = false)
    (hsome : ∃ z : Fin 16, p.zones.getLsbD z.val = true ∧ ZoneTakes s z) :
    ∃ t, exec (.postMessage ⟨.cue i, late⟩ p) s = .next t ∧
      (let m := t.msu.slots[k]
       m = postedMessage s p (.cue i) late (max 1 (min 5 p.level.toNat)) m.holdings m.refused ∧
       (∀ z : Fin 16, (m.holdings.getLsbD z.val = true ↔ p.zones.getLsbD z.val = true ∧ ZoneTakes s z) ∧
         (m.refused.getLsbD z.val = true ↔ p.zones.getLsbD z.val = true ∧ ¬ZoneTakes s z) ∧
         claimsAt t.zar z =
           (if m.holdings.getLsbD z.val then withClaim ⟨.message k, m.level⟩ (claimsAt s.zar z)
            else claimsAt s.zar z)) ∧
       RecordWritten s t i (acceptedResult s.ftu.frame late m.refused) 2) ∧
      PreemptsHeads s t (.message k) ∧
      (∀ j : Fin 8, j ≠ k →
        { t.msu.slots[j] with preempted := s.msu.slots[j].preempted } = s.msu.slots[j]) ∧
      (∀ j : Fin 8, { t.cle.slots[j] with preempted := s.cle.slots[j].preempted } = s.cle.slots[j]) ∧
      ChangesOnly [.mem, .events, .zar, .cle, .msu] s t := by
  have hvalues : messageValuesOk p = true :=
    (messageValuesOk_iff p).mpr ⟨hz, by rw [hcls]; decide, hmode, hlength1, hlength2⟩
  have hordinary : (p.cls == 1) = false := by rw [hcls]; decide
  have hnew : Newcomer (messageClaim k p) s := newcomer_of_message rfl hfree
  have hzone := ordinary_zone (zones := p.zones) hnew hlive
  have hclaims := claimZones_made (messageClaim k p) false p.zones hlive
  have hmade := ordinary_made (messageClaim k p) p.zones hlive
  have htake := takeMessage_of_slot (h := ⟨.cue i, late⟩) (kept := RunSlots.none) hhalt hvalues
    ((messageRegionOk_iff p).mpr hregion) (messageWithTag_of_none fun j hw => htag j ((message_working_iff _).mp hw))
    (idleMessage_of_first hidle hfirst)
  have hlevel : (messageClaim k p).level = max 1 (min 5 p.level.toNat) := if_neg (by rw [hordinary]; decide)
  rw [show messageClaims k p s = claimZones (messageClaim k p) false (zonesOf p.zones) s by
    rw [messageClaims, hordinary]] at htake
  obtain ⟨z0, hz0, htakes0⟩ := hsome
  rw [if_neg (mask_ne_zero z0 ((hzone z0).1.mpr ⟨hz0, htakes0⟩))] at htake
  refine ⟨_, exec_postMessage _ _ _, ?_⟩
  rw [htake]
  generalize claimZones (messageClaim k p) false (zonesOf p.zones) s = r at hzone hclaims hmade
  have hposted := newMessage_posted (u := r.2) (s := s) p ⟨.cue i, late⟩ r.1 (hmade.frame .ftu rfl)
    (hmade.frame.epoch rfl) (hmade.frame .clo rfl) (hmade.frame .mem rfl) hclaims.defn
  rw [hposted]
  generalize hm : postedMessage s p (Handover.mk (.cue i) late).origin (Handover.mk (.cue i) late).late (messageClaim 0 p).level
    r.1.taken r.1.refused = m
  have hframe : ChangesOnly [.zar, .cle, .msu] s (onMessage k (fun _ => m) r.2) := onMessage_then _ _ hmade.frame rfl
  have hrecord := writeHandover_accepted (zones := r.1.refused) hinside i late hframe
  have hwritten := writeHandover_accepted_frame (h := ⟨.cue i, late⟩) (zones := r.1.refused) rfl (onMessage k (fun _ => m) r.2)
  generalize writeHandover ⟨.cue i, late⟩ (Taking.accepted r.1.refused, onMessage k (fun _ => m) r.2) = t at hrecord hwritten
  have hmsu : t.msu = (onMessage k (fun _ => m) r.2).msu := hwritten .msu rfl
  have hzar : t.zar = r.2.zar := hwritten .zar rfl
  have hcle : t.cle = r.2.cle := hwritten .cle rfl
  have hslot : t.msu.slots[k] = m := by rw [hmsu, onMessage_get, if_pos rfl]
  have hother : ∀ j : Fin 8, j ≠ k → t.msu.slots[j] = r.2.msu.slots[j] := fun j hj => by
    rw [hmsu, onMessage_get, if_neg hj]
  rw [hslot, ← hm]
  refine ⟨⟨?_, fun z => ?_, hrecord⟩, ?_, fun j hj => ?_, fun j => ?_, (hframe.mono rfl).trans (hwritten.mono rfl)⟩
  · rw [← hlevel]
    rfl
  · rw [hzar]
    exact hzone z
  · exact ordinary_preemptsHeads hnew hclaims hmade hzar (fun j _ => by rw [hcle])
      fun j hj => hother j fun h => hj (by rw [h]; rfl)
  · rw [hother j hj]
    exact hmade.message_kept j
  · rw [hcle]
    exact hmade.clip_kept j

end Sys2Proof.Machine
end

section
/-! SUPPORT. A re-post of a message (R111, R116), and the action that a trigger entry hands over (R106, R112, R173). -/

namespace Sys2Proof.Machine

variable {s t u : State}

/-! ## A re-post -/

theorem postedFont_lt {m : Memory} {offset length code : Nat} (h : code ∈ textCodes m offset length) : code < 256 := by
  unfold textCodes at h
  obtain ⟨i, -, rfl⟩ := List.mem_map.mp h
  exact (m.get (offset + i)).isLt

theorem textCodes_congr {m n : Memory} {offset length : Nat}
    (h : ∀ a, offset ≤ a → a < offset + length → m.get a = n.get a) : textCodes m offset length = textCodes n offset length :=
  List.map_congr_left fun i hi => by rw [h (offset + i) (by omega) (by have := List.mem_range.mp hi; omega)]

theorem glyphWord_congr {m n : Memory} {font code : Nat} (hcode : code < 256)
    (h : ∀ a, font ≤ a → a < font + 50176 → m.get a = n.get a) :
    m.word (glyphOffset font code) = n.word (glyphOffset font code) :=
  Memory.word_congr fun a hle hlt => by
    unfold glyphOffset at hle hlt
    exact h a (by omega) (by omega)

/-- The extent of a text is read from its bytes and its glyphs alone. -/
theorem extent_congr {m n : Memory} {font offset length : Nat}
    (htext : ∀ a, offset ≤ a → a < offset + length → m.get a = n.get a)
    (hfont : ∀ a, font ≤ a → a < font + 50176 → m.get a = n.get a) :
    extentWidth m font (textCodes m offset length) = extentWidth n font (textCodes n offset length) ∧
    extentHeight m font (textCodes m offset length) = extentHeight n font (textCodes n offset length) := by
  rw [textCodes_congr htext]
  constructor
  · refine congrArg List.sum (List.map_congr_left fun code hcode => ?_)
    unfold glyphWidth
    rw [glyphWord_congr (postedFont_lt hcode) hfont]
  · refine congrArg (fun l => List.foldl max 0 l) (List.map_congr_left fun code hcode => ?_)
    unfold glyphHeight
    rw [glyphWord_congr (postedFont_lt hcode) hfont]

/-- A replaced message but for its extent and its span. -/
theorem repost_shape (m : MessageSlot) (p : MessagePayload) (h : Handover) (hstate : m.state = .showing)
    (htag : m.tag = p.tag) (hframe : u.ftu = s.ftu) (hepoch : u.smp.anchorEpoch = s.smp.anchorEpoch) (hclo : u.clo = s.clo) :
    (m.withContent p u).withOrigin h 0 u =
      { postedMessage s p h.origin h.late m.level m.holdings 0 with
        safety := m.safety, outstanding := m.outstanding, status := m.status, endFrame := m.endFrame,
        textWidth := extentWidth u.mem s.clo.fontOffset.toNat (textCodes u.mem p.textOffset.toNat p.textLength.toNat),
        textHeight := extentHeight u.mem s.clo.fontOffset.toNat (textCodes u.mem p.textOffset.toNat p.textLength.toNat),
        crawlSpan := widestZone u.zar m.holdings +
          extentWidth u.mem s.clo.fontOffset.toNat (textCodes u.mem p.textOffset.toNat p.textLength.toNat) } := by
  unfold MessageSlot.withContent MessageSlot.withOrigin postedMessage
  rw [hframe, hepoch, hclo, ← htag, ← hstate]

/-- Settles O24. -/
theorem repostReplacesMessage : Obligations.RepostReplacesMessage := by
  intro i j late p k s hinside hhalt hz hcls hmode hlength1 hlength2 hregion hstate htag hfirst horigin hepoch hforce hi hj hij
  have hvalues := (messageValuesOk_iff p).mpr ⟨hz, hcls, hmode, hlength1, hlength2⟩
  have htake := takeMessage_of_repost (h := ⟨.cue i, late⟩) (kept := RunSlots.none) hhalt hvalues
    ((messageRegionOk_iff p).mpr hregion) (messageWithTag_of_first (working_of_showing hstate) htag
      fun l hl hw => hfirst l hl ((message_working_iff _).mp hw))
  have hcompleted : completeOrigin s.msu.slots[k] .replaced s.ftu.frame s =
      writeDone j (s.msu.slots[k].result .replaced s.ftu.frame) s := by
    unfold completeOrigin
    rw [horigin]
    exact completeCue_of_epoch hepoch j _
  refine ⟨_, exec_postMessage _ _ _, ?_⟩
  rw [htake, repost, hcompleted]
  have hold := writeDone_recordWritten (i := j) hinside (s.msu.slots[k].result .replaced s.ftu.frame)
  have hframe := writeDone_then j (s.msu.slots[k].result .replaced s.ftu.frame) (ChangesOnly.refl [.mem, .events] s) rfl
  generalize writeDone j _ s = v at hold hframe
  obtain ⟨hreads, houtside, hevents⟩ := (if_pos (⟨hforce, hj⟩ : s.smp.inForce = true ∧ j < s.ciu.listLength)).mp hold
  have hciu : v.ciu = s.ciu := hframe .ciu rfl
  have hftu : v.ftu = s.ftu := hframe .ftu rfl
  have hvmsu : v.msu = s.msu := hframe .msu rfl
  have hshape := repost_shape (u := v) (s := s) s.msu.slots[k] p ⟨.cue i, late⟩ hstate htag hftu (hframe.epoch rfl)
    (hframe .clo rfl)
  generalize hn : (s.msu.slots[k].withContent p v).withOrigin ⟨.cue i, late⟩ 0 v = n at hshape
  have hput : onMessage k (fun m => (m.withContent p v).withOrigin ⟨.cue i, late⟩ 0 v) v = onMessage k (fun _ => n) v :=
    congrArg (fun x => ({ v with msu := { v.msu with slots := x } } : State)) (upd_congr (by rw [hvmsu]; exact hn))
  dsimp only
  rw [hput]
  have hwritten := writeHandover_accepted_frame (h := ⟨.cue i, late⟩) (zones := 0) rfl (onMessage k (fun _ => n) v)
  have heq : writeHandover ⟨.cue i, late⟩ (Taking.accepted 0, onMessage k (fun _ => n) v) =
      writeCue i (acceptedResult s.ftu.frame late 0) 2 (onMessage k (fun _ => n) v) := by
    rw [← hftu]
    rfl
  have hput' : ∀ a, ¬ResultByte s i a → (writeCue i (acceptedResult s.ftu.frame late 0) 2
      (onMessage k (fun _ => n) v)).mem.get a = v.mem.get a := fun a ha =>
    writeCue_get_outside (s := onMessage k (fun _ => n) v) (by unfold ResultByte cueOffset; rw [onMessage_ciu, hciu]; exact ha)
      _ _
  have hnew : RecordReads s (writeCue i (acceptedResult s.ftu.frame late 0) 2 (onMessage k (fun _ => n) v)) i
      (acceptedResult s.ftu.frame late 0) 2 := by
    rw [← recordReads_congr (u := onMessage k (fun _ => n) v) hciu]
    exact writeCue_recordReads (s := onMessage k (fun _ => n) v)
      (by unfold CueListInside; rw [onMessage_ciu, hciu]; exact hinside)
      ((hframe.inForce rfl).trans hforce) (by rw [onMessage_ciu, hciu]; exact hi) _ _
  rw [heq] at hwritten ⊢
  generalize writeCue i (acceptedResult s.ftu.frame late 0) 2 (onMessage k (fun _ => n) v) = t at hwritten hput' hnew
  have hmsu : t.msu = (onMessage k (fun _ => n) v).msu := hwritten .msu rfl
  have hslot : t.msu.slots[k] = n := by rw [hmsu, onMessage_get, if_pos rfl]
  have happart : ∀ a, cueOffset s j ≤ a → a < cueOffset s j + 64 → ¬ResultByte s i a := fun a hle hlt => by
    unfold ResultByte cueOffset at *
    omega
  have hclear : ∀ offset bytes, ClearOfList s offset bytes → ∀ a, offset ≤ a → a < offset + bytes →
      v.mem.get a = s.mem.get a := fun offset bytes hclear a hle hlt => houtside a (by
    have hc : offset + bytes ≤ s.ciu.listOffset.toNat ∨ s.ciu.listOffset.toNat + 64 * s.ciu.listLength ≤ offset := hclear
    unfold ResultByte cueOffset
    omega)
  rw [hslot]
  refine ⟨⟨?_, fun htext hfont => ?_, hnew, hreads.of_get fun a hle hlt => hput' a (happart a hle hlt)⟩, ?_, ?_,
    fun l hl => ?_, (hframe.mono rfl).trans ((onMessage_then k _ (.refl [.msu] v) rfl).mono rfl |>.trans
      (hwritten.mono rfl)), fun a hia hja => ?_⟩
  · rw [hshape]
  · obtain ⟨hwidth, hheight⟩ := extent_congr (m := v.mem) (n := s.mem) (hclear _ _ htext) (hclear _ _ hfont)
    rw [hshape, hwidth, hheight, widestZone_eq (s := s) (u := v) fun z => by rw [show v.zar = s.zar from hframe .zar rfl]]
    rfl
  · rw [show t.smp.events = v.smp.events from hwritten .events rfl, hevents]
    rfl
  · rw [show t.zar = v.zar from hwritten .zar rfl]
    exact hframe .zar rfl
  · rw [hmsu, onMessage_get, if_neg hl, hvmsu]
  · rw [hput' a hia, houtside a hja]

theorem ChangesOnly.symm {ps : List Part} (h : ChangesOnly ps s t) : ChangesOnly ps t s := fun p hp => by
  have hsame := h p hp
  cases p <;> exact Eq.symm hsame

/-! ## The events that a taking raises -/

/-- No event is raised but that of cue records. -/
def MarksDone (s t : State) : Prop := t.smp.events ||| 0x001#10 = s.smp.events ||| 0x001#10

theorem MarksDone.of_same (h : t.smp.events = s.smp.events) : MarksDone s t := by rw [MarksDone, h]

theorem MarksDone.trans (h : MarksDone s t) (k : MarksDone t u) : MarksDone s u := Eq.trans k h

theorem writeDone_marksDone (i : Nat) (r : CueResult) (s : State) : MarksDone s (writeDone i r s) := by
  unfold writeDone
  split
  · unfold MarksDone
    rw [raise_smp, writeCue_smp]
    exact (BitVec.or_assoc ..).trans (congrArg _ rfl)
  · exact .of_same rfl

theorem originCompleted_marksDone (o : Origin) (epoch : Nat) (r : CueResult) (s : State) :
    MarksDone s (originCompleted o epoch r s) := by
  unfold originCompleted completeCue
  split
  · split
    · exact writeDone_marksDone _ _ _
    · exact .of_same rfl
  · exact .of_same (triggerResult_then _ _ _ _ (ChangesOnly.refl [.etu, .mem] s) rfl .events rfl)

theorem sourceEvent_marksDone (ev : TriggerSource) (s : State) : MarksDone s (sourceEvent ev s) :=
  .of_same (sourceEvent_then ev (ChangesOnly.refl [.etu, .mem] s) rfl .events rfl)

/-- A relation that the acts of a taking keep: a change of lists and slots alone, the results of an origin, and an end event. -/
structure TakingStable (R : State → State → Prop) : Prop where
  trans : ∀ {s t u}, R s t → R t u → R s u
  slots : ∀ {s t}, ChangesOnly [.zar, .cle, .msu] s t → R s t
  origin : ∀ o epoch r s, R s (originCompleted o epoch r s)
  source : ∀ ev s, R s (sourceEvent ev s)

theorem marksDone_stable : TakingStable MarksDone where
  trans := MarksDone.trans
  slots h := .of_same (h .events rfl)
  origin := originCompleted_marksDone
  source := sourceEvent_marksDone

theorem placeClaim_frame (z : Fin 16) (c : Claim) (s : State) : ChangesOnly [.zar, .cle, .msu] s (placeClaim z c s) :=
  placeClaim_then z c (.refl _ _) rfl

section
variable {R : State → State → Prop}

theorem TakingStable.refl (h : TakingStable R) (s : State) : R s s := h.slots (.refl _ _)

theorem TakingStable.endClip (h : TakingStable R) (status : Status) (k : Fin 8) (s : State) :
    R s (Machine.endClip status k s) := by
  have hending : R s (clipEnding status k s) := h.slots (clipEnding_frame status k (.refl _ _) rfl)
  obtain ⟨-, heq⟩ | ⟨-, f, -, heq⟩ | ⟨-, -, heq⟩ := endClip_cases status k s <;> rw [heq]
  · exact h.refl s
  · exact hending
  · rw [completeClip_eq, clipCompleted_eq]
    exact h.trans hending (h.trans (h.origin _ _ _ _) (h.trans (h.source _ _) (h.slots (onClip_then _ _ (.refl _ _) rfl))))

theorem TakingStable.endMessageAt (h : TakingStable R) (status : Status) (frame : Frame) (k : Fin 8) (s : State) :
    R s (Machine.endMessageAt status frame k s) := by
  have hending : R s (messageEnding status frame k s) :=
    h.slots (onMessage_then _ _ (releaseClaims_then _ (.refl _ _) rfl) rfl)
  obtain ⟨-, heq⟩ | ⟨-, f, -, heq⟩ | ⟨-, -, heq⟩ := endMessageAt_cases status frame k s <;> rw [heq]
  · exact h.refl s
  · exact hending
  · rw [completeMessage_eq, messageCompleted_eq]
    exact h.trans hending (h.trans (h.origin _ _ _ _)
      (h.trans (h.source _ _) (h.slots (onMessage_then _ _ (.refl _ _) rfl))))

theorem TakingStable.reportLost (h : TakingStable R) (status : Status) (who : Claimant) (lost : ZoneMask) (s : State) :
    R s (Machine.reportLost status who lost s) := by
  unfold Machine.reportLost
  split
  · next k =>
    unfold loseClip
    split
    · have hlost := fun f => h.slots (onClip_then (ps := [.zar, .cle, .msu]) (s := s) k f (.refl _ s) rfl)
      dsimp only
      split
      · exact hlost _
      · exact h.trans (hlost _) (h.endClip _ _ _)
    · exact h.refl s
  · next k =>
    unfold loseMessage endMessage
    split
    · have hlost := fun f => h.slots (onMessage_then (ps := [.zar, .cle, .msu]) (s := s) k f (.refl _ s) rfl)
      dsimp only
      split
      · exact hlost _
      · exact h.trans (hlost _) (h.endMessageAt _ _ _ _)
    · exact h.refl s
  · exact h.refl s

theorem TakingStable.claimZone (h : TakingStable R) (c : Claim) (safety : Bool) (z : Fin 16) (s : State) :
    R s (Machine.claimZone c safety z s).2 := by
  cases hlive : s.smp.dev.live with
  | false => rw [claimZone_of_not_live hlive]; exact h.refl s
  | true =>
    obtain ⟨-, heq⟩ | ⟨e, -, ⟨-, heq⟩ | ⟨-, -, heq⟩ | ⟨-, -, -, heq⟩ | ⟨v, -, -, -, -, heq⟩⟩ :=
        claimZone_cases c safety z s hlive <;> rw [heq]
    · exact h.refl s
    · exact h.refl s
    · exact h.slots (placeClaim_frame z c s)
    · exact h.refl s
    · have hremoved : ChangesOnly [.zar, .cle, .msu] s (s.onZar fun a => a.onClaims z (removeClaim v.who)) :=
        onZar_then _ (.refl _ _) rfl
      exact h.trans (h.slots (hremoved.trans (placeClaim_frame z c _))) (h.reportLost _ _ _ _)

theorem TakingStable.claimZones (h : TakingStable R) (c : Claim) (safety : Bool) (zs : List (Fin 16)) (s : State) :
    R s (Machine.claimZones c safety zs s).2 := by
  have hsteps : ∀ (zs : List (Fin 16)) (acc : ClaimAnswer × State), R s acc.2 →
      R s (zs.foldl (claimStep c safety) acc).2 := by
    intro zs
    induction zs with
    | nil => exact fun acc hacc => hacc
    | cons z zs ih => exact fun acc hacc => ih _ (h.trans hacc (h.claimZone c safety z acc.2))
  exact hsteps zs (⟨0, 0⟩, s) (h.refl s)

end

/-! ## The outcomes of a PLAY_CLIP and a POST_MESSAGE, whatever their origin -/

/-- A PLAY_CLIP is answered at once, or accepted in a slot that knows its origin. -/
theorem takeClip_cases (p : ClipPayload) (kept : RunSlots) (s : State) :
    (∃ tk, ∀ h, takeClip h kept p s = (tk, s)) ∨
    ∃ (k : Fin 8) (a : ClaimAnswer) (v : State), ChangesOnly [.zar, .cle, .msu] s v ∧ v.cle.gate = s.cle.gate ∧
      ∀ h, takeClip h kept p s =
        (.accepted a.refused, onClip k (fun _ => newClip p h a s.ftu.frame s.smp.anchorEpoch) v) := by
  cases hgate : s.cle.gate with
  | halted => exact .inl ⟨_, fun h => takeClip_of_halted hgate⟩
  | fallback => exact .inl ⟨_, fun h => takeClip_of_fallback hgate⟩
  | open_ =>
    cases hvalues : clipValuesOk p with
    | false => exact .inl ⟨_, fun h => takeClip_badValue hgate hvalues⟩
    | true =>
      cases hregion : clipRegionOk p with
      | false => exact .inl ⟨_, fun h => takeClip_badRegion hgate hvalues hregion⟩
      | true =>
        cases htag : clipWithTag s.cle p.tag with
        | some k =>
          exact .inl ⟨_, fun h => takeClip_tagInUse hgate hvalues hregion (by rw [htag]; rfl)⟩
        | none =>
          cases hidle : idleClip s.cle kept.clips with
          | none => exact .inl ⟨_, fun h => takeClip_noSlot hgate hvalues hregion htag hidle⟩
          | some k =>
            have htake := fun h => takeClip_of_slot (h := h) (kept := kept) hgate hvalues hregion htag hidle
            by_cases htaken : (claimZones (clipClaim k p) false (zonesOf p.zones) s).1.taken = 0
            · exact .inl ⟨_, fun h => (htake h).trans (if_pos htaken)⟩
            · cases hlive : s.smp.dev.live with
              | false => exact absurd (claimZones_of_not_live hlive _) htaken
              | true =>
                have hmade := ordinary_made (clipClaim k p) p.zones hlive
                exact .inr ⟨k, _, _, hmade.frame, hmade.gate.trans hgate, fun h => (htake h).trans (if_neg htaken)⟩

/-- A POST_MESSAGE is answered at once, or gives a slot its content and its origin. -/
theorem takeMessage_cases (p : MessagePayload) (kept : RunSlots) (s : State) :
    (∃ tk, ∀ h, takeMessage h kept p s = (tk, s)) ∨
    ∃ (k : Fin 8) (zones : ZoneMask) (m : MessageSlot) (v : State),
      ChangesOnly [.cle, .msu, .zar, .mem, .events, .etu] s v ∧ (∀ R, TakingStable R → R s v) ∧
      ((messageWithTag s.msu p.tag = none ∧ p.cls = 0) → ChangesOnly [.zar, .cle, .msu] s v) ∧
      ∀ h, takeMessage h kept p s = (.accepted zones, onMessage k (fun _ => m.withOrigin h zones v) v) := by
  cases hhalt : s.msu.afterHalt with
  | true => exact .inl ⟨_, fun h => takeMessage_of_halted hhalt⟩
  | false =>
    cases hvalues : messageValuesOk p with
    | false => exact .inl ⟨_, fun h => takeMessage_badValue hhalt hvalues⟩
    | true =>
      cases hregion : messageRegionOk p with
      | false => exact .inl ⟨_, fun h => takeMessage_badRegion hhalt hvalues hregion⟩
      | true =>
        cases htag : messageWithTag s.msu p.tag with
        | some k =>
          have hcompleted : completeOrigin s.msu.slots[k] .replaced s.ftu.frame s =
              originCompleted s.msu.slots[k].origin s.msu.slots[k].epoch
                (s.msu.slots[k].result .replaced s.ftu.frame) s := by
            unfold completeOrigin originCompleted
            cases s.msu.slots[k].origin <;> rfl
          refine .inr ⟨k, 0, (completeOrigin s.msu.slots[k] .replaced s.ftu.frame s).msu.slots[k].withContent p
            (completeOrigin s.msu.slots[k] .replaced s.ftu.frame s), completeOrigin s.msu.slots[k] .replaced s.ftu.frame s,
            completeOrigin_then _ _ _ (.refl _ _) rfl, ?_, fun h => (nomatch h.1), fun h => ?_⟩
          · rw [hcompleted]
            exact fun R h => h.origin _ _ _ _
          · rw [takeMessage_of_repost hhalt hvalues hregion htag, repost]
            exact congrArg (Prod.mk _) (congrArg (fun x => ({ completeOrigin s.msu.slots[k] .replaced s.ftu.frame s with
              msu := { (completeOrigin s.msu.slots[k] .replaced s.ftu.frame s).msu with slots := x } } : State))
              (upd_congr rfl))
        | none =>
          cases hidle : idleMessage s.msu kept.messages with
          | none => exact .inl ⟨_, fun h => takeMessage_noSlot hhalt hvalues hregion htag hidle⟩
          | some k =>
            have htake := fun h => takeMessage_of_slot (h := h) (kept := kept) hhalt hvalues hregion htag hidle
            by_cases htaken : (messageClaims k p s).1.taken = 0
            · exact .inl ⟨_, fun h => (htake h).trans (if_pos htaken)⟩
            · refine .inr ⟨k, _, _, _, claimZones_then _ _ _ (.refl _ _) rfl, fun R h => h.claimZones _ _ _ _, fun h => ?_,
                fun h => (htake h).trans (if_neg htaken)⟩
              have hordinary : (p.cls == 1) = false := by rw [h.2]; decide
              cases hlive : s.smp.dev.live with
              | false =>
                rw [messageClaims] at htaken
                exact absurd (claimZones_of_not_live hlive _) htaken
              | true =>
                rw [hordinary]
                exact (ordinary_made (messageClaim k p) p.zones hlive).frame

/-! ## The report of a trigger entry that handed its action over -/

theorem recordTaking_entry (e : Fin 8) (tk : Taking) (s : State) (x : Fin 8) : (recordTaking e tk s).etu.entries[x] =
    if x = e then { s.etu.entries[e] with report := { s.etu.entries[e].report with
      lastStatus := tk.reported.1.code, lastRefused := tk.reported.2, lastShown := 0, lastLit := 0 } }
    else s.etu.entries[x] := by
  unfold recordTaking
  rw [writeReport_etu, onTrigger_get]

theorem recordTaking_get_outside {e : Fin 8} {tk : Taking} {a : Nat}
    (h : ¬AnchorByte s (0x180 + 32 * e.val) (0x1A0 + 32 * e.val) a) : (recordTaking e tk s).mem.get a = s.mem.get a := by
  unfold recordTaking writeReport
  refine anchorWrite_get_outside (s := onTrigger e _ s) (hi := 0x1A0 + 32 * e.val) ?_ h
  exact Nat.le_of_eq (by simp [TriggerReport.words]; omega)

/-- The result that a taking writes into its record. -/
theorem writeTaking_reads {i : Nat} {late : Bool} {tk : Taking} (hinside : CueListInside s) (hforce : s.smp.inForce = true)
    (hi : i < s.ciu.listLength) : ∃ r code, r.status = tk.reported.1 ∧ r.refused = tk.reported.2 ∧
      RecordReads s (writeTaking i late tk s) i r code := by
  cases tk with
  | refused status zones =>
    exact ⟨takeResult late s.ftu.frame status zones s.ftu.frame, 3, rfl, rfl,
      (writeDone_standsDone hinside hforce hi _).1⟩
  | done status =>
    exact ⟨takeResult late s.ftu.frame status 0 s.ftu.frame, 3, rfl, rfl, (writeDone_standsDone hinside hforce hi _).1⟩
  | accepted zones =>
    exact ⟨takeResult late s.ftu.frame .pending zones 0, takenCode, rfl, rfl, writeCue_recordReads hinside hforce hi _ _⟩

/-- Two takings of one outcome, the one of a trigger entry, the other of a record, report alike. -/
theorem triggerOutcome_of_same {v w : State} {e : Fin 8} {i : Nat} {tk : Taking} (hetu : v.etu = w.etu)
    (hciu : w.ciu = s.ciu) (hforce : w.smp.inForce = s.smp.inForce) :
    TriggerOutcome s (recordTaking e tk v) (writeTaking i false tk w) e i := by
  have hu : (writeTaking i false tk w).etu = v.etu := by
    rw [hetu]
    exact writeTaking_then i false tk (ChangesOnly.refl [.mem, .events] w) rfl .etu rfl
  refine ⟨fun x hx => ?_, ?_, fun hin hi hinside => ?_⟩
  · rw [recordTaking_entry, if_neg hx, hu]
  · rw [recordTaking_entry, if_pos rfl, hu]
  · obtain ⟨r, code, hstatus, hrefused, hreads⟩ := writeTaking_reads (s := w) (i := i) (late := false) (tk := tk)
      (by unfold CueListInside; rw [hciu]; exact hinside) (hforce.trans hin) (by rw [hciu]; exact hi)
    rw [recordTaking_entry, if_pos rfl]
    rw [recordReads_congr hciu] at hreads
    obtain ⟨-, hcode, -, -, hzones, -⟩ := hreads
    exact ⟨by rw [hcode, hstatus], by rw [hzones, hrefused]⟩

theorem writeHandover_trigger (e : Fin 8) (late : Bool) (r : Taking × State) :
    writeHandover ⟨.trigger e, late⟩ r = recordTaking e r.1 r.2 := rfl

theorem writeHandover_cue (i : Nat) (late : Bool) (r : Taking × State) :
    writeHandover ⟨.cue i, late⟩ r = writeTaking i late r.1 r.2 := rfl

theorem recordTaking_frame (e : Fin 8) (tk : Taking) (s : State) : ChangesOnly [.etu, .mem] s (recordTaking e tk s) :=
  recordTaking_then e tk (.refl _ _) rfl

theorem writeTaking_frame (i : Nat) (late : Bool) (tk : Taking) (s : State) :
    ChangesOnly [.mem, .events] s (writeTaking i late tk s) := writeTaking_then i late tk (.refl _ _) rfl

theorem recordTaking_lasts (e : Fin 8) (tk : Taking) (s : State) :
    (recordTaking e tk s).etu.entries[e].report.lastStatus = tk.reported.1.code ∧
    (recordTaking e tk s).etu.entries[e].report.lastRefused = tk.reported.2 ∧
    (recordTaking e tk s).etu.entries[e].report.lastShown = 0 ∧
    (recordTaking e tk s).etu.entries[e].report.lastLit = 0 := by
  rw [recordTaking_entry, if_pos rfl]
  exact ⟨rfl, rfl, rfl, rfl⟩

/-- Settles O26. -/
theorem triggeredActionTakenAsRecord : Obligations.TriggeredActionTakenAsRecord := by
  refine ⟨fun e i p s => ⟨_, _, exec_playClip _ _ _, exec_playClip _ _ _, ?_⟩,
    fun e i p s => ⟨_, _, exec_postMessage _ _ _, exec_postMessage _ _ _, ?_⟩⟩
  · have hbad : p.zones = 0 → s.cle.gate = .open_ →
        takeClip ⟨.trigger e, false⟩ RunSlots.none p s = (.refused .badValue 0, s) := fun hz hgate =>
      takeClip_badValue hgate (by rw [← Bool.not_eq_true, clipValuesOk_iff]; exact fun h => h.1 hz)
    rw [writeHandover_trigger, writeHandover_cue]
    obtain ⟨tk, htake⟩ | ⟨k, a, v, hframe, hgate, htake⟩ := takeClip_cases p RunSlots.none s
    · rw [htake] at hbad
      rw [htake, htake]
      obtain ⟨hstatus, hrefused, hshown, hlit⟩ := recordTaking_lasts e tk s
      have ht := recordTaking_frame e tk s
      have hu := writeTaking_frame i false tk s
      have hcle : (recordTaking e tk s).cle = (writeTaking i false tk s).cle := Eq.trans (ht .cle rfl) (hu .cle rfl).symm
      refine ⟨Eq.trans (ht .zar rfl) (hu .zar rfl).symm, Eq.trans (ht .msu rfl) (hu .msu rfl).symm, by rw [hcle],
        fun k => .inl (by rw [hcle]), hshown, hlit, fun hz hgate => ?_, fun ⟨k, hplaying, hidle⟩ => ?_,
        triggerOutcome_of_same rfl rfl rfl, ht .events rfl, ht.mono rfl, fun a ha => recordTaking_get_outside ha⟩
      · have htk : tk = .refused .badValue 0 := congrArg Prod.fst (hbad hz hgate)
        rw [hstatus, hrefused, htk]
        exact ⟨rfl, rfl⟩
      · rw [show (writeTaking i false tk s).cle = s.cle from hu .cle rfl, hidle] at hplaying
        cases hplaying
    · rw [htake] at hbad
      rw [htake, htake]
      generalize htk : Taking.accepted a.refused = tk
      generalize hT : onClip k (fun _ => newClip p ⟨.trigger e, false⟩ a s.ftu.frame s.smp.anchorEpoch) v = T
      generalize hU : onClip k (fun _ => newClip p ⟨.cue i, false⟩ a s.ftu.frame s.smp.anchorEpoch) v = U
      have hTframe : ChangesOnly [.zar, .cle, .msu] s T := by rw [← hT]; exact onClip_then _ _ hframe rfl
      have hTU : ChangesOnly [.cle] T U := by
        rw [← hT, ← hU]
        exact ChangesOnly.trans (t := v) (ChangesOnly.symm (onClip_then _ _ (.refl _ _) rfl))
          (onClip_then _ _ (.refl _ _) rfl)
      obtain ⟨hstatus, hrefused, hshown, hlit⟩ := recordTaking_lasts e tk T
      have ht := recordTaking_frame e tk T
      have hu := writeTaking_frame i false tk U
      have htcle : (recordTaking e tk T).cle = T.cle := ht .cle rfl
      have hucle : (writeTaking i false tk U).cle = U.cle := hu .cle rfl
      refine ⟨(Eq.trans (ht .zar rfl) (hTU .zar rfl).symm).trans (hu .zar rfl).symm,
        (Eq.trans (ht .msu rfl) (hTU .msu rfl).symm).trans (hu .msu rfl).symm, ?_, fun j => ?_, hshown, hlit,
        fun hz hgate => ?_, fun _ => ?_,
        triggerOutcome_of_same (hTU .etu rfl).symm (Eq.trans (hTU .ciu rfl) (hTframe .ciu rfl))
          ((hTU.inForce rfl).trans (hTframe.inForce rfl)),
        Eq.trans (ht .events rfl) (hTframe .events rfl), (hTframe.mono rfl).trans (ht.mono rfl), fun x hx => ?_⟩
      · rw [htcle, hucle, ← hT, ← hU]
        rfl
      · rw [htcle, hucle, ← hT, ← hU, onClip_get, onClip_get]
        by_cases hj : j = k
        · rw [if_pos hj, if_pos hj]
          exact .inr ⟨rfl, rfl⟩
        · rw [if_neg hj, if_neg hj]
          exact .inl rfl
      · cases congrArg Prod.fst (hbad hz hgate)
      · rw [hstatus, ← htk]
        rfl
      · refine (recordTaking_get_outside (s := T) ?_).trans (congrArg (fun m : Memory => m.get x) (hTframe .mem rfl))
        unfold AnchorByte
        rw [hTframe.anchor rfl]
        exact hx
  · rw [writeHandover_trigger, writeHandover_cue]
    obtain ⟨tk, htake⟩ | ⟨k, zones, m, v, hframe, hstable, hordinary, htake⟩ := takeMessage_cases p RunSlots.none s
    · rw [htake, htake]
      obtain ⟨-, -, hshown, hlit⟩ := recordTaking_lasts e tk s
      have ht := recordTaking_frame e tk s
      have hu := writeTaking_frame i false tk s
      have hmsu : (recordTaking e tk s).msu = (writeTaking i false tk s).msu := Eq.trans (ht .msu rfl) (hu .msu rfl).symm
      exact ⟨Eq.trans (ht .zar rfl) (hu .zar rfl).symm, Eq.trans (ht .cle rfl) (hu .cle rfl).symm, by rw [hmsu],
        fun k => .inl (by rw [hmsu]), hshown, hlit, triggerOutcome_of_same rfl rfl rfl, MarksDone.of_same (ht .events rfl),
        ht.mono rfl, fun _ _ => ⟨ht .events rfl, fun a ha => recordTaking_get_outside ha⟩⟩
    · rw [htake, htake]
      generalize htk : Taking.accepted zones = tk
      generalize hT : onMessage k (fun _ => m.withOrigin ⟨.trigger e, false⟩ zones v) v = T
      generalize hU : onMessage k (fun _ => m.withOrigin ⟨.cue i, false⟩ zones v) v = U
      have hTv : ChangesOnly [.msu] v T := by rw [← hT]; exact onMessage_then _ _ (.refl _ _) rfl
      have hTframe : ChangesOnly [.cle, .msu, .zar, .mem, .events, .etu] s T := hframe.trans (hTv.mono rfl)
      have hTU : ChangesOnly [.msu] T U := by
        rw [← hT, ← hU]
        exact ChangesOnly.trans (t := v) (ChangesOnly.symm (onMessage_then _ _ (.refl _ _) rfl))
          (onMessage_then _ _ (.refl _ _) rfl)
      obtain ⟨-, -, hshown, hlit⟩ := recordTaking_lasts e tk T
      have ht := recordTaking_frame e tk T
      have hu := writeTaking_frame i false tk U
      have htmsu : (recordTaking e tk T).msu = T.msu := ht .msu rfl
      have humsu : (writeTaking i false tk U).msu = U.msu := hu .msu rfl
      refine ⟨(Eq.trans (ht .zar rfl) (hTU .zar rfl).symm).trans (hu .zar rfl).symm,
        (Eq.trans (ht .cle rfl) (hTU .cle rfl).symm).trans (hu .cle rfl).symm, ?_, fun j => ?_, hshown, hlit,
        triggerOutcome_of_same (hTU .etu rfl).symm (Eq.trans (hTU .ciu rfl) (hTframe .ciu rfl))
          ((hTU.inForce rfl).trans (hTframe.inForce rfl)),
        (hstable _ marksDone_stable).trans (MarksDone.of_same (Eq.trans (ht .events rfl) (hTv .events rfl))),
        (hTframe.mono rfl).trans (ht.mono rfl), fun htag hcls => ?_⟩
      · rw [htmsu, humsu, ← hT, ← hU]
        rfl
      · rw [htmsu, humsu, ← hT, ← hU, onMessage_get, onMessage_get]
        by_cases hj : j = k
        · rw [if_pos hj, if_pos hj]
          exact .inr ⟨rfl, rfl⟩
        · rw [if_neg hj, if_neg hj]
          exact .inl rfl
      · have hkept := hordinary ⟨messageWithTag_of_none fun j hw => htag j ((message_working_iff _).mp hw), hcls⟩
        refine ⟨(Eq.trans (ht .events rfl) (hTv .events rfl)).trans (hkept .events rfl), fun x hx => ?_⟩
        refine (recordTaking_get_outside (s := T) ?_).trans (congrArg (fun m : Memory => m.get x)
          (Eq.trans (hTv .mem rfl) (hkept .mem rfl)))
        unfold AnchorByte
        rw [hTframe.anchor rfl]
        exact hx

end Sys2Proof.Machine
end

section
/-! SUPPORT. What a taking keeps of the trigger entries, and the firing of a pending one (R173, R175). -/

namespace Sys2Proof.Machine

variable {s t u : State}

theorem upd_same {α : Type} {n : Nat} (v : Vector α n) (i : Fin n) (f : α → α) : (upd v i f)[i] = f v[i] := by
  rw [upd_get, if_pos rfl]

/-! ## What a taking keeps of an entry -/

/-- The armed flag, the fields that an arm copies and the last fire of an entry: what a source event and a result keep. -/
def TriggerEntry.core (x : TriggerEntry) : Bool × Bool × Frame × Option TriggerSource × Option TriggerAction :=
  (x.armed, x.rearm, x.report.lastFire, x.source, x.action)

/-- The entries keep their cores, and the ETU what it handles. -/
structure EtuKept (s t : State) : Prop where
  handling : t.etu.handling = s.etu.handling
  due : t.etu.frameDue = s.etu.frameDue
  core : ∀ e : Fin 8, t.etu.entries[e].core = s.etu.entries[e].core

theorem EtuKept.of_same (h : t.etu = s.etu) : EtuKept s t :=
  ⟨by rw [h], by rw [h], fun e => by rw [h]⟩

theorem EtuKept.trans (h : EtuKept s t) (k : EtuKept t u) : EtuKept s u :=
  ⟨k.handling.trans h.handling, k.due.trans h.due, fun e => (k.core e).trans (h.core e)⟩

theorem onTrigger_kept {e : Fin 8} {f : TriggerEntry → TriggerEntry} (hf : ∀ x, (f x).core = x.core) (s : State) :
    EtuKept s (onTrigger e f s) :=
  ⟨rfl, rfl, fun x => by
    rw [onTrigger_get]
    split
    · next h => rw [hf, h]
    · rfl⟩

theorem writeReport_kept (e : Fin 8) (s : State) : EtuKept s (writeReport e s) := .of_same (writeReport_etu e s)

theorem takeEvent_core (running : Bool) (x : TriggerEntry) : (takeEvent running x).core = x.core := by
  unfold takeEvent
  split <;> rfl

theorem takeSource_kept (ev : TriggerSource) (s : State) : EtuKept s (takeSource ev s) ∧
    (takeSource ev s).etu.inbox = s.etu.inbox :=
  inOrder_induct (P := fun t => EtuKept s t ∧ t.etu.inbox = s.etu.inbox) ⟨.of_same rfl, rfl⟩ fun e _ t h =>
    ⟨h.1.trans ((onTrigger_kept (takeEvent_core _) t).trans (.of_same (writeReport_etu _ _))), by
      rw [writeReport_etu]
      exact h.2⟩

theorem sourceEvent_kept (ev : TriggerSource) (s : State) : EtuKept s (sourceEvent ev s) := by
  unfold sourceEvent
  split
  · exact ⟨rfl, rfl, fun _ => rfl⟩
  · exact (takeSource_kept ev s).1

theorem triggerResult_kept (e : Fin 8) (status : Status) (shown lit : Nat) (s : State) :
    EtuKept s (triggerResult e status shown lit s) := by
  unfold triggerResult
  refine EtuKept.trans (onTrigger_kept ?_ s) (writeReport_kept _ _)
  exact fun _ => rfl

theorem originCompleted_kept (o : Origin) (epoch : Nat) (r : CueResult) (s : State) :
    EtuKept s (originCompleted o epoch r s) := by
  unfold originCompleted
  split
  · exact .of_same (completeCue_then _ _ _ (ChangesOnly.refl [.mem, .events] s) rfl .etu rfl)
  · exact triggerResult_kept _ _ _ _ _

theorem etuKept_stable : TakingStable EtuKept where
  trans := EtuKept.trans
  slots h := .of_same (h .etu rfl)
  origin := originCompleted_kept
  source := sourceEvent_kept

/-- A taking keeps what its relation keeps. -/
theorem takeMessage_stable {R : State → State → Prop} (hR : TakingStable R) (p : MessagePayload) (h : Handover)
    (kept : RunSlots) (s : State) : R s (takeMessage h kept p s).2 := by
  obtain ⟨tk, htake⟩ | ⟨k, zones, m, v, -, hstable, -, htake⟩ := takeMessage_cases p kept s
  · rw [htake]
    exact hR.refl s
  · rw [htake]
    exact hR.trans (hstable R hR) (hR.slots (onMessage_then _ _ (.refl _ _) rfl))

theorem takeClip_stable {R : State → State → Prop} (hR : TakingStable R) (p : ClipPayload) (h : Handover)
    (kept : RunSlots) (s : State) : R s (takeClip h kept p s).2 := by
  obtain ⟨tk, htake⟩ | ⟨k, a, v, hframe, -, htake⟩ := takeClip_cases p kept s
  · rw [htake]
    exact hR.refl s
  · rw [htake]
    exact hR.slots (onClip_then _ _ hframe rfl)

theorem handAction_kept (e : Fin 8) (s : State) : EtuKept s (handAction e s).2 := by
  unfold handAction
  split
  · exact takeClip_stable etuKept_stable _ _ _ _
  · exact takeMessage_stable etuKept_stable _ _ _ _
  · exact .of_same rfl

theorem recordTaking_kept (e : Fin 8) (tk : Taking) (s : State) : EtuKept s (recordTaking e tk s) := by
  unfold recordTaking
  refine EtuKept.trans (onTrigger_kept ?_ s) (writeReport_kept _ _)
  exact fun _ => rfl

/-! ## The firing of an entry -/

/-- The entry as its firing finds it. -/
def fireBegun (f : Frame) (e : Fin 8) (s : State) : State :=
  onTrigger e (fun x => { x with pending := false, report := { x.report with lastFire := f } }) s

/-- The action taken, with its report. -/
def fireTaken (f : Frame) (e : Fin 8) (s : State) : State :=
  recordTaking e (handAction e (fireBegun f e s)).1 (handAction e (fireBegun f e s)).2

theorem fireTrigger_eq (f : Frame) (e : Fin 8) (s : State) :
    fireTrigger f e s = onTrigger e (fun x => { x with armed := x.armed && x.rearm }) (fireTaken f e s) := rfl

theorem fireTaken_kept (f : Frame) (e : Fin 8) (s : State) : EtuKept (fireBegun f e s) (fireTaken f e s) :=
  (handAction_kept e _).trans (recordTaking_kept e _ _)

/-- What a firing makes of an entry's core. -/
def firedCore (f : Frame) (x : Bool × Bool × Frame × Option TriggerSource × Option TriggerAction) :
    Bool × Bool × Frame × Option TriggerSource × Option TriggerAction :=
  (x.1 && x.2.1, x.2.1, f, x.2.2.2.1, x.2.2.2.2)

theorem fireTrigger_core (f : Frame) (e x : Fin 8) (s : State) : (fireTrigger f e s).etu.entries[x].core =
    if x = e then firedCore f s.etu.entries[e].core else s.etu.entries[x].core := by
  have hkept := (fireTaken_kept f e s).core
  have hbegun : ∀ y : Fin 8, (fireBegun f e s).etu.entries[y] = if y = e then
      { s.etu.entries[e] with pending := false, report := { s.etu.entries[e].report with lastFire := f } }
      else s.etu.entries[y] := fun y => onTrigger_get _ _ _ _
  rw [fireTrigger_eq, onTrigger_get]
  by_cases hx : x = e
  · rw [if_pos hx, if_pos hx]
    have hcore := hkept e
    rw [hbegun, if_pos rfl] at hcore
    exact congrArg (fun c : Bool × Bool × Frame × Option TriggerSource × Option TriggerAction =>
      (c.1 && c.2.1, c.2.1, c.2.2.1, c.2.2.2.1, c.2.2.2.2)) hcore
  · rw [if_neg hx, if_neg hx, hkept x, hbegun, if_neg hx]

theorem fireTrigger_handling (f : Frame) (e : Fin 8) (s : State) :
    (fireTrigger f e s).etu.handling = s.etu.handling ∧ (fireTrigger f e s).etu.frameDue = s.etu.frameDue :=
  ⟨(fireTaken_kept f e s).handling, (fireTaken_kept f e s).due⟩

theorem takeInbox_kept (s : State) : (∀ e : Fin 8, (takeInbox s).etu.entries[e].core = s.etu.entries[e].core) ∧
    (takeInbox s).etu.handling = false ∧ (takeInbox s).etu.inbox = [] ∧ (takeInbox s).etu.frameDue = s.etu.frameDue := by
  have h := inOrder_induct (l := s.etu.inbox) (f := takeSource) (s := s.onEtu fun u => { u with handling := false, inbox := [] })
    (P := fun t => EtuKept (s.onEtu fun u => { u with handling := false, inbox := [] }) t ∧ t.etu.inbox = [])
    ⟨.of_same rfl, rfl⟩ fun ev _ t h => ⟨h.1.trans (takeSource_kept ev t).1, (takeSource_kept ev t).2.trans h.2⟩
  exact ⟨h.1.core, h.1.handling, h.2, h.1.due⟩

theorem takeInbox_of_empty (h : s.etu.inbox = []) : takeInbox s = s.onEtu fun u => { u with handling := false } := by
  have hempty : takeInbox s = s.onEtu fun u => { u with handling := false, inbox := [] } := by
    unfold takeInbox
    rw [h]
    rfl
  rw [hempty]
  exact congrArg (fun v => ({ s with etu := { s.etu with handling := false, inbox := v } } : State)) h.symm

theorem pendingTriggers_nodup (u : Etu) : (pendingTriggers u).Nodup := (List.nodup_finRange 8).filter _

theorem mem_pendingTriggers {u : Etu} {e : Fin 8} : e ∈ pendingTriggers u ↔ u.entries[e].pending = true := by
  simp [pendingTriggers, List.mem_finRange]

/-! ## The words of a report -/

theorem reportArea_inside (e : Fin 8) : 0x180 + 32 * e.val + 4 * 8 ≤ 4096 := by omega

theorem TriggerReport.words_length (r : TriggerReport) : r.words.length = 8 := rfl

theorem writeReport_word {e : Fin 8} (haligned : s.smp.anchor.toNat % 4096 = 0) (hforce : s.smp.inForce = true) {k : Nat}
    {w : Word} (hw : s.etu.entries[e].report.words[k]? = some w) :
    (writeReport e s).mem.word (s.smp.anchor.toNat + (0x180 + 32 * e.val + 4 * k)) = w :=
  anchorWrite_word_at haligned hforce (reportArea_inside e) _ k rfl hw

theorem writeReport_word_other {e x : Fin 8} (hx : x ≠ e) {k : Nat} (hk : k < 8) :
    (writeReport e s).mem.word (s.smp.anchor.toNat + (0x180 + 32 * x.val + 4 * k)) =
      s.mem.word (s.smp.anchor.toNat + (0x180 + 32 * x.val + 4 * k)) := by
  refine anchorWrite_word_outside ?_
  have hne : x.val ≠ e.val := fun h => hx (Fin.ext h)
  rw [TriggerReport.words_length]
  omega

/-- A pass that changes distinct entries writes the report of each. -/
theorem inOrder_trigger_word (l : List (Fin 8)) (hl : l.Nodup) (f : TriggerEntry → TriggerEntry) (s : State)
    (haligned : s.smp.anchor.toNat % 4096 = 0) (hforce : s.smp.inForce = true) {e : Fin 8} {k : Nat} {w : Word}
    (hw : (f s.etu.entries[e]).report.words[k]? = some w) :
    (inOrder l (fun e t => writeReport e (onTrigger e f t)) s).mem.word
      (s.smp.anchor.toNat + (0x180 + 32 * e.val + 4 * k)) =
      if e ∈ l then w else s.mem.word (s.smp.anchor.toNat + (0x180 + 32 * e.val + 4 * k)) := by
  have hk : k < 8 := (List.getElem?_eq_some_iff.mp hw).1
  induction l generalizing s with
  | nil => rfl
  | cons x l ih =>
    obtain ⟨hx, hl⟩ := List.nodup_cons.mp hl
    have hstep : inOrder (x :: l) (fun e t => writeReport e (onTrigger e f t)) s =
      inOrder l (fun e t => writeReport e (onTrigger e f t)) (writeReport x (onTrigger x f s)) := rfl
    have hsmp : (writeReport x (onTrigger x f s)).smp = s.smp := anchorWrite_smp ..
    rw [hstep]
    by_cases he : e = x
    · subst he
      have hkept : ∀ (l : List (Fin 8)) (t : State), e ∉ l → t.smp = s.smp →
          (inOrder l (fun e t => writeReport e (onTrigger e f t)) t).mem.word
            (s.smp.anchor.toNat + (0x180 + 32 * e.val + 4 * k)) =
            t.mem.word (s.smp.anchor.toNat + (0x180 + 32 * e.val + 4 * k)) := by
        intro l
        induction l with
        | nil => exact fun t _ _ => rfl
        | cons y l ih =>
          intro t hnot hsmp
          rw [List.mem_cons, not_or] at hnot
          obtain ⟨hy, hnot⟩ := hnot
          refine (ih (writeReport y (onTrigger y f t)) hnot ((anchorWrite_smp ..).trans hsmp)).trans ?_
          have hother := writeReport_word_other (s := onTrigger y f t) (e := y) (x := e) hy hk
          rw [show (onTrigger y f t).smp = s.smp from hsmp] at hother
          exact hother
      rw [hkept l _ hx hsmp, if_pos (List.mem_cons_self ..)]
      exact writeReport_word (s := onTrigger e f s) haligned hforce (by rw [onTrigger_get, if_pos rfl]; exact hw)
    · have hentry : (writeReport x (onTrigger x f s)).etu.entries[e] = s.etu.entries[e] := by
        rw [writeReport_etu, onTrigger_get, if_neg he]
      have hrest := ih hl (writeReport x (onTrigger x f s)) (by rw [hsmp]; exact haligned) (by rw [hsmp]; exact hforce)
        (by rw [hentry]; exact hw)
      rw [hsmp] at hrest
      rw [hrest]
      simp only [List.mem_cons, he, false_or]
      split
      · rfl
      · exact writeReport_word_other (s := onTrigger x f s) he hk

/-! ## The frame start of the ETU -/

/-- An entry whose pending firing is dropped (R175). -/
def TriggerEntry.dropped (x : TriggerEntry) : TriggerEntry :=
  { x with pending := false, report := { x.report with suppressed := x.report.suppressed + 1 } }

/-- The state in which the ETU handles the frame start. -/
def etuHandled (s : State) : State := s.onEtu fun u => { u with frameDue := false }

theorem exec_etuFrameStart (hdue : s.etu.frameDue = true) :
    exec .etuFrameStart s = .next (etuFrameStart s.ftu.frame (etuHandled s)) :=
  congrArg Host.Outcome.next (if_pos hdue)

theorem etuFrameStart_outside (f : Frame) (hdev : s.smp.dev ≠ .running) : etuFrameStart f s =
    inOrder (pendingTriggers s.etu) (fun e t => writeReport e (onTrigger e TriggerEntry.dropped t)) s :=
  if_neg hdev

theorem etuFrameStart_running (f : Frame) (hdev : s.smp.dev = .running) : etuFrameStart f s =
    takeInbox (inOrder (pendingTriggers s.etu) (fireTrigger f) (s.onEtu fun u => { u with handling := true })) :=
  if_pos hdev

theorem toNat_setWidth_word {n : Nat} (h : n ≤ 32) (v : BitVec n) : (v.setWidth 32).toNat = v.toNat := by
  rw [BitVec.toNat_setWidth]
  exact Nat.mod_eq_of_lt (Nat.lt_of_lt_of_le v.isLt (Nat.pow_le_pow_right (by decide) h))

/-- The state in which the one pending entry's action is taken. -/
theorem fireBegun_eq (e : Fin 8) (s : State) : fireBegun s.ftu.frame e
    ((etuHandled s).onEtu fun u => { u with handling := true }) =
      { s with etu := { s.etu with
        frameDue := false, handling := true,
        entries := upd s.etu.entries e fun x =>
          { x with pending := false, report := { x.report with lastFire := s.ftu.frame } } } } := rfl

/-- Settles O51. -/
theorem pendingTriggersFireOrDrop : Obligations.PendingTriggersFireOrDrop := by
  refine ⟨fun s hdue => congrArg Host.Outcome.next (if_neg (by rw [hdue]; decide)), fun s hdue hdev =>
    ⟨_, exec_etuFrameStart hdue, ?_⟩, fun s hdue hdev => ⟨_, exec_etuFrameStart hdue, ?_⟩,
    fun e s hdue hdev honly c u hc hexec hinbox => ⟨_, exec_etuFrameStart hdue, ?_⟩⟩
  · have hpass := etuFrameStart_outside (s := etuHandled s) s.ftu.frame hdev
    have hentries := inOrder_trigger_get (pendingTriggers s.etu) (pendingTriggers_nodup _) TriggerEntry.dropped (etuHandled s)
    have hframe : ChangesOnly [.mem, .etu] (etuHandled s) (etuFrameStart s.ftu.frame (etuHandled s)) := by
      rw [hpass]
      exact inOrder_then (.refl _ _) fun e t ht => writeReport_then _ (onTrigger_then _ _ ht rfl) rfl
    have hwords := fun haligned hforce e w => inOrder_trigger_word (pendingTriggers s.etu) (pendingTriggers_nodup _)
      TriggerEntry.dropped (etuHandled s) haligned hforce (e := e) (k := 1) (w := w)
    refine ⟨fun e => ?_, ?_, ChangesOnly.trans (onEtu_then _ (.refl _ _) rfl) hframe, fun hforce => ?_, fun a ha => ?_,
      fun hforce haligned e hpending => ?_⟩
    · rw [hpass]
      refine (hentries e).trans ?_
      simp only [mem_pendingTriggers]
      rfl
    · rw [hpass]
      exact inOrder_induct (P := fun t => t.etu.frameDue = false) rfl fun e _ t h => by
        rw [writeReport_etu]
        exact h
    · rw [hpass]
      refine (inOrder_induct (s := etuHandled s) (P := fun t => t.mem = s.mem ∧ t.smp = s.smp) ⟨rfl, rfl⟩ fun e _ t h => ?_).1
      exact ⟨(anchorWrite_mem_of_not_inForce (s := onTrigger e _ t) ((congrArg Smp.inForce h.2).trans hforce) _ _).trans h.1,
        (anchorWrite_smp ..).trans h.2⟩
    · rw [hpass]
      exact inOrder_trigger_mem (s := etuHandled s) _ _ ha
    · have hentry := hentries e
      have hmem : e ∈ pendingTriggers s.etu := mem_pendingTriggers.mpr hpending
      rw [if_pos hmem] at hentry
      have hword := hwords haligned hforce e _ rfl
      rw [if_pos hmem] at hword
      rw [hpass]
      rw [show (0x180 + 32 * e.val + 4 * 1) = 0x184 + 32 * e.val by omega, ← Nat.add_assoc] at hword
      refine hword.trans ?_
      exact (congrArg (fun x : TriggerEntry => x.report.suppressed) hentry).symm
  · have hpass := etuFrameStart_running (s := etuHandled s) s.ftu.frame hdev
    have hcores := fun e => inOrder_keyed (proj := fun e t => t.etu.entries[e].core) (h := fun _ => firedCore s.ftu.frame)
      (f := fireTrigger s.ftu.frame) (fun i j t => fireTrigger_core s.ftu.frame i j t) (pendingTriggers s.etu)
      (pendingTriggers_nodup _) ((etuHandled s).onEtu fun u => { u with handling := true }) e
    have hdueFlag : (inOrder (pendingTriggers s.etu) (fireTrigger s.ftu.frame)
        ((etuHandled s).onEtu fun u => { u with handling := true })).etu.frameDue = false :=
      inOrder_induct (P := fun t => t.etu.frameDue = false) rfl fun e _ t h => (fireTrigger_handling _ _ _).2.trans h
    have hframe := etuFrameStart_then s.ftu.frame (ChangesOnly.refl [.cle, .msu, .zar, .mem, .events, .etu] (etuHandled s)) rfl
    obtain ⟨hkept, hhandling, hinbox, hdue'⟩ := takeInbox_kept (inOrder (pendingTriggers s.etu) (fireTrigger s.ftu.frame)
        ((etuHandled s).onEtu fun u => { u with handling := true }))
    refine ⟨by rw [hpass]; exact hdue'.trans hdueFlag, by rw [hpass]; exact hhandling, by rw [hpass]; exact hinbox,
      fun e => ?_, fun hnone hempty => ?_, ChangesOnly.trans (onEtu_then _ (.refl _ _) rfl) (hframe.mono rfl)⟩
    · have hcore : (etuFrameStart s.ftu.frame (etuHandled s)).etu.entries[e].core =
          if s.etu.entries[e].pending then firedCore s.ftu.frame s.etu.entries[e].core else s.etu.entries[e].core := by
        rw [hpass]
        refine (hkept e).trans ((hcores e).trans ?_)
        simp only [mem_pendingTriggers]
        rfl
      generalize (etuFrameStart s.ftu.frame (etuHandled s)).etu.entries[e] = x at hcore
      cases hpending : s.etu.entries[e].pending with
      | true =>
        rw [hpending, if_pos rfl] at hcore
        rw [if_pos rfl, if_pos rfl]
        exact ⟨congrArg (fun c => c.1) hcore, congrArg (fun c => c.2.2.1) hcore, congrArg (fun c => c.2.2.2.1) hcore,
          congrArg (fun c => c.2.2.2.2) hcore⟩
      | false =>
        rw [hpending, if_neg (by decide)] at hcore
        rw [if_neg (by decide), if_neg (by decide)]
        exact ⟨congrArg (fun c => c.1) hcore, congrArg (fun c => c.2.2.1) hcore, congrArg (fun c => c.2.2.2.1) hcore,
          congrArg (fun c => c.2.2.2.2) hcore⟩
    · have hnil : pendingTriggers (etuHandled s).etu = [] := by
        rw [pendingTriggers, List.filter_eq_nil_iff]
        exact fun e _ => Bool.eq_false_iff.mp (hnone e)
      rw [hpass, hnil, inOrder_nil,
        takeInbox_of_empty (s := (etuHandled s).onEtu fun u => { u with handling := true }) hempty]
      exact ⟨rfl, onEtu_then _ (onEtu_then _ (onEtu_then _ (.refl _ _) rfl) rfl) rfl⟩
  · have hpass := etuFrameStart_running (s := etuHandled s) s.ftu.frame hdev
    have hone : pendingTriggers (etuHandled s).etu = [e] := by
      have hmem : ∀ x : Fin 8, x ∈ pendingTriggers (etuHandled s).etu ↔ x = e := fun x =>
        mem_pendingTriggers.trans (honly x)
      exact List.perm_singleton.mp ((List.perm_ext_iff_of_nodup (pendingTriggers_nodup _) (List.nodup_singleton e)).mpr
        fun x => by rw [hmem, List.mem_singleton])
    generalize hbegun : (etuHandled s).onEtu (fun u => { u with handling := true }) = b at hpass
    have hfired := fireBegun_eq e s
    rw [hbegun] at hfired
    have hu : u = fireTaken s.ftu.frame e b := by
      have haction : (fireBegun s.ftu.frame e b).etu.entries[e].action = s.etu.entries[e].action := by
        rw [hfired]
        exact (congrArg TriggerEntry.action (upd_same _ _ _)).trans rfl
      rw [← hfired] at hexec
      obtain ⟨p, hp, rfl⟩ | ⟨p, hp, rfl⟩ := hc
      · rw [exec_playClip, writeHandover_trigger] at hexec
        have hhand : handAction e (fireBegun s.ftu.frame e b) =
            takeClip ⟨.trigger e, false⟩ RunSlots.none p (fireBegun s.ftu.frame e b) := by
          unfold handAction
          rw [haction, hp]
        rw [fireTaken, hhand]
        injection hexec with hexec
        exact hexec.symm
      · rw [exec_postMessage, writeHandover_trigger] at hexec
        have hhand : handAction e (fireBegun s.ftu.frame e b) =
            takeMessage ⟨.trigger e, false⟩ RunSlots.none p (fireBegun s.ftu.frame e b) := by
          unfold handAction
          rw [haction, hp]
        rw [fireTaken, hhand]
        injection hexec with hexec
        exact hexec.symm
    have hpass' : etuFrameStart s.ftu.frame (etuHandled s) = { u with etu := { u.etu with
        handling := false, entries := upd u.etu.entries e fun x => { x with armed := x.armed && x.rearm } } } := by
      rw [hpass, hone]
      change takeInbox (fireTrigger s.ftu.frame e b) = _
      rw [fireTrigger_eq, ← hu]
      exact takeInbox_of_empty (s := onTrigger e _ u) hinbox
    refine ⟨hpass', fun hforce haligned => ?_⟩
    dsimp only
    rw [hpass']
    dsimp only
    have hreport : (upd u.etu.entries e fun x => { x with armed := x.armed && x.rearm })[e].report =
        u.etu.entries[e].report := (congrArg TriggerEntry.report (upd_same _ _ _)).trans rfl
    rw [hreport]
    have hlast : u.etu.entries[e].report.lastFire = s.ftu.frame := by
      have hcore := (fireTaken_kept s.ftu.frame e b).core e
      rw [← hu, hfired] at hcore
      have hentry : (upd s.etu.entries e fun x =>
          ({ x with pending := false, report := { x.report with lastFire := s.ftu.frame } } : TriggerEntry))[e] =
          { s.etu.entries[e] with pending := false, report := { s.etu.entries[e].report with lastFire := s.ftu.frame } } :=
        upd_same _ _ _
      dsimp only at hcore
      rw [hentry] at hcore
      exact congrArg (fun c => c.2.2.1) hcore
    obtain ⟨v, hv, hvframe⟩ : ∃ v, u = writeReport e v ∧ ChangesOnly [.cle, .msu, .zar, .mem, .events, .etu] s v := by
      refine ⟨_, hu, ?_⟩
      have hhand := handAction_then e (ChangesOnly.refl [.cle, .msu, .zar, .mem, .events, .etu] (fireBegun s.ftu.frame e b)) rfl
      have hbegan : ChangesOnly [.etu] s (fireBegun s.ftu.frame e b) := by
        rw [← hbegun]
        exact onTrigger_then _ _ (onEtu_then _ (onEtu_then _ (.refl _ _) rfl) rfl) rfl
      exact onTrigger_then _ _ ((hbegan.mono rfl).trans (hhand.mono rfl)) rfl
    have hanchor : v.smp.anchor = s.smp.anchor := hvframe.anchor rfl
    have huetu : u.etu = v.etu := by rw [hv, writeReport_etu]
    have hword : ∀ k w, u.etu.entries[e].report.words[k]? = some w →
        u.mem.word (s.smp.anchor.toNat + (0x180 + 32 * e.val + 4 * k)) = w := fun k w hw => by
      rw [huetu] at hw
      have := writeReport_word (s := v) (e := e) (by rw [hanchor]; exact haligned) ((hvframe.inForce rfl).trans hforce) hw
      rw [hanchor, ← hv] at this
      exact this
    have hat : ∀ k, s.smp.anchor.toNat + 0x180 + 32 * e.val + 4 * k =
      s.smp.anchor.toNat + (0x180 + 32 * e.val + 4 * k) := fun k => by omega
    refine ⟨(congrArg u.mem.word (hat 0)).trans (hword 0 _ rfl), ?_, ?_, ?_, ?_, ?_, ?_⟩
    · exact (congrArg u.mem.word (hat 1)).trans (hword 1 _ rfl)
    · exact (congrArg u.mem.word (hat 2)).trans ((hword 2 _ rfl).trans hlast)
    · exact (congrArg (fun x => (u.mem.word x).toNat) (hat 3)).trans
        ((congrArg BitVec.toNat (hword 3 _ rfl)).trans (toNat_setWidth_word (by decide) _))
    · exact (congrArg (fun x => (u.mem.word x).toNat) (hat 4)).trans
        ((congrArg BitVec.toNat (hword 4 _ rfl)).trans (toNat_setWidth_word (by decide) _))
    · exact (congrArg u.mem.word (hat 5)).trans (hword 5 _ rfl)
    · exact (congrArg u.mem.word (hat 6)).trans (hword 6 _ rfl)

end Sys2Proof.Machine
end

section
/-! SUPPORT. What a soft reset and a link reset leave in every block, and where the FTU places the next frame start. -/

namespace Sys2Proof.Machine

variable {s t u : State}

/-! ## The unlogged zone-frames that a reset enters (R143, R152) -/

/-- The unlogged zone-frames of each entry grow by `d`, and nothing else changes. -/
structure UnloggedBy (d : Fin 8 → Fin 64 → Nat) (s t : State) : Prop where
  rest : t = s.onSru fun r => { r with accounts := t.sru.accounts }
  account : ∀ (g : Fin 8) (i : Fin 64), t.sru.accounts[g][i] =
    { s.sru.accounts[g][i] with unlogged := s.sru.accounts[g][i].unlogged + BitVec.ofNat 64 (d g i) }

theorem UnloggedBy.refl {d : Fin 8 → Fin 64 → Nat} (hd : ∀ g i, d g i = 0) (s : State) : UnloggedBy d s s :=
  ⟨rfl, fun g i => by simp [hd]⟩

theorem UnloggedBy.trans {d e f : Fin 8 → Fin 64 → Nat} (h : UnloggedBy d s t) (k : UnloggedBy e t u)
    (hsum : ∀ g i, f g i = d g i + e g i) : UnloggedBy f s u where
  rest := by
    rw [k.rest, h.rest]
    rfl
  account g i := by rw [k.account, h.account, hsum, BitVec.ofNat_add, BitVec.add_assoc]


theorem addUnlogged_by (g : Fin 8) (i : Fin 64) (n : Nat) (s : State) :
    UnloggedBy (fun g' i' => if g' = g ∧ i' = i then n else 0) s (addUnlogged g i n s) where
  rest := rfl
  account g' i' := by
    rw [addUnlogged, onAccount_get]
    by_cases h : g' = g ∧ i' = i
    · rw [if_pos h, if_pos h, h.1, h.2]
    · rw [if_neg h, if_neg h]
      simp

theorem resetSlot_by (g : Fin 8) (s : State) :
    UnloggedBy (fun g' i => if g' = g then s.sru.groups[g].framesFor i else 0) s (resetSlot g s) := by
  have hnothing (h : ∀ i, s.sru.groups[g].framesFor i = 0) :
      UnloggedBy (fun g' i => if g' = g then s.sru.groups[g].framesFor i else 0) s s :=
    .refl (fun g' i => by simp only [h, ite_self]) s
  unfold resetSlot
  split
  case h_1 x hopen =>
    split
    case isTrue hclear => exact hnothing (framesFor_eq_zero fun y hy => by rw [hopen] at hy; cases hy; exact hclear)
    case isFalse hclear =>
      have hadded := addUnlogged_by g x.entry x.running s
      refine ⟨hadded.rest, fun g' i => (hadded.account g' i).trans ?_⟩
      have hamount : (if g' = g ∧ i = x.entry then x.running else 0) =
          if g' = g then s.sru.groups[g].framesFor i else 0 := by
        simp only [RotationGroup.framesFor, hopen, Bool.eq_false_iff.2 hclear, and_true]
        by_cases hg : g' = g <;> by_cases hi : i = x.entry <;> simp [hg, hi, eq_comm]
      rw [hamount]
  case h_2 hopen => exact hnothing (framesFor_eq_zero fun y hy => by rw [hopen] at hy; cases hy)

theorem inOrder_resetSlot_by (l : List (Fin 8)) (hl : l.Nodup) (s : State) :
    UnloggedBy (fun g i => if g ∈ l then s.sru.groups[g].framesFor i else 0) s (inOrder l resetSlot s) := by
  induction l generalizing s with
  | nil => exact .refl (fun _ _ => by simp) s
  | cons a l ih =>
    obtain ⟨hnew, hl⟩ := List.nodup_cons.1 hl
    refine (resetSlot_by a s).trans (ih hl (resetSlot a s)) fun g i => ?_
    rw [resetSlot_groups]
    by_cases hg : g = a
    · subst hg
      simp [hnew]
    · simp [hg]

theorem countUnlogged_by (r : PlayRecord) (s : State) :
    UnloggedBy (fun g i => r.framesFor g i) s (countUnlogged s r) := by
  unfold countUnlogged
  split
  case isTrue hclear => exact .refl (fun g i => if_neg fun h => absurd (hclear.symm.trans h.2.2) (by decide)) s
  case isFalse hclear =>
    have hadded := addUnlogged_by r.group r.entry r.zoneFrames s
    refine ⟨hadded.rest, fun g i => (hadded.account g i).trans ?_⟩
    have hamount : (if g = r.group ∧ i = r.entry then r.zoneFrames else 0) = r.framesFor g i := by
      simp [PlayRecord.framesFor, Bool.eq_false_iff.2 hclear, eq_comm]
    rw [hamount]

theorem foldl_countUnlogged_by (l : List PlayRecord) (s : State) :
    UnloggedBy (fun g i => (l.map fun r => r.framesFor g i).sum) s (l.foldl countUnlogged s) := by
  induction l generalizing s with
  | nil => exact .refl (fun _ _ => rfl) s
  | cons r l ih => exact (countUnlogged_by r s).trans (ih _) fun g i => by rw [List.map_cons, List.sum_cons]

/-! ## The blocks before the FTU -/

/-- The state after the blocks other than the FTU have been reset. -/
def blocksReset (cause : ResetCause) (s : State) : State :=
  etuReset (plwReset (sruReset (msuReset (cleReset (cloReset (zarReset (ciuReset
    (s.onSmp fun m => m.afterReset cause))))))))

theorem resetDevice_eq (cause : ResetCause) (s : State) :
    resetDevice cause s = ftuReset (reachPresent (blocksReset cause s)) := rfl

theorem sruReset_by (s : State) : ∃ as : Vector (Vector Account 64) 8,
    sruReset s = s.onSru (fun r => { r with accounts := as, groups := r.groups.map RotationGroup.afterReset }) ∧
    ∀ (g : Fin 8) (i : Fin 64), as[g][i] = { s.sru.accounts[g][i] with
      unlogged := s.sru.accounts[g][i].unlogged + BitVec.ofNat 64 (openFrames s g i) } := by
  have hslots := inOrder_resetSlot_by (List.finRange 8) (List.nodup_finRange 8) s
  rw [sruReset_eq]
  generalize inOrder (List.finRange 8) resetSlot s = v at hslots
  refine ⟨v.sru.accounts, ?_, fun g i => ?_⟩
  · conv_lhs => rw [hslots.rest]
    rfl
  · rw [hslots.account, if_pos (List.mem_finRange g), openFrames_eq]

theorem plwReset_by (s : State) : ∃ as : Vector (Vector Account 64) 8,
    plwReset s = (s.onPlw fun p => { p with hold := [], badIndex := none }).onSru (fun r => { r with accounts := as }) ∧
    ∀ (g : Fin 8) (i : Fin 64), as[g][i] = { s.sru.accounts[g][i] with
      unlogged := s.sru.accounts[g][i].unlogged + BitVec.ofNat 64 (heldFrames s g i) } := by
  have hheld := foldl_countUnlogged_by s.plw.hold s
  rw [plwReset_eq]
  generalize s.plw.hold.foldl countUnlogged s = v at hheld
  refine ⟨v.sru.accounts, ?_, fun g i => ?_⟩
  · conv_lhs => rw [hheld.rest]
    rfl
  · rw [hheld.account, heldFrames_eq]

theorem blocksReset_by (cause : ResetCause) (s : State) : ∃ as : Vector (Vector Account 64) 8,
    blocksReset cause s = { s with
      smp := s.smp.afterReset cause, ciu := { s.ciu with scan := 0, refusing := false }, zar := Zar.reset,
      clo := { s.clo with work := none, asked := [], links := Vector.replicate 4 PanelLink.reset },
      cle := { s.cle with slots := Vector.replicate 8 ClipSlot.cleared },
      msu := { s.msu with slots := Vector.replicate 8 MessageSlot.cleared },
      sru := { s.sru with accounts := as, groups := s.sru.groups.map RotationGroup.afterReset },
      plw := { s.plw with hold := [], badIndex := none },
      etu := { s.etu with entries := Vector.replicate 8 TriggerEntry.reset, handling := false, inbox := [] } } ∧
    ∀ (g : Fin 8) (i : Fin 64), as[g][i] = { s.sru.accounts[g][i] with
      unlogged := s.sru.accounts[g][i].unlogged + BitVec.ofNat 64 (heldFrames s g i + openFrames s g i) } := by
  unfold blocksReset
  obtain ⟨running, hsru, hopen⟩ := sruReset_by (msuReset (cleReset (cloReset (zarReset (ciuReset
    (s.onSmp fun m => m.afterReset cause))))))
  rw [hsru]
  obtain ⟨held, hplw, hheld⟩ := plwReset_by ((msuReset (cleReset (cloReset (zarReset (ciuReset
    (s.onSmp fun m => m.afterReset cause)))))).onSru fun r =>
      { r with accounts := running, groups := r.groups.map RotationGroup.afterReset })
  rw [hplw]
  refine ⟨held, rfl, fun g i => (hheld g i).trans ?_⟩
  rw [State.onSru_sru, hopen g i, Nat.add_comm, BitVec.ofNat_add, ← BitVec.add_assoc]
  rfl

theorem blocksReset_leaves (cause : ResetCause) (s : State) : ResetLeaves cause s (blocksReset cause s) := by
  obtain ⟨as, heq, haccounts⟩ := blocksReset_by cause s
  rw [heq]
  unfold ResetLeaves
  refine ⟨rfl, rfl, rfl, rfl, rfl, rfl, rfl, rfl, rfl, rfl, rfl, rfl, rfl, rfl, rfl, rfl, rfl, rfl, rfl, ?_, ?_, ?_, ?_, rfl, rfl, rfl, rfl, rfl, rfl, rfl, rfl, rfl, rfl, rfl, ?_, rfl, rfl⟩
  · exact fun k => Vector.getElem_replicate ..
  · exact fun k => Vector.getElem_replicate ..
  · intro g
    have hgroup : (s.sru.groups.map RotationGroup.afterReset)[g] = s.sru.groups[g].afterReset := Vector.getElem_map ..
    exact ⟨congrArg RotationGroup.enabled hgroup, congrArg RotationGroup.zones hgroup, congrArg RotationGroup.openSlot hgroup,
      Eq.trans (congrArg RotationGroup.saturated hgroup) rfl, Eq.trans (congrArg RotationGroup.slotNumber hgroup) rfl,
      Eq.trans (congrArg RotationGroup.snapshots hgroup) rfl⟩
  · exact haccounts
  · exact fun e => Vector.getElem_replicate ..

/-! ## The FTU -/

/-- What a reset leaves does not change with what an issued frame start delivers. -/
theorem ResetLeaves.delivered {cause : ResetCause} (h : ResetLeaves cause s u) (hd : Delivered u t)
    (hsmp : t.smp = { u.smp with frameDue := true, events := t.smp.events }) (hmem : t.mem = u.mem)
    (hframe : ChangesOnly (.free :: frameParts) u t) : ResetLeaves cause s t := by
  have hzar : t.zar = u.zar := hframe .zar rfl
  have hcle : t.cle = u.cle := hframe .cle rfl
  have hsru : t.sru = u.sru := hframe .sru rfl
  have hpending : t.pending = u.pending := hframe .pending rfl
  unfold ResetLeaves at h ⊢
  rw [hsmp, hmem, hd.ciu, hd.clo, hd.msu, hd.plw, hd.ccu, hd.etu, hzar, hcle, hsru, hpending]
  exact h

theorem tickAfter_le {f : Ftu} {n : Nat} {x : Sched} {rest : List Sched} (h : f.schedule = x :: rest) :
    max f.tick (f.tickAfter n) ≤ max f.tick x.tick := by
  simp only [Ftu.tickAfter, Ftu.nextEvent, h]
  omega

/-- The FTU as a reset leaves it before it places the next frame start. -/
def Ftu.restarted (f : Ftu) (now : Nat) : Ftu := { f with tick := now }.freed

theorem ftuReset_atTick (now : Nat) (u : State) : ftuReset (u.onFtu fun f => { f with tick := now }) =
    placeByPeriod now (u.onFtu fun f => { f.restarted now with schedule := [] }) := rfl

theorem reachPresent_eq (s : State) : reachPresent s =
    s.nextFree.onFtu fun f => { f with tick := max s.ftu.tick (s.ftu.tickAfter (Config.ticksSince s.free)) } := rfl

theorem acted_free {f : Ftu} (h : f.lock = .free) : f.acted = if f.refEnable then f.acquiring else f := by
  unfold Ftu.acted
  rw [if_pos h]

theorem blocksReset_ftu (cause : ResetCause) (s : State) : (blocksReset cause s).ftu = s.ftu := by
  obtain ⟨as, heq, -⟩ := blocksReset_by cause s
  rw [heq]

theorem blocksReset_smp (cause : ResetCause) (s : State) : (blocksReset cause s).smp = s.smp.afterReset cause := by
  obtain ⟨as, heq, -⟩ := blocksReset_by cause s
  rw [heq]

/-- The tick that a reset takes for the present one (log 3). -/
def presentAt (s : State) : Nat := max s.ftu.tick (s.ftu.tickAfter (Config.ticksSince s.free))

/-- The state in which the FTU places the next frame start after a reset. -/
def restarted (s : State) : State := s.nextFree.onFtu fun f => { f.restarted (presentAt s) with schedule := [] }

theorem ftuReset_reachPresent (s : State) :
    ftuReset (reachPresent s) = placeByPeriod (presentAt s) (restarted s) := rfl

theorem restarted_periodTick (s : State) : (restarted s).ftu.periodTick = s.ftu.lastStart + s.ftu.freeRun := rfl

theorem restarted_schedule (s : State) : (restarted s).ftu.schedule = [] := rfl

theorem restarted_byPeriod : (restarted s).ftu.lock ≠ .locked := nofun

/-- A reset that finds the next frame start still to come schedules it. -/
theorem ftuReset_waits (h : presentAt s ≤ s.ftu.lastStart + s.ftu.freeRun) :
    ftuReset (reachPresent s) = s.nextFree.onFtu fun f =>
      { f.restarted (presentAt s) with schedule := [⟨f.lastStart + f.freeRun, true⟩] } := by
  rw [ftuReset_reachPresent, placeByPeriod_waits restarted_byPeriod (.inr h), restarted_schedule, if_pos rfl,
    restarted_periodTick]
  rfl

/-- A reset that finds the next frame start overdue issues it. -/
theorem ftuReset_overdue (h : s.ftu.lastStart + s.ftu.freeRun < presentAt s) :
    ftuReset (reachPresent s) = issueAt (presentAt s) (restarted s) := by
  rw [ftuReset_reachPresent, placeByPeriod_overdue restarted_byPeriod rfl h]

theorem issueAt_restarted_ftu (hforce : s.smp.inForce = false) (k : Nat) :
    let t := issueAt k (restarted s)
    t.ftu.lock = (if s.ftu.refEnable then .acquiring else .free) ∧ t.ftu.lockedPeriod = none ∧ t.ftu.measured = 0 ∧
    t.ftu.runCount = 0 ∧ t.ftu.slipCount = 0 ∧ t.ftu.lastEdge = none ∧ t.ftu.freeRun = s.ftu.freeRun ∧
    t.ftu.refEnable = s.ftu.refEnable ∧ t.ftu.phase = s.ftu.phase ∧ t.ftu.schedule = [⟨k + s.ftu.freeRun, true⟩] := by
  have hforce' : (restarted s).smp.inForce = false := hforce
  simp only [issueAt_ftu, acted_free (f := beganFtu k (restarted s)) rfl]
  simp only [beganFtu, hforce', Bool.false_eq_true, if_false]
  cases hen : s.ftu.refEnable with
  | true =>
    rw [if_pos (show (restarted s).ftu.refEnable = true from hen)]
    exact ⟨rfl, rfl, rfl, rfl, rfl, rfl, rfl, hen, rfl, rfl⟩
  | false =>
    rw [if_neg (show ¬(restarted s).ftu.refEnable = true by rw [show (restarted s).ftu.refEnable = false from hen]; decide)]
    exact ⟨rfl, rfl, rfl, rfl, rfl, rfl, rfl, hen, rfl, rfl⟩

theorem issueAt_restarted_events (hforce : s.smp.inForce = false) (hevents : s.smp.events = 0) (k : Nat) :
    (issueAt k (restarted s)).smp.events = if s.ftu.refEnable then 0x020#10 else 0#10 := by
  obtain ⟨hlock, -⟩ := issueAt_restarted_ftu hforce k
  rw [issueAt_ftu, placed_kept Ftu.lock (fun _ _ => rfl)] at hlock
  rw [issueAt_smp, hlock]
  simp only [show (restarted s).smp.events = 0#10 from hevents, show (restarted s).ftu.lock = .free from rfl]
  cases s.ftu.refEnable <;> rfl

/-- Settles O4. -/
theorem resetsReachEveryBlock : Obligations.ResetsReachEveryBlock := by
  intro c cause s hc
  have hexec : exec c s = .next (resetDevice cause s) := by
    rcases hc with ⟨v, rfl, hv, rfl⟩ | ⟨rfl, rfl⟩
    · exact congrArg Host.Outcome.next (if_pos hv)
    · rfl
  rw [hexec, resetDevice_eq]
  have hleaves := blocksReset_leaves cause s
  have hftu := blocksReset_ftu cause s
  have hsmp := blocksReset_smp cause s
  generalize blocksReset cause s = u at hleaves hftu hsmp
  have hforce : u.smp.inForce = false := by rw [hsmp]; rfl
  have hevents : u.smp.events = 0 := by rw [hsmp]; rfl
  have hdue : u.smp.frameDue = s.smp.frameDue := by rw [hsmp]; rfl
  rw [← hftu]
  refine ⟨_, presentAt u, rfl, ?_, le_max_left _ _, fun x rest h => tickAfter_le h, fun h => ?_, fun h => ?_⟩
  · rcases Nat.lt_or_ge (u.ftu.lastStart + u.ftu.freeRun) (presentAt u) with h | h
    · rw [ftuReset_overdue h]
      have hd : Delivered u (issueAt (presentAt u) (restarted u)) := by
        obtain ⟨hsmp, hciu, hclo, hmsu, hplw, hccu, hetu⟩ := issueAt_delivered (presentAt u) (restarted u)
        exact ⟨hsmp, hciu, hclo, hmsu, hplw, hccu, hetu⟩
      refine hleaves.delivered hd ?_ ((issueAt_in _ _).unanchored hforce) ?_
      · rw [issueAt_smp]
        rfl
      · exact issueAt_then _ (onFtu_then _ (nextFree_then (.refl _ u) rfl) rfl) rfl
    · rw [ftuReset_waits h]
      exact hleaves
  · rw [ftuReset_waits h]
    exact ⟨hevents, hdue, rfl⟩
  · rw [ftuReset_overdue h]
    obtain ⟨hlock, hlocked, hmeasured, hrun, hslip, hlast, hfree, hen, hphase, hschedule⟩ :=
      issueAt_restarted_ftu hforce (presentAt u)
    exact ⟨issueAt_frameNumber, issueAt_tick, issueAt_lastStart, issueAt_frameDue, hlock,
      issueAt_restarted_events hforce hevents _, hlocked, hmeasured, hrun, hslip, hlast, hfree, hen, hphase, hschedule⟩

end Sys2Proof.Machine
end

section
/-! SUPPORT. A halt: the claims, the clips and messages, the groups, and what the anchor shows of it (R8, R12). -/

namespace Sys2Proof.Machine

variable {s t u : State}

/-! ## Bytes of the anchor that no result, play record or snapshot is written to -/

/-- The cue list, the play log and the exposure snapshot lie in memory and clear of the anchor. -/
structure Regions (s : State) : Prop where
  list : CueListInside s
  listApart : ListApart s
  log : LogInside s
  snapshot : SnapshotInside s

theorem Regions.of_same (h : Regions s) (hciu : t.ciu = s.ciu) (hanchor : t.smp.anchor = s.smp.anchor)
    (hoffset : t.plw.logOffset = s.plw.logOffset) (hlength : t.plw.logLength = s.plw.logLength)
    (hindex : s.plw.writeIndex < s.plw.logLength → t.plw.writeIndex < s.plw.logLength)
    (hsnapshot : t.sru.snapshotOffset = s.sru.snapshotOffset) : Regions t := by
  obtain ⟨hlist, hapart, ⟨hwrite, hlog⟩, hsnap⟩ := h
  refine ⟨?_, ?_, ⟨?_, ?_⟩, ?_⟩
  · rwa [CueListInside, hciu]
  · rwa [ListApart, hciu, hanchor]
  · rw [hlength]
    exact hindex hwrite
  · rwa [hoffset, hlength, hanchor]
  · rwa [SnapshotInside, hsnapshot, hanchor]

theorem Regions.of_frame {ps : List Part} (h : Regions s) (hframe : ChangesOnly ps s t)
    (hps : sub ps [.mem, .events, .free, .etu, .zar, .cle, .msu, .clo, .ccu, .ftu] = true) : Regions t := by
  have hframe := hframe.mono hps
  have hplw : t.plw = s.plw := hframe .plw rfl
  exact h.of_same (hframe .ciu rfl) (hframe.anchor rfl) (by rw [hplw]) (by rw [hplw]) (by rw [hplw]; exact id)
    (congrArg Sru.snapshotOffset (hframe .sru rfl))

/-- With the regions apart, they stay so, and the bytes of the anchor from `lo` to `hi` keep their values. -/
def KeepsBytes (lo hi : Nat) (s t : State) : Prop :=
  Regions s → Regions t ∧ t.smp.anchor = s.smp.anchor ∧ ∀ a, AnchorByte s lo hi a → t.mem.get a = s.mem.get a

section
variable {lo hi : Nat}

theorem KeepsBytes.trans (h : KeepsBytes lo hi s t) (k : KeepsBytes lo hi t u) : KeepsBytes lo hi s u := by
  intro hs
  obtain ⟨ht, hanchor, hmem⟩ := h hs
  obtain ⟨hu, hanchor', hmem'⟩ := k ht
  refine ⟨hu, hanchor'.trans hanchor, fun a ha => (hmem' a ?_).trans (hmem a ha)⟩
  rwa [AnchorByte, hanchor]

/-- An act that leaves the regions where they are. -/
theorem KeepsBytes.of_frame {ps : List Part} (hframe : ChangesOnly ps s t)
    (h : sub ps [.mem, .events, .free, .etu, .zar, .cle, .msu, .clo, .ccu, .ftu] = true)
    (hmem : Regions s → ∀ a, AnchorByte s lo hi a → t.mem.get a = s.mem.get a) : KeepsBytes lo hi s t :=
  fun hs => ⟨hs.of_frame hframe h, (hframe.mono h).anchor rfl, hmem hs⟩

theorem KeepsBytes.of_mem {ps : List Part} (hframe : ChangesOnly ps s t)
    (h : sub ps [.events, .free, .etu, .zar, .cle, .msu, .clo, .ccu, .ftu] = true) : KeepsBytes lo hi s t := by
  have hframe := hframe.mono h
  have hmem : t.mem = s.mem := hframe .mem rfl
  exact .of_frame hframe rfl fun _ a _ => by rw [hmem]

theorem sourceEvent_keepsBytes (hhi : hi ≤ 0x180) (ev : TriggerSource) (s : State) : KeepsBytes lo hi s (sourceEvent ev s) :=
  .of_frame (sourceEvent_then ev (ChangesOnly.refl [.etu, .mem] s) rfl) rfl fun _ a ha =>
    sourceEvent_get_outside ev fun hin => by unfold AnchorByte at ha hin; omega

theorem originCompleted_keepsBytes (hhi : hi ≤ 0x180) (o : Origin) (epoch : Nat) (r : CueResult) (s : State) :
    KeepsBytes lo hi s (originCompleted o epoch r s) := by
  cases o with
  | cue i =>
    refine .of_frame (completeCue_then epoch i r (ChangesOnly.refl [.mem, .events] s) rfl) rfl fun hs a ha => ?_
    by_cases hepoch : epoch = s.smp.anchorEpoch
    · rw [originCompleted, completeCue_of_epoch hepoch]
      by_cases hi' : s.smp.inForce = true ∧ i < s.ciu.listLength
      · refine writeDone_get_outside (fun hin => ?_) r
        refine record_apart_anchor (lo := lo) (hi := hi) hs.listApart hi'.2 (by omega) ?_ ?_ ha <;>
        · unfold ResultByte at hin
          omega
      · rw [writeDone_of_no_record hi']
    · rw [originCompleted, completeCue, if_neg (Ne.symm hepoch)]
  | trigger e =>
    refine .of_frame (triggerResult_then e _ _ _ (ChangesOnly.refl [.etu, .mem] s) rfl) rfl fun _ a ha => ?_
    refine (writeReport_get_outside e fun hin => ?_).trans rfl
    unfold AnchorByte at ha hin
    rw [onTrigger_smp] at hin
    omega

theorem keepsBytes_stable (hhi : hi ≤ 0x180) : TakingStable (KeepsBytes lo hi) where
  trans := .trans
  slots h := .of_mem h rfl
  origin := originCompleted_keepsBytes hhi
  source := sourceEvent_keepsBytes hhi

/-- The bytes are apart from the write index and the overflow count of the log. -/
def ApartFromLog (lo hi : Nat) : Prop := hi ≤ 0x10C ∨ 0x114 ≤ lo

theorem testReadIndex_keepsBytes (s : State) : KeepsBytes lo hi s (testReadIndex s) := by
  intro hs
  have hframe := testReadIndex_then (ChangesOnly.refl [.plw, .events] s) rfl
  have hmem : (testReadIndex s).mem = s.mem := hframe .mem rfl
  refine ⟨hs.of_same (hframe .ciu rfl) (hframe.anchor rfl) ?_ ?_ ?_ (congrArg Sru.snapshotOffset (hframe .sru rfl)),
    hframe.anchor rfl, fun a _ => by rw [hmem]⟩ <;> rw [testReadIndex_plw]
  exact id

theorem holdRecord_keepsBytes (r : PlayRecord) (s : State) : KeepsBytes lo hi s (holdRecord r s) := fun hs =>
  ⟨hs.of_same rfl rfl rfl rfl id rfl, rfl, fun _ _ => rfl⟩

theorem dropRecord_keepsBytes (hlog : ApartFromLog lo hi) (r : PlayRecord) (s : State) :
    KeepsBytes lo hi s (dropRecord r s) := by
  intro hs
  have hframe := dropRecord_then r (ChangesOnly.refl [.mem, .plw, .sru, .events] s) rfl
  have hplw : (dropRecord r s).plw = { s.plw with overflow := saturate (s.plw.overflow + 1) } := by
    rw [dropRecord_eq, raise_plw, anchorWrite_plw, dropped]
    split <;> rfl
  have hsnapshot : (dropRecord r s).sru.snapshotOffset = s.sru.snapshotOffset := by
    rw [dropRecord_sru]
    split <;> rfl
  refine ⟨hs.of_same (hframe .ciu rfl) (hframe.anchor rfl) (by rw [hplw]) (by rw [hplw]) (by rw [hplw]; exact id) hsnapshot,
    hframe.anchor rfl, fun a ha => ?_⟩
  have hmem : (dropped r s).mem = s.mem := by
    unfold dropped
    split <;> rfl
  rw [dropRecord_eq, raise_mem, anchorWrite_get_outside (hi := 0x114) (Nat.le_refl _) ?_, hmem]
  rcases hlog with h | h <;>
  · unfold AnchorByte at ha ⊢
    rw [dropped_smp]
    omega

theorem writeRecord_keepsBytes (hlog : ApartFromLog lo hi) (hhi : hi ≤ 0x180) {s : State} (hforce : s.smp.inForce = true)
    (r : PlayRecord) : KeepsBytes lo hi s (writeRecord r s) := by
  intro hs
  have hframe := writeRecord_then r (ChangesOnly.refl [.mem, .plw, .sru] s) rfl
  have hsnapshot : (writeRecord r s).sru.snapshotOffset = s.sru.snapshotOffset := by
    rw [writeRecord_sru]
    split <;> rfl
  have hplw := writeRecord_plw r s
  refine ⟨hs.of_same (hframe .ciu rfl) (hframe.anchor rfl) (by rw [hplw]) (by rw [hplw]) (fun hlt => ?_) hsnapshot,
    hframe.anchor rfl, fun a ha => ?_⟩
  · rw [hplw]
    exact Nat.mod_lt _ (Nat.zero_lt_of_lt hlt)
  · obtain ⟨hlt, hfits, -, hclear⟩ := hs.log
    unfold AnchorByte at ha
    rw [writeRecord_mem hforce, Memory.get_storeWords_outside, Memory.get_storeWords_outside]
    · rw [playRecord_words_length]
      omega
    · rw [List.length_singleton]
      rcases hlog with h | h <;> omega

theorem handRecord_keepsBytes (hlog : ApartFromLog lo hi) (hhi : hi ≤ 0x180) (r : PlayRecord) (s : State) :
    KeepsBytes lo hi s (handRecord r s) := by
  unfold handRecord
  split
  · exact dropRecord_keepsBytes hlog r s
  · split
    · next hwritable =>
      split
      · exact (testReadIndex_keepsBytes s).trans
          (writeRecord_keepsBytes hlog hhi ((testReadIndex_inForce s).trans hwritable.2) r)
      · exact (testReadIndex_keepsBytes s).trans (holdRecord_keepsBytes r _)
    · exact holdRecord_keepsBytes r s

theorem onGroup_keepsBytes (g : Fin 8) (f : RotationGroup → RotationGroup) (s : State) :
    KeepsBytes lo hi s (onGroup g f s) := fun hs => ⟨hs.of_same rfl rfl rfl rfl id rfl, rfl, fun _ _ => rfl⟩

theorem nextFree_keepsBytes (s : State) : KeepsBytes lo hi s s.nextFree := fun hs =>
  ⟨hs.of_same rfl rfl rfl rfl id rfl, rfl, fun _ _ => rfl⟩

theorem writeSnapshot_keepsBytes (hhi : hi ≤ 0x180) (g : Fin 8) (accounts : Vector Account 64) (s : State) :
    KeepsBytes lo hi s (writeSnapshot g accounts s) := by
  intro hs
  have hframe := writeSnapshot_then g accounts (ChangesOnly.refl [.mem, .sru] s) rfl
  have hplw : (writeSnapshot g accounts s).plw = s.plw := hframe .plw rfl
  have hsnapshot : (writeSnapshot g accounts s).sru.snapshotOffset = s.sru.snapshotOffset := by
    unfold writeSnapshot
    split <;> rfl
  refine ⟨hs.of_same (hframe .ciu rfl) (hframe.anchor rfl) (by rw [hplw]) (by rw [hplw]) (by rw [hplw]; exact id) hsnapshot,
    hframe.anchor rfl, fun a ha => writeSnapshot_get_outside fun hin => ?_⟩
  obtain ⟨-, hclear⟩ := hs.snapshot
  have := g.isLt
  unfold AnchorByte at ha
  omega

theorem closeSlot_keepsBytes (hlog : ApartFromLog lo hi) (hhi : hi ≤ 0x180) (g : Fin 8) (s : State) :
    KeepsBytes lo hi s (closeSlot g s) := by
  cases hopen : s.sru.groups[g].openSlot with
  | none =>
    rw [closeSlot, hopen]
    exact .of_mem (.refl [] s) rfl
  | some x =>
    have hhanded : KeepsBytes lo hi s (handedOver g x s).nextFree :=
      ((onGroup_keepsBytes _ _ s).trans (handRecord_keepsBytes hlog hhi _ _)).trans (nextFree_keepsBytes _)
    rw [closeSlot_of_open hopen]
    split
    · exact hhanded.trans (writeSnapshot_keepsBytes hhi _ _ _)
    · exact hhanded

theorem cutSlot_keepsBytes (hlog : ApartFromLog lo hi) (hhi : hi ≤ 0x180) (g : Fin 8) (s : State) :
    KeepsBytes lo hi s (cutSlot g s) := by
  have hsame : KeepsBytes lo hi s s := .of_mem (.refl [] s) rfl
  unfold cutSlot
  split
  · exact hsame
  · split
    · exact hsame
    · dsimp only
      split
      · exact (onGroup_keepsBytes _ _ s).trans (closeSlot_keepsBytes hlog hhi g _)
      · exact onGroup_keepsBytes _ _ s

theorem writeGroupStatus_keepsBytes (hstatus : hi ≤ 0x128 ∨ 0x130 ≤ lo) (s : State) :
    KeepsBytes lo hi s (writeGroupStatus s) := by
  refine .of_frame (writeGroupStatus_then (ChangesOnly.refl [.mem] s) rfl) rfl fun _ a ha =>
    writeGroupStatus_get_outside fun hin => ?_
  unfold AnchorByte at ha hin
  omega

theorem disableGroup_keepsBytes (hlog : ApartFromLog lo hi) (hhi : hi ≤ 0x180) (hstatus : hi ≤ 0x128 ∨ 0x130 ≤ lo)
    (g : Fin 8) (s : State) : KeepsBytes lo hi s (disableGroup g s) := by
  cases h : s.sru.groups[g].enabled with
  | false =>
    rw [disableGroup_of_disabled h]
    exact .of_mem (.refl [] s) rfl
  | true =>
    rw [disableGroup_of_enabled h]
    have hreleased : KeepsBytes lo hi s (releaseClaims (.group g) (onGroup g (fun r => { r with enabled := false }) s)) :=
      (onGroup_keepsBytes _ _ s).trans (.of_mem (releaseClaims_then _ (ChangesOnly.refl [.zar] _) rfl) rfl)
    exact (hreleased.trans (cutSlot_keepsBytes hlog hhi g _)).trans (writeGroupStatus_keepsBytes hstatus _)

theorem inOrder_keepsBytes {α : Type} {f : α → State → State} (hf : ∀ x t, KeepsBytes lo hi t (f x t)) (l : List α)
    (s : State) : KeepsBytes lo hi s (inOrder l f s) :=
  inOrder_induct (P := KeepsBytes lo hi s) (.of_mem (.refl [] s) rfl) fun x _ _ ht => ht.trans (hf x _)

theorem inFreeOrder_keepsBytes {α : Type} {f : α → State → State} (hf : ∀ x t, KeepsBytes lo hi t (f x t)) (l : List α)
    (s : State) : KeepsBytes lo hi s (inFreeOrder l f s) :=
  inFreeOrder_induct (P := KeepsBytes lo hi s) (nextFree_keepsBytes s) fun x _ _ ht => ht.trans (hf x _)

end

/-! ## The group status that a halt writes -/

/-- The status bytes in the anchor show which groups are enabled. -/
def StatusShown (s : State) : Prop := s.smp.inForce = true → s.smp.anchor.toNat % 4096 = 0 → ∀ g : Fin 8,
  (s.mem.get (s.smp.anchor.toNat + 0x128 + g.val)).getLsbD 0 = s.sru.groups[g].enabled

theorem writeGroupStatus_shown (s : State) : StatusShown (writeGroupStatus s) := by
  have hsmp : (writeGroupStatus s).smp = s.smp := by rw [writeGroupStatus, anchorWrite_smp]
  have hsru : (writeGroupStatus s).sru = s.sru := by rw [writeGroupStatus, anchorWrite_sru]
  intro hforce haligned g
  rw [hsmp] at hforce haligned ⊢
  rw [writeGroupStatus_byte hforce haligned, hsru]
  exact (statusByte_bits _).1

theorem disableGroup_shown {g : Fin 8} (h : s.sru.groups[g].enabled = true) : StatusShown (disableGroup g s) := by
  rw [disableGroup_of_enabled h]
  exact writeGroupStatus_shown _

theorem disableGroup_keepsShown (g : Fin 8) (h : StatusShown s) : StatusShown (disableGroup g s) := by
  cases hg : s.sru.groups[g].enabled with
  | false => rwa [disableGroup_of_disabled hg]
  | true => exact disableGroup_shown hg

theorem inOrder_disableGroup_keepsShown (l : List (Fin 8)) (h : StatusShown s) : StatusShown (inOrder l disableGroup s) :=
  inOrder_induct h fun g _ _ => disableGroup_keepsShown g

/-- One group of the list that is enabled is enough to bring the status words up to date. -/
theorem inOrder_disableGroup_shown {l : List (Fin 8)} {g : Fin 8} (hg : g ∈ l) (h : s.sru.groups[g].enabled = true) :
    StatusShown (inOrder l disableGroup s) := by
  induction l generalizing s with
  | nil => cases hg
  | cons a l ih =>
    change StatusShown (inOrder l disableGroup (disableGroup a s))
    cases ha : s.sru.groups[a].enabled with
    | true => exact inOrder_disableGroup_keepsShown l (disableGroup_shown ha)
    | false =>
      rw [disableGroup_of_disabled ha]
      refine ih ((List.mem_cons.1 hg).resolve_left ?_) h
      rintro rfl
      rw [h] at ha
      cases ha

/-! ## The groups -/

/-- What of a group a DISABLE acts on, beside its status. -/
def RotationGroup.view (r : RotationGroup) : Bool × ZoneMask × Word × Option Slot :=
  (r.enabled, r.zones, r.slotNumber, r.openSlot)

/-- That of the group as a DISABLE leaves it. -/
def disabledView (v : Bool × ZoneMask × Word × Option Slot) : Bool × ZoneMask × Word × Option Slot :=
  (false, v.2.1, v.2.2.1, if v.1 then cutOpen v.2.2.2 else v.2.2.2)

theorem disabledView_of_disabled {v : Bool × ZoneMask × Word × Option Slot} (h : v.1 = false) : disabledView v = v := by
  obtain ⟨b, z, n, o⟩ := v
  cases h
  rfl

theorem disableGroup_view (g h : Fin 8) (s : State) : (disableGroup g s).sru.groups[h].view =
    if h = g then disabledView s.sru.groups[g].view else s.sru.groups[h].view := by
  by_cases hg : h = g
  · subst hg
    obtain ⟨henabled, hzones, -, hnumber, hopen⟩ := disableGroup_group h s
    rw [if_pos rfl, RotationGroup.view, henabled, hzones, hnumber, hopen]
    rfl
  · rw [if_neg hg, disableGroup_groups_other hg]

/-- The groups as the SRU marks them at a halt, before it disables them (log 22). -/
def haltMarked (s : State) : State := (markHaltCuts s).onSru fun r => { r with afterHalt := true }

def enabledGroups (s : State) : List (Fin 8) := (List.finRange 8).filter fun g => s.sru.groups[g].enabled

theorem sruHalt_eq (s : State) : sruHalt s =
    inFreeOrder ((enabledGroups (haltMarked s)).filter fun g => hasCurrent (haltMarked s).sru.groups[g]) disableGroup
      (inOrder ((enabledGroups (haltMarked s)).filter fun g => !hasCurrent (haltMarked s).sru.groups[g]) disableGroup
        (haltMarked s)) := rfl

theorem mem_enabledGroups {g : Fin 8} : g ∈ enabledGroups s ↔ s.sru.groups[g].enabled = true := by
  simp [enabledGroups]

theorem enabledGroups_nodup (s : State) : (enabledGroups s).Nodup := (List.nodup_finRange 8).filter _

/-- A slot of an enabled group as the SRU marks it at a halt. -/
def RotationGroup.marked (epoch : Nat) (r : RotationGroup) : RotationGroup :=
  if r.enabled then { r with openSlot := r.openSlot.map (Slot.haltedAt epoch) } else r

theorem haltMarked_group (s : State) (g : Fin 8) :
    (haltMarked s).sru.groups[g] = s.sru.groups[g].marked s.smp.anchorEpoch := Vector.getElem_map ..

theorem disableInOrder_view {l : List (Fin 8)} (hl : l.Nodup) (s : State) (g : Fin 8) :
    (inOrder l disableGroup s).sru.groups[g].view =
      if g ∈ l then disabledView s.sru.groups[g].view else s.sru.groups[g].view :=
  inOrder_keyed (proj := fun g s => s.sru.groups[g].view) (h := fun _ => disabledView)
    (fun i j t => disableGroup_view i j t) l hl s g

theorem disableInFreeOrder_view {l : List (Fin 8)} (hl : l.Nodup) (s : State) (g : Fin 8) :
    (inFreeOrder l disableGroup s).sru.groups[g].view =
      if g ∈ l then disabledView s.sru.groups[g].view else s.sru.groups[g].view :=
  inFreeOrder_keyed (proj := fun g s => s.sru.groups[g].view) (h := fun _ => disabledView)
    (fun i j t => disableGroup_view i j t) (fun _ _ => rfl) l hl s g

/-- A halt disables every group, whichever of its two passes meets it. -/
theorem sruHalt_view (s : State) (g : Fin 8) :
    (sruHalt s).sru.groups[g].view = disabledView (s.sru.groups[g].marked s.smp.anchorEpoch).view := by
  rw [← haltMarked_group, sruHalt_eq, disableInFreeOrder_view ((enabledGroups_nodup _).filter _),
    disableInOrder_view ((enabledGroups_nodup _).filter _)]
  simp only [List.mem_filter, mem_enabledGroups]
  cases henabled : (haltMarked s).sru.groups[g].enabled with
  | false =>
    rw [if_neg (by simp), if_neg (by simp)]
    exact (disabledView_of_disabled henabled).symm
  | true =>
    cases hasCurrent (haltMarked s).sru.groups[g]
    · rw [if_neg (by simp), if_pos (by simp)]
    · rw [if_pos (by simp), if_neg (by simp)]

theorem sruHalt_entries (s : State) : (sruHalt s).sru.entries = s.sru.entries := by
  rw [sruHalt_eq]
  refine inFreeOrder_induct (P := fun t => t.sru.entries = s.sru.entries) ?_
    fun g _ t ht => (disableGroup_entries g t).trans ht
  exact inOrder_induct (P := fun t => t.sru.entries = s.sru.entries) rfl fun g _ t ht => (disableGroup_entries g t).trans ht

theorem sruHalt_keepsBytes {lo hi : Nat} (hlog : ApartFromLog lo hi) (hhi : hi ≤ 0x180) (hstatus : hi ≤ 0x128 ∨ 0x130 ≤ lo)
    (s : State) : KeepsBytes lo hi s (sruHalt s) := by
  have hmarked : KeepsBytes lo hi s (haltMarked s) := fun hs => ⟨hs.of_same rfl rfl rfl rfl id rfl, rfl, fun _ _ => rfl⟩
  rw [sruHalt_eq]
  exact (hmarked.trans (inOrder_keepsBytes (disableGroup_keepsBytes hlog hhi hstatus) _ _)).trans
    (inFreeOrder_keepsBytes (disableGroup_keepsBytes hlog hhi hstatus) _ _)

/-- After a halt that disables a group the anchor shows which groups are enabled. -/
theorem sruHalt_shown {g : Fin 8} (h : s.sru.groups[g].enabled = true) : StatusShown (sruHalt s) := by
  have henabled : (haltMarked s).sru.groups[g].enabled = true := by
    rw [haltMarked_group, RotationGroup.marked, if_pos h]
    exact h
  rw [sruHalt_eq]
  generalize haltMarked s = u at henabled
  cases hcurrent : hasCurrent u.sru.groups[g] with
  | false =>
    have hfirst : StatusShown (inOrder ((enabledGroups u).filter fun g => !hasCurrent u.sru.groups[g]) disableGroup u) :=
      inOrder_disableGroup_shown (List.mem_filter.2 ⟨mem_enabledGroups.2 henabled, by rw [hcurrent]; rfl⟩) henabled
    exact inFreeOrder_induct (P := StatusShown) hfirst fun g _ _ => disableGroup_keepsShown g
  | true =>
    have hview := disableInOrder_view ((enabledGroups_nodup u).filter fun g => !hasCurrent u.sru.groups[g]) u g
    rw [if_neg (fun hin => by
      have := (List.mem_filter.1 hin).2
      rw [hcurrent] at this
      cases this)] at hview
    have hstill : (inOrder ((enabledGroups u).filter fun g => !hasCurrent u.sru.groups[g]) disableGroup
      u).sru.groups[g].enabled = true := (congrArg Prod.fst hview).trans henabled
    refine inOrder_disableGroup_shown (s := State.nextFree _) (g := g) ((freeOrder_mem _ _ _).2 ?_) hstill
    exact List.mem_filter.2 ⟨mem_enabledGroups.2 henabled, hcurrent⟩

/-! ## The claims, the clips and the messages -/

theorem removeAllClaims_claimsAt (s : State) (z : Fin 16) : claimsAt (removeAllClaims s).zar z = [] :=
  claimsAt_onAllClaims s.zar (fun _ => []) rfl z

/-- The zone table, the banks and the selector are as they were but for claims taken out. -/
structure ClaimsRemoved (s t : State) : Prop where
  banks : t.zar.banks = s.zar.banks
  selector : t.zar.selector = s.zar.selector
  none : ∀ z, claimsAt s.zar z = [] → claimsAt t.zar z = []

theorem ClaimsRemoved.refl (s : State) : ClaimsRemoved s s := ⟨rfl, rfl, fun _ => id⟩

theorem ClaimsRemoved.of_same (h : t.zar = s.zar) : ClaimsRemoved s t := ⟨by rw [h], by rw [h], fun _ => by rw [h]; exact id⟩

theorem ClaimsRemoved.trans (h : ClaimsRemoved s t) (k : ClaimsRemoved t u) : ClaimsRemoved s u :=
  ⟨k.banks.trans h.banks, k.selector.trans h.selector, fun z hz => k.none z (h.none z hz)⟩

theorem releaseClaims_removed (who : Claimant) (s : State) : ClaimsRemoved s (releaseClaims who s) :=
  ⟨rfl, rfl, fun z hz => by rw [releaseClaims_claimsAt, hz, List.filter_nil]⟩

theorem ClaimsRemoved.of_release {who : Claimant} {b : Bool}
    (h : t.zar = if b then s.zar.onAllClaims (removeClaim who) else s.zar) : ClaimsRemoved s t := by
  cases b
  · exact .of_same h
  · exact (releaseClaims_removed who s).trans (.of_same h)

theorem endClip_removed (status : Status) (k : Fin 8) (s : State) : ClaimsRemoved s (endClip status k s) :=
  .of_release (endClip_zar status k s)

theorem endMessage_removed (status : Status) (k : Fin 8) (s : State) : ClaimsRemoved s (endMessage status k s) :=
  .of_release (endMessageAt_zar status _ k s)

theorem disableGroup_removed (g : Fin 8) (s : State) : ClaimsRemoved s (disableGroup g s) := by
  cases h : s.sru.groups[g].enabled with
  | false => exact .of_same (by rw [disableGroup_of_disabled h])
  | true =>
    have hzar : (disableGroup g s).zar =
        (releaseClaims (.group g) (onGroup g (fun r => { r with enabled := false }) s)).zar := by
      rw [disableGroup_of_enabled h, writeGroupStatus, anchorWrite_zar]
      exact cutSlot_then (ps := [.sru, .plw, .events, .mem, .free]) g (.refl _ _) rfl .zar rfl
    exact (releaseClaims_removed (.group g) s).trans (.of_same hzar)

theorem inFreeOrder_removed {α : Type} {f : α → State → State} (hf : ∀ x t, ClaimsRemoved t (f x t)) (l : List α)
    (s : State) : ClaimsRemoved s (inFreeOrder l f s) :=
  inFreeOrder_induct (P := ClaimsRemoved s) (.of_same rfl) fun x _ _ ht => ht.trans (hf x _)

theorem cleHalt_removed (s : State) : ClaimsRemoved s (cleHalt s) :=
  ClaimsRemoved.trans (t := s.onCle fun c => { c with gate := .halted }) (.of_same rfl)
    (inFreeOrder_removed (endClip_removed .halted) _ _)

theorem msuHalt_removed (s : State) : ClaimsRemoved s (msuHalt s) :=
  ClaimsRemoved.trans (t := s.onMsu fun m => { m with afterHalt := true }) (.of_same rfl)
    (inFreeOrder_removed (endMessage_removed .halted) _ _)

theorem sruHalt_removed (s : State) : ClaimsRemoved s (sruHalt s) := by
  have hfirst : ClaimsRemoved s (inOrder ((enabledGroups (haltMarked s)).filter fun g =>
      !hasCurrent (haltMarked s).sru.groups[g]) disableGroup (haltMarked s)) :=
    inOrder_induct (P := ClaimsRemoved s) (.of_same rfl) fun g _ _ ht => ht.trans (disableGroup_removed g _)
  rw [sruHalt_eq]
  exact hfirst.trans (inFreeOrder_removed disableGroup_removed _ _)

theorem cleHalt_slot (s : State) (k : Fin 8) :
    (cleHalt s).cle.slots[k] = s.cle.slots[k].ended s.ftu.frame .halted :=
  congrArg Prod.fst (endWorkingClips_clipView .halted (s.onCle fun c => { c with gate := .halted }) k)

theorem msuHalt_slot (s : State) (k : Fin 8) :
    (msuHalt s).msu.slots[k] = s.msu.slots[k].ended s.ftu.frame .halted :=
  congrArg Prod.fst (endWorkingMessages_messageView .halted (s.onMsu fun m => { m with afterHalt := true }) k)

theorem cleHalt_keepsBytes {lo hi : Nat} (hhi : hi ≤ 0x180) (s : State) : KeepsBytes lo hi s (cleHalt s) :=
  KeepsBytes.trans (.of_mem (onCle_then (fun c => { c with gate := .halted }) (ChangesOnly.refl [.cle] s) rfl) rfl)
    (inFreeOrder_keepsBytes ((keepsBytes_stable hhi).endClip .halted) _ _)

theorem msuHalt_keepsBytes {lo hi : Nat} (hhi : hi ≤ 0x180) (s : State) : KeepsBytes lo hi s (msuHalt s) :=
  KeepsBytes.trans (.of_mem (onMsu_then (fun m => { m with afterHalt := true }) (ChangesOnly.refl [.msu] s) rfl) rfl)
    (inFreeOrder_keepsBytes (fun k t => (keepsBytes_stable hhi).endMessageAt .halted _ k t) _ _)

/-! ## The halt -/

theorem exec_halt {v : Word} (hreset : v.getLsbD 1 = false) (hclear : v.getLsbD 0 = false) (hrun : s.smp.run = true)
    (hdev : s.smp.dev = .running ∨ s.smp.dev = .fallback) : exec (.halt v) s = .next (haltDevice (setRunBit false s)) := by
  refine congrArg Host.Outcome.next ?_
  rw [writeControl, if_neg (by rw [hreset]; decide), hclear, writeRun, if_neg (by rw [hrun]; decide)]
  rcases hdev with hdev | hdev <;> rw [hdev]

theorem ended_of_outstanding {c : ClipSlot} {frame f : Frame} {status : Status} (hw : c.working = true)
    (hout : c.outstanding = some f) : c.ended frame status = c.endedAt frame status := by
  rw [ClipSlot.ended, if_pos hw, if_neg (by rw [hout]; exact nofun)]

theorem ended_of_idle {c : ClipSlot} {frame : Frame} {status : Status} (hw : c.working = false) :
    c.ended frame status = c := if_neg (by rw [hw]; decide)

theorem messageEnded_of_outstanding {m : MessageSlot} {frame f : Frame} {status : Status} (hw : m.working = true)
    (hout : m.outstanding = some f) : m.ended frame status = m.endedAt frame status := by
  rw [MessageSlot.ended, if_pos hw, if_neg (by rw [hout]; exact nofun)]

theorem messageEnded_of_idle {m : MessageSlot} {frame : Frame} {status : Status} (hw : m.working = false) :
    m.ended frame status = m := if_neg (by rw [hw]; decide)

theorem halted_of_disabledView {r r' : RotationGroup} {epoch : Nat} (h : r'.view = disabledView (r.marked epoch).view) :
    r'.enabled = false ∧ (r.enabled = true → hasCurrent r' = false) ∧ r'.slotNumber = r.slotNumber ∧ r'.zones = r.zones ∧
    (∀ x, r.openSlot = some x → r.enabled = true → x.closing = false → r'.openSlot =
      (if x.outstanding = none then none else
        some { x with cut := true, closing := true, haltedUnder := some epoch })) ∧
    (∀ x, r.openSlot = some x → x.closing = true → r'.openSlot = some x) := by
  obtain ⟨henabled, hzones, hnumber, hopen⟩ : r'.enabled = false ∧ r'.zones = (r.marked epoch).zones ∧
      r'.slotNumber = (r.marked epoch).slotNumber ∧ r'.openSlot = (disabledView (r.marked epoch).view).2.2.2 := by
    simpa [RotationGroup.view, disabledView] using h
  cases hr : r.enabled with
  | false =>
    rw [RotationGroup.marked, if_neg (by rw [hr]; decide)] at hzones hnumber hopen
    have hopen' : r'.openSlot = r.openSlot := by
      rw [hopen, disabledView_of_disabled hr]
      rfl
    exact ⟨henabled, nofun, hnumber, hzones, nofun, fun x hx _ => hopen'.trans hx⟩
  | true =>
    rw [RotationGroup.marked, if_pos hr] at hzones hnumber hopen
    have hopen' : r'.openSlot = cutOpen (r.openSlot.map (Slot.haltedAt epoch)) := by
      rw [hopen]
      exact if_pos hr
    refine ⟨henabled, fun _ => ?_, hnumber, hzones, fun x hx _ hcurrent => ?_, fun x hx hclosing => ?_⟩
    · rw [hasCurrent, hopen']
      cases r.openSlot with
      | none => rfl
      | some x =>
        cases hclosing : x.closing with
        | true => simp [cutOpen, Slot.haltedAt, hclosing]
        | false => cases hout : x.outstanding <;> simp [cutOpen, Slot.haltedAt, hclosing, hout]
    · rw [hopen', hx]
      simp [cutOpen, Slot.haltedAt, hcurrent]
    · rw [hopen', hx]
      simp [cutOpen, Slot.haltedAt, hclosing]

/-- Settles O3. -/
theorem haltStopsDevice : Obligations.HaltStopsDevice := by
  intro v s hclear hreset hrun hdev
  generalize hu₀ : removeAllClaims (setDev .halted (setRunBit false s)) = u₀
  have hhalt : haltDevice (setRunBit false s) = sruHalt (msuHalt (cleHalt u₀)) := by rw [← hu₀]; rfl
  have h₀ : ChangesOnly [.mem, .smp, .zar] s u₀ := by
    rw [← hu₀]
    exact removeAllClaims_then (setDev_then _ (setRunBit_then _ (.refl _ s) rfl) rfl) rfl
  have h₁ : ChangesOnly [.cle, .mem, .events, .etu, .zar, .free] u₀ (cleHalt u₀) := cleHalt_then (.refl _ _) rfl
  have h₂ : ChangesOnly [.msu, .mem, .events, .etu, .zar, .free] (cleHalt u₀) (msuHalt (cleHalt u₀)) :=
    msuHalt_then (.refl _ _) rfl
  have h₃ : ChangesOnly [.sru, .plw, .events, .mem, .free, .zar] (msuHalt (cleHalt u₀)) (sruHalt (msuHalt (cleHalt u₀))) :=
    sruHalt_then (.refl _ _) rfl
  have hsmp₀ : u₀.smp = { s.smp with run := false, dev := .halted } := by
    rw [← hu₀, removeAllClaims, State.onZar_smp, setDev_smp]
    rfl
  have hremoved : ClaimsRemoved u₀ (sruHalt (msuHalt (cleHalt u₀))) :=
    ((cleHalt_removed u₀).trans (msuHalt_removed _)).trans (sruHalt_removed _)
  have hclaims₀ : ∀ z, claimsAt u₀.zar z = [] := fun z => by rw [← hu₀]; exact removeAllClaims_claimsAt _ z
  have hzar₀ : u₀.zar.banks = s.zar.banks ∧ u₀.zar.selector = s.zar.selector := by
    have hzar : (setDev .halted (setRunBit false s)).zar = s.zar :=
      setDev_then _ (setRunBit_then _ (ChangesOnly.refl [.smp, .mem] s) rfl) rfl .zar rfl
    rw [← hu₀, ← hzar]
    exact ⟨rfl, rfl⟩
  have hcle : (sruHalt (msuHalt (cleHalt u₀))).cle = (cleHalt u₀).cle := Eq.trans (h₃ .cle rfl) (h₂ .cle rfl)
  have hmsu : (sruHalt (msuHalt (cleHalt u₀))).msu = (msuHalt (cleHalt u₀)).msu := h₃ .msu rfl
  have hclip : ∀ k : Fin 8, (sruHalt (msuHalt (cleHalt u₀))).cle.slots[k] = s.cle.slots[k].ended s.ftu.frame .halted := by
    intro k
    rw [hcle, cleHalt_slot, show u₀.cle = s.cle from h₀ .cle rfl, show u₀.ftu = s.ftu from h₀ .ftu rfl]
  have hidle : ∀ k : Fin 8, ¬(sruHalt (msuHalt (cleHalt u₀))).cle.slots[k].working = true := by
    intro k
    rw [hclip, ended_not_working]
    decide
  have hmessage : ∀ k : Fin 8, (sruHalt (msuHalt (cleHalt u₀))).msu.slots[k] =
      s.msu.slots[k].ended s.ftu.frame .halted := by
    intro k
    rw [hmsu, msuHalt_slot, show (cleHalt u₀).msu = u₀.msu from h₁ .msu rfl, show u₀.msu = s.msu from h₀ .msu rfl,
      show (cleHalt u₀).ftu = u₀.ftu from h₁ .ftu rfl, show u₀.ftu = s.ftu from h₀ .ftu rfl]
  have hsru₂ : (msuHalt (cleHalt u₀)).sru = s.sru := Eq.trans (h₂ .sru rfl) (Eq.trans (h₁ .sru rfl) (h₀ .sru rfl))
  have hepoch : (msuHalt (cleHalt u₀)).smp.anchorEpoch = s.smp.anchorEpoch := by
    rw [h₂.epoch rfl, h₁.epoch rfl, hsmp₀]
  have hgroup : ∀ g : Fin 8, (sruHalt (msuHalt (cleHalt u₀))).sru.groups[g].view =
      disabledView (s.sru.groups[g].marked s.smp.anchorEpoch).view := by
    intro g
    rw [sruHalt_view, hsru₂, hepoch]
  have hforceEnd : (sruHalt (msuHalt (cleHalt u₀))).smp.inForce = s.smp.inForce := by
    rw [h₃.inForce rfl, h₂.inForce rfl, h₁.inForce rfl, hsmp₀]
  have hanchorEnd : (sruHalt (msuHalt (cleHalt u₀))).smp.anchor = s.smp.anchor := by
    rw [h₃.anchor rfl, h₂.anchor rfl, h₁.anchor rfl, hsmp₀]
  have hexec := exec_halt hreset hclear hrun hdev
  refine ⟨_, hexec, haltDevice_core _, ?_⟩
  rw [hhalt]
  refine ⟨fun z => hremoved.none z (hclaims₀ z), hremoved.banks.trans hzar₀.1, hremoved.selector.trans hzar₀.2,
    fun k => ⟨?_, ?_, fun hw f hout => ?_, fun hw => ?_⟩, fun k => ⟨?_, fun hw f hout => ?_, fun hw => ?_⟩,
    fun g => halted_of_disabledView (hgroup g), ?_, ?_, fun hforce => ?_, fun hforce hlist hapart hlog hsnap => ⟨?_, fun g hg => ?_⟩⟩
  · exact (not_or.1 (mt (clip_working_iff _).2 (hidle k))).1
  · exact (not_or.1 (mt (clip_working_iff _).2 (hidle k))).2
  · rw [hclip, ended_of_outstanding hw hout]
    rfl
  · rw [hclip, ended_of_idle hw]
  · refine mt (message_working_iff _).2 ?_
    rw [hmessage, messageEnded_not_working]
    decide
  · rw [hmessage, messageEnded_of_outstanding hw hout]
    rfl
  · rw [hmessage, messageEnded_of_idle hw]
  · rw [sruHalt_entries, hsru₂]
  · rw [← hhalt]
    exact haltDevice_then (setRunBit_then _ (.refl _ s) rfl) rfl
  · obtain ⟨t, ht, horderly⟩ := exec_orderly (.halt v) (fun _ => nofun) s
    rw [hexec] at ht
    cases ht
    rw [← hhalt]
    exact (horderly.guard hforce).2
  · have hregions : Regions u₀ := Regions.of_same ⟨hlist, hapart, hlog, hsnap⟩ (h₀ .ciu rfl) (by rw [hsmp₀])
      (congrArg Plw.logOffset (h₀ .plw rfl)) (congrArg Plw.logLength (h₀ .plw rfl))
      (by rw [show u₀.plw = s.plw from h₀ .plw rfl]; exact id) (congrArg Sru.snapshotOffset (h₀ .sru rfl))
    have hkeeps : KeepsBytes 0x100 0x104 u₀ (sruHalt (msuHalt (cleHalt u₀))) :=
      ((cleHalt_keepsBytes (by decide) u₀).trans (msuHalt_keepsBytes (by decide) _)).trans
        (sruHalt_keepsBytes (.inl (by decide)) (by decide) (.inl (by decide)) _)
    obtain ⟨-, -, hbytes⟩ := hkeeps hregions
    have hword : u₀.mem.word (s.smp.anchor.toNat + 0x100) = 0 := by
      rw [← hu₀]
      exact anchorWrite_word_at (s := (setRunBit false s).onSmp fun m => { m with dev := .halted }) hlog.2.2.1 hforce
        (by decide) 0x100 0 rfl rfl
    rw [← hword]
    refine Memory.word_congr fun a hlo hhi => hbytes a ?_
    unfold AnchorByte
    rw [hsmp₀]
    exact ⟨hlo, hhi⟩
  · have hshown := sruHalt_shown (s := msuHalt (cleHalt u₀)) (g := g) (by rw [hsru₂]; exact hg)
      (hforceEnd.trans hforce) (by rw [hanchorEnd]; exact hlog.2.2.1) g
    rw [hanchorEnd] at hshown
    exact hshown.trans (halted_of_disabledView (hgroup g)).1

end Sys2Proof.Machine
end

section
/-! SUPPORT. A layout switch: the zone table, the claimants that lose zones, and the zone sets (R60 to R63). -/

namespace Sys2Proof.Machine

variable {s t u : State}

/-! ## The slots of the claimants that lose zones -/

/-- A clip slot after a report of lost zones. -/
def ClipSlot.lost (frame : Frame) (status : Status) (lost : ZoneMask) (holds : Bool) (c : ClipSlot) : ClipSlot :=
  if c.working then
    (if holds then { c with holdings := c.holdings &&& ~~~lost }
      else { c with holdings := c.holdings &&& ~~~lost }.ended frame status)
  else c

theorem loseClip_slot (status : Status) (k : Fin 8) (lost : ZoneMask) (s : State) (j : Fin 8) :
    (loseClip status k lost s).cle.slots[j] =
      if j = k then s.cle.slots[k].lost s.ftu.frame status lost (holdsAny s.zar (.clip k)) else s.cle.slots[j] := by
  unfold loseClip ClipSlot.lost
  cases hw : s.cle.slots[k].working with
  | false =>
    rw [if_neg Bool.false_ne_true, if_neg Bool.false_ne_true]
    split
    · next h => rw [h]
    · rfl
  | true =>
    rw [if_pos rfl, if_pos rfl]
    dsimp only
    split
    · next hholds => rw [onClip_get, if_pos (show holdsAny s.zar (.clip k) = true from hholds)]
    · next hholds =>
      rw [endClip_slot, onClip_get, onClip_get, if_pos rfl, if_neg (show ¬holdsAny s.zar (.clip k) = true from hholds)]
      split <;> rfl

/-- A message slot after a report of lost zones. -/
def MessageSlot.lost (frame : Frame) (status : Status) (lost : ZoneMask) (holds : Bool) (m : MessageSlot) : MessageSlot :=
  if m.working then
    (if holds then { m with holdings := m.holdings &&& ~~~lost }
      else { m with holdings := m.holdings &&& ~~~lost }.ended frame status)
  else m

theorem loseMessage_slot (status : Status) (k : Fin 8) (lost : ZoneMask) (s : State) (j : Fin 8) :
    (loseMessage status k lost s).msu.slots[j] =
      if j = k then s.msu.slots[k].lost s.ftu.frame status lost (holdsAny s.zar (.message k)) else s.msu.slots[j] := by
  unfold loseMessage endMessage MessageSlot.lost
  cases hw : s.msu.slots[k].working with
  | false =>
    rw [if_neg Bool.false_ne_true, if_neg Bool.false_ne_true]
    split
    · next h => rw [h]
    · rfl
  | true =>
    rw [if_pos rfl, if_pos rfl]
    dsimp only
    split
    · next hholds => rw [onMessage_get, if_pos (show holdsAny s.zar (.message k) = true from hholds)]
    · next hholds =>
      rw [endMessageAt_slot, onMessage_get, onMessage_get, if_pos rfl,
        if_neg (show ¬holdsAny s.zar (.message k) = true from hholds)]
      split <;> rfl

theorem lost_working (frame : Frame) (status : Status) (lost : ZoneMask) (holds : Bool) (c : ClipSlot) :
    (c.lost frame status lost holds).working = (c.working && holds) := by
  unfold ClipSlot.lost
  cases hw : c.working <;> cases holds
  · simp [hw]
  · simp [hw]
  · simp [ended_not_working]
  · exact hw

theorem lost_preempted {frame : Frame} {status : Status} {lost : ZoneMask} {holds : Bool} {c : ClipSlot}
    (h : (c.lost frame status lost holds).working = true) : (c.lost frame status lost holds).preempted = c.preempted := by
  rw [lost_working, Bool.and_eq_true] at h
  rw [ClipSlot.lost, if_pos h.1, if_pos h.2]

theorem messageLost_working (frame : Frame) (status : Status) (lost : ZoneMask) (holds : Bool) (m : MessageSlot) :
    (m.lost frame status lost holds).working = (m.working && holds) := by
  unfold MessageSlot.lost
  cases hw : m.working <;> cases holds
  · simp [hw]
  · simp [hw]
  · simp [messageEnded_not_working]
  · exact hw

theorem messageLost_preempted {frame : Frame} {status : Status} {lost : ZoneMask} {holds : Bool} {m : MessageSlot}
    (h : (m.lost frame status lost holds).working = true) : (m.lost frame status lost holds).preempted = m.preempted := by
  rw [messageLost_working, Bool.and_eq_true] at h
  rw [MessageSlot.lost, if_pos h.1, if_pos h.2]

theorem reportLost_clipSlot (status : Status) (who : Claimant) (lost : ZoneMask) (s : State) (k : Fin 8) :
    (reportLost status who lost s).cle.slots[k] = if who = .clip k then
      s.cle.slots[k].lost s.ftu.frame status lost (holdsAny s.zar (.clip k)) else s.cle.slots[k] := by
  cases who with
  | clip j =>
    refine (loseClip_slot status j lost s k).trans ?_
    simp only [Claimant.clip.injEq]
    by_cases h : k = j
    · subst h
      rw [if_pos rfl]
    · rw [if_neg h, if_neg (Ne.symm h)]
  | message j =>
    rw [if_neg nofun]
    exact congrArg (fun c : Cle => c.slots[k])
      (loseMessage_then status j lost (ChangesOnly.refl [.msu, .zar, .mem, .events, .etu] s) rfl .cle rfl)
  | group g => rw [if_neg nofun]; rfl

theorem reportLost_messageSlot (status : Status) (who : Claimant) (lost : ZoneMask) (s : State) (k : Fin 8) :
    (reportLost status who lost s).msu.slots[k] = if who = .message k then
      s.msu.slots[k].lost s.ftu.frame status lost (holdsAny s.zar (.message k)) else s.msu.slots[k] := by
  cases who with
  | clip j =>
    rw [if_neg nofun]
    exact congrArg (fun m : Msu => m.slots[k])
      (loseClip_then status j lost (ChangesOnly.refl [.cle, .zar, .mem, .events, .etu] s) rfl .msu rfl)
  | message j =>
    refine (loseMessage_slot status j lost s k).trans ?_
    simp only [Claimant.message.injEq]
    by_cases h : k = j
    · subst h
      rw [if_pos rfl]
    · rw [if_neg h, if_neg (Ne.symm h)]
  | group g => rw [if_neg nofun]; rfl

/-! ## The reports of a switch -/

/-- The claimants of the list are told of their lost zones. -/
def reportLosses (before : State) (l : List Claimant) (s : State) : State :=
  inFreeOrder l (fun w t => reportLost .noZone w (lostZones before w) t) s

/-- What a series of reports of lost zones keeps. -/
structure LossesKept (s t : State) : Prop where
  zar : t.zar = s.zar
  sru : t.sru = s.sru
  clip : ∀ k : Fin 8, t.cle.slots[k].working = true → t.cle.slots[k].preempted = s.cle.slots[k].preempted
  message : ∀ k : Fin 8, t.msu.slots[k].working = true → t.msu.slots[k].preempted = s.msu.slots[k].preempted

theorem reportLost_kept (status : Status) (who : Claimant) (lost : ZoneMask) {s t : State} (h : LossesKept s t) :
    LossesKept s (reportLost status who lost t) where
  zar := (reportLost_zar_eq ..).trans h.zar
  sru := (reportLost_sru ..).trans h.sru
  clip k hw := by
    rw [reportLost_clipSlot] at hw ⊢
    split
    · next hwho =>
      rw [if_pos hwho] at hw
      rw [lost_preempted hw]
      rw [lost_working, Bool.and_eq_true] at hw
      exact h.clip k hw.1
    · next hwho =>
      rw [if_neg hwho] at hw
      exact h.clip k hw
  message k hw := by
    rw [reportLost_messageSlot] at hw ⊢
    split
    · next hwho =>
      rw [if_pos hwho] at hw
      rw [messageLost_preempted hw]
      rw [messageLost_working, Bool.and_eq_true] at hw
      exact h.message k hw.1
    · next hwho =>
      rw [if_neg hwho] at hw
      exact h.message k hw

theorem reportLosses_kept (before : State) (l : List Claimant) (s : State) : LossesKept s (reportLosses before l s) :=
  inFreeOrder_induct (P := LossesKept s) ⟨rfl, rfl, fun _ _ => rfl, fun _ _ => rfl⟩ fun _ _ _ h => reportLost_kept _ _ _ h

/-- A claimant that is told of its lost zones works on when some zone remains to it. -/
theorem reportLosses_clip {before : State} {l : List Claimant} {k : Fin 8} (h : .clip k ∈ l) (s : State) :
    (reportLosses before l s).cle.slots[k].working = (s.cle.slots[k].working && holdsAny s.zar (.clip k)) := by
  refine congrArg Prod.fst (inFreeOrder_settles (x := Claimant.clip k)
    (proj := fun t => (t.cle.slots[k].working, holdsAny t.zar (.clip k))) (h := fun v => (v.1 && v.2, v.2))
    (fun t => ?_) (fun y t hy => ?_) (fun v => ?_) (fun _ => rfl) h s)
  · rw [reportLost_clipSlot, if_pos rfl, lost_working, reportLost_zar_eq]
  · rw [reportLost_clipSlot, if_neg hy, reportLost_zar_eq]
  · rw [Bool.and_assoc, Bool.and_self]

theorem reportLosses_message {before : State} {l : List Claimant} {k : Fin 8} (h : .message k ∈ l) (s : State) :
    (reportLosses before l s).msu.slots[k].working = (s.msu.slots[k].working && holdsAny s.zar (.message k)) := by
  refine congrArg Prod.fst (inFreeOrder_settles (x := Claimant.message k)
    (proj := fun t => (t.msu.slots[k].working, holdsAny t.zar (.message k))) (h := fun v => (v.1 && v.2, v.2))
    (fun t => ?_) (fun y t hy => ?_) (fun v => ?_) (fun _ => rfl) h s)
  · rw [reportLost_messageSlot, if_pos rfl, messageLost_working, reportLost_zar_eq]
  · rw [reportLost_messageSlot, if_neg hy, reportLost_zar_eq]
  · rw [Bool.and_assoc, Bool.and_self]

/-! ## The switch -/

/-- The state after a switch of layouts before the zone sets are reported. -/
def switched (b : Fin 4) (s : State) : State := reportLosses s (losers s) (switchTable b s)

theorem switchLayout_of_selected (s : State) : switchLayout s.zar.selector s = s := if_pos rfl

theorem switchLayout_eq {b : Fin 4} (h : b ≠ s.zar.selector) : switchLayout b s =
    reportZoneSets (changedGroups s.zar.table (switched b s).zar.table) (switched b s) := if_neg h

theorem switched_kept (b : Fin 4) (s : State) : LossesKept (switchTable b s) (switched b s) := reportLosses_kept _ _ _

theorem switchLayout_zar {b : Fin 4} (h : b ≠ s.zar.selector) : (switchLayout b s).zar = (switchTable b s).zar := by
  rw [switchLayout_eq h, (reportZoneSets_zones _ _).1, (switched_kept b s).zar]

theorem reportZoneSets_frame (gs : List (Fin 8)) (s : State) :
    ChangesOnly [.sru, .plw, .events, .mem, .free] s (reportZoneSets gs s) := reportZoneSets_then gs (.refl _ _) rfl

theorem switchLayout_cle {b : Fin 4} (h : b ≠ s.zar.selector) : (switchLayout b s).cle = (switched b s).cle := by
  rw [switchLayout_eq h]
  exact reportZoneSets_frame _ _ .cle rfl

theorem switchLayout_msu {b : Fin 4} (h : b ≠ s.zar.selector) : (switchLayout b s).msu = (switched b s).msu := by
  rw [switchLayout_eq h]
  exact reportZoneSets_frame _ _ .msu rfl

theorem switchLayout_zones {b : Fin 4} (h : b ≠ s.zar.selector)
    (hzones : ∀ g : Fin 8, s.sru.groups[g].zones = zoneSetOf s.zar.table g) (g : Fin 8) :
    (switchLayout b s).sru.groups[g].zones = zoneSetOf (switchLayout b s).zar.table g := by
  obtain ⟨hzar, hset⟩ := reportZoneSets_zones (changedGroups s.zar.table (switched b s).zar.table) (switched b s)
  rw [switchLayout_eq h, hset, hzar]
  split
  · rfl
  · next hsame =>
    rw [(switched_kept b s).sru]
    exact (hzones g).trans (by simpa [changedGroups] using hsame)

theorem switchedZone_kept {b : Fin 4} {z : Fin 16} {e : ZoneEntry} (he : s.zar.table[z] = some e) (h0 : e.bank = 0) :
    switchedZone s b z = some e := by
  simp only [switchedZone, he]
  exact if_pos h0

theorem switchedZone_entering {b : Fin 4} {z : Fin 16} (h : ∀ e, s.zar.table[z] = some e → e.bank ≠ 0) :
    switchedZone s b z = if b = 0 then none else
      (bankZone s.zar.banks[b] z).map fun d => { bank := b, defn := d, claims := enteringClaims s d } := by
  unfold switchedZone
  cases he : s.zar.table[z] with
  | none => rfl
  | some e => exact if_neg (h e he)

theorem enteringClaims_group {d : ZoneDef} {c : Claim} (h : c ∈ enteringClaims s d) : c.who.isGroup = true := by
  unfold enteringClaims at h
  split at h
  · split at h
    · rw [List.mem_singleton] at h
      rw [h]
      rfl
    · cases h
  · cases h

theorem not_holdsIn_entering {who : Claimant} (hwho : who.isGroup = false) (d : ZoneDef) :
    ¬holdsIn who (enteringClaims s d) = true := by
  rw [holdsIn_iff, List.mem_map]
  rintro ⟨c, hc, rfl⟩
  rw [enteringClaims_group hc] at hwho
  cases hwho

/-- A claimant other than a group that held no zone of bank 0 holds none after a switch. -/
theorem switchTable_holdsAny {b : Fin 4} {who : Claimant} (hwho : who.isGroup = false)
    (h : ∀ (z : Fin 16) (e : ZoneEntry), s.zar.table[z] = some e → holdsIn who e.claims = true → e.bank ≠ 0) :
    holdsAny (switchTable b s).zar who = false := by
  have hentering : ∀ z, (∀ e, s.zar.table[z] = some e → e.bank ≠ 0) →
      ¬holdsIn who (claimsAt (switchTable b s).zar z) = true := by
    intro z hz
    rw [claimsAt_eq (switchTable_get b s z), switchedZone_entering hz]
    split
    · exact Bool.false_ne_true
    · cases bankZone s.zar.banks[b] z with
      | none => exact Bool.false_ne_true
      | some d => exact not_holdsIn_entering hwho d
  rw [holdsAny, List.any_eq_false]
  intro z _
  cases he : s.zar.table[z] with
  | none => exact hentering z fun e he' => by rw [he] at he'; cases he'
  | some e =>
    by_cases h0 : e.bank = 0
    · rw [claimsAt_eq (switchTable_get b s z), switchedZone_kept he h0]
      exact fun hheld => h z e he hheld h0
    · exact hentering z fun e' he' => by rw [he] at he'; cases he'; exact h0

theorem mem_losers {who : Claimant} (hwho : who.isGroup = false) {z : Fin 16} {e : ZoneEntry}
    (he : s.zar.table[z] = some e) (hheld : holdsIn who e.claims = true) (hbank : e.bank ≠ 0) : who ∈ losers s := by
  refine List.mem_filter.2 ⟨?_, bne_iff_ne.2 (mask_ne_zero z ?_)⟩
  · cases who with
    | clip k => exact List.mem_append_left _ (List.mem_map_of_mem (List.mem_finRange k))
    | message k => exact List.mem_append_right _ (List.mem_map_of_mem (List.mem_finRange k))
    | group g => cases hwho
  · rw [lostZones, maskOf_getLsbD, he]
    simp [hbank, hheld]

theorem exists_held {z : Zar} {who : Claimant} (h : holdsAny z who = true) :
    ∃ (i : Fin 16) (e : ZoneEntry), z.table[i] = some e ∧ holdsIn who e.claims = true := by
  obtain ⟨i, -, hi⟩ := List.any_eq_true.1 h
  cases he : z.table[i] with
  | none =>
    rw [claimsAt_eq he] at hi
    cases hi
  | some e =>
    rw [claimsAt_eq he] at hi
    exact ⟨i, e, he, hi⟩

theorem mem_losers_of_held {who : Claimant} (hwho : who.isGroup = false) (hholds : holdsAny s.zar who = true)
    (h : ∀ (z : Fin 16) (e : ZoneEntry), s.zar.table[z] = some e → holdsIn who e.claims = true → e.bank ≠ 0) :
    who ∈ losers s := by
  obtain ⟨z, e, he, hheld⟩ := exists_held hholds
  exact mem_losers hwho he hheld (h z e he hheld)

/-! ## The checks of a SELECT_LAYOUT (R60) -/

section
variable {bank : BitVec 8} {b : Fin 4}

theorem sameId_iff {d c : ZoneDef} : sameId d c = true ↔ d.id = c.id := beq_iff_eq

theorem selectLayoutCheck_bank (h : 3 < bank.toNat) : selectLayoutCheck s bank = .error .badValue := by
  rw [selectLayoutCheck, index_of_le h]

variable (hb : bank.toNat = b.val)
include hb

theorem selectLayoutCheck_conflict (h0 : b ≠ 0)
    (h : ∃ d ∈ s.zar.banks[b], ∃ c ∈ s.zar.banks[(0 : Fin 4)], d.id = c.id) :
    selectLayoutCheck s bank = .error .zoneConflict := by
  obtain ⟨d, hd, c, hc, hid⟩ := h
  simp only [selectLayoutCheck, index_of_val hb]
  rw [if_neg h0, if_pos (anyAcross_eq_true.2 ⟨d, hd, c, hc, sameId_iff.2 hid⟩)]

theorem selectLayoutCheck_overlap (h0 : b ≠ 0)
    (hids : ¬∃ d ∈ s.zar.banks[b], ∃ c ∈ s.zar.banks[(0 : Fin 4)], d.id = c.id)
    (h : ∃ d ∈ s.zar.banks[b], ∃ c ∈ s.zar.banks[(0 : Fin 4)], overlap d c = true) :
    selectLayoutCheck s bank = .error .zoneOverlap := by
  have hids' : ¬anyAcross sameId s.zar.banks[b] s.zar.banks[(0 : Fin 4)] = true := fun hac => by
    obtain ⟨d, hd, c, hc, hid⟩ := anyAcross_eq_true.1 hac
    exact hids ⟨d, hd, c, hc, sameId_iff.1 hid⟩
  simp only [selectLayoutCheck, index_of_val hb]
  rw [if_neg h0, if_neg hids', if_pos (anyAcross_eq_true.2 h)]

theorem selectLayoutCheck_ok
    (hids : ¬(b ≠ 0 ∧ ∃ d ∈ s.zar.banks[b], ∃ c ∈ s.zar.banks[(0 : Fin 4)], d.id = c.id))
    (hover : ¬(b ≠ 0 ∧ ∃ d ∈ s.zar.banks[b], ∃ c ∈ s.zar.banks[(0 : Fin 4)], overlap d c = true)) :
    selectLayoutCheck s bank = .ok b := by
  simp only [selectLayoutCheck, index_of_val hb]
  by_cases h0 : b = 0
  · rw [if_pos h0]
  · rw [if_neg h0, if_neg fun hac => ?_, if_neg fun hac => hover ⟨h0, anyAcross_eq_true.1 hac⟩]
    obtain ⟨d, hd, c, hc, hid⟩ := anyAcross_eq_true.1 hac
    exact hids ⟨h0, d, hd, c, hc, sameId_iff.1 hid⟩

end

/-- Settles O30. -/
theorem selectLayoutSwitchesWhole : Obligations.SelectLayoutSwitchesWhole := by
  intro take bank s hinside
  have hrefused : ∀ {status : Status}, selectLayoutCheck s bank = .error status →
      TakenDone s (takeAndWrite take (takeSelectLayout bank) s) take status ∧
        ChangesOnly [.mem, .events] s (takeAndWrite take (takeSelectLayout bank) s) := fun h =>
    takeAndWrite_unchecked take (check := fun s => selectLayoutCheck s bank) (success := .ok) (act := switchLayout) h hinside
  refine ⟨_, rfl, fun h => hrefused (selectLayoutCheck_bank h), fun b hb => ?_⟩
  dsimp only
  refine ⟨fun hclash => hrefused (selectLayoutCheck_conflict hb hclash.1 hclash.2), fun hclash hover =>
    hrefused (selectLayoutCheck_overlap hb hover.1 (fun h => hclash ⟨hover.1, h⟩) hover.2), fun hclash hover hsel => ?_,
    fun hclash hover hsel => ?_⟩
  · have hcheck := selectLayoutCheck_ok hb hclash hover
    have hact : switchLayout b s = s := by
      rw [hsel]
      exact switchLayout_of_selected s
    obtain ⟨-, hframe⟩ := takeAndWrite_checked take (check := fun s => selectLayoutCheck s bank) (success := .ok)
      (act := switchLayout) (s := s) hcheck hinside (by rw [hact]; exact .refl _ _)
    rw [hact] at hframe
    exact ⟨takeAndWrite_checked_owner take (check := fun s => selectLayoutCheck s bank) (success := .ok)
      (act := switchLayout) (s := s) hcheck hinside (by rw [hact]; exact .refl _ _), hframe⟩
  · have hact : ChangesOnly [.cle, .msu, .zar, .mem, .events, .etu, .sru, .plw, .free] s (switchLayout b s) :=
      switchLayout_then b (.refl _ _) rfl
    obtain ⟨hdone, hframe⟩ := takeAndWrite_checked take (check := fun s => selectLayoutCheck s bank) (success := .ok)
      (act := switchLayout) (s := s) (selectLayoutCheck_ok hb hclash hover) hinside (hact.mono rfl)
    have hzar : (takeAndWrite take (takeSelectLayout bank) s).zar = (switchTable b s).zar :=
      Eq.trans (hframe .zar rfl) (switchLayout_zar hsel)
    have hcle : (takeAndWrite take (takeSelectLayout bank) s).cle = (switched b s).cle :=
      Eq.trans (hframe .cle rfl) (switchLayout_cle hsel)
    have hmsu : (takeAndWrite take (takeSelectLayout bank) s).msu = (switched b s).msu :=
      Eq.trans (hframe .msu rfl) (switchLayout_msu hsel)
    have hsru : (takeAndWrite take (takeSelectLayout bank) s).sru = (switchLayout b s).sru := hframe .sru rfl
    have hkept := switched_kept b s
    refine ⟨hdone, by rw [hzar]; rfl, by rw [hzar]; rfl, fun z e he h0 => ?_, fun k => ⟨fun hw => ?_, fun hw => ?_⟩,
      fun z hz => ?_, fun k _ hholds hall => ?_, fun k _ hholds hall => ?_, fun hzones g => ?_,
      takeAndWrite_then take (takeSelectLayout_then bank (.refl _ _) rfl) rfl⟩
    · rw [hzar, switchTable_get, switchedZone_kept he h0]
    · rw [hcle] at hw ⊢
      exact hkept.clip k hw
    · rw [hmsu] at hw ⊢
      exact hkept.message k hw
    · rw [hzar, switchTable_get, switchedZone_entering hz]
      split
      · rfl
      · rw [Option.map_map]
        rfl
    · have hends := reportLosses_clip (before := s) (mem_losers_of_held (who := .clip k) rfl hholds hall) (switchTable b s)
      rw [switchTable_holdsAny rfl hall, Bool.and_false] at hends
      rw [hcle]
      exact hends
    · have hends := reportLosses_message (before := s) (mem_losers_of_held (who := .message k) rfl hholds hall)
        (switchTable b s)
      rw [switchTable_holdsAny rfl hall, Bool.and_false] at hends
      rw [hmsu]
      exact hends
    · rw [hsru, hzar, switchLayout_zones hsel hzones, switchLayout_zar hsel]

end Sys2Proof.Machine
end

section
/-! SUPPORT. A successful start: the common layout, the settings read at it, and the part-written area (R10, R59). -/

namespace Sys2Proof.Machine

variable {s t u v : State}

/-! ## The reports of the zone sets -/

/-- What a report of a zone set keeps, whether or not it cuts a slot. -/
structure ZoneSetsKept (s t : State) : Prop where
  logOffset : t.plw.logOffset = s.plw.logOffset
  logLength : t.plw.logLength = s.plw.logLength
  snapshotOffset : t.sru.snapshotOffset = s.sru.snapshotOffset
  afterHalt : t.sru.afterHalt = s.sru.afterHalt
  enabled : ∀ g : Fin 8, t.sru.groups[g].enabled = s.sru.groups[g].enabled

theorem ZoneSetsKept.trans (h : ZoneSetsKept s t) (k : ZoneSetsKept t u) : ZoneSetsKept s u :=
  ⟨k.logOffset.trans h.logOffset, k.logLength.trans h.logLength, k.snapshotOffset.trans h.snapshotOffset,
    k.afterHalt.trans h.afterHalt, fun g => (k.enabled g).trans (h.enabled g)⟩

section
variable {α : Type} {F : Plw → α} (hF : ∀ (p : Plw) h i o b, F { p with hold := h, writeIndex := i, overflow := o, badIndex := b } = F p)
include hF

theorem handRecord_plw_field (r : PlayRecord) (s : State) : F (handRecord r s).plw = F s.plw := by
  have htested : F (testReadIndex s).plw = F s.plw := by
    rw [testReadIndex_plw]
    exact hF s.plw s.plw.hold s.plw.writeIndex s.plw.overflow _
  have hheld : ∀ u : State, F (holdRecord r u).plw = F u.plw := fun u =>
    hF u.plw _ u.plw.writeIndex u.plw.overflow u.plw.badIndex
  obtain h | h | h | h := handRecord_cases r s <;> rw [h]
  · have hplw : (dropRecord r s).plw = { s.plw with overflow := saturate (s.plw.overflow + 1) } := by
      rw [dropRecord_eq, raise_plw, anchorWrite_plw, dropped]
      split <;> rfl
    rw [hplw]
    exact hF s.plw s.plw.hold s.plw.writeIndex _ s.plw.badIndex
  · rw [writeRecord_plw]
    exact (hF (testReadIndex s).plw (testReadIndex s).plw.hold _ (testReadIndex s).plw.overflow
      (testReadIndex s).plw.badIndex).trans htested
  · exact (hheld _).trans htested
  · exact hheld s

theorem closeSlot_plw_field (g : Fin 8) (s : State) : F (closeSlot g s).plw = F s.plw := by
  cases hopen : s.sru.groups[g].openSlot with
  | none => rw [closeSlot, hopen]
  | some x =>
    have hhanded : F (handedOver g x s).plw = F s.plw := handRecord_plw_field hF _ _
    rw [closeSlot_of_open hopen]
    split
    · rw [← hhanded]
      exact congrArg F (writeSnapshot_then g _ (ChangesOnly.refl [.mem, .sru] (handedOver g x s).nextFree) rfl .plw rfl)
    · exact hhanded

theorem cutSlot_plw_field (g : Fin 8) (s : State) : F (cutSlot g s).plw = F s.plw := by
  unfold cutSlot
  split
  · rfl
  · split
    · rfl
    · dsimp only
      split
      · exact closeSlot_plw_field hF _ _
      · rfl

end

theorem cutSlot_zoneSetsKept (g : Fin 8) (s : State) : ZoneSetsKept s (cutSlot g s) where
  logOffset := cutSlot_plw_field (F := Plw.logOffset) (fun _ _ _ _ _ => rfl) g s
  logLength := cutSlot_plw_field (F := Plw.logLength) (fun _ _ _ _ _ => rfl) g s
  snapshotOffset := cutSlot_sru_field (F := Sru.snapshotOffset) (fun _ _ _ => rfl) g s
  afterHalt := cutSlot_sru_field (F := Sru.afterHalt) (fun _ _ _ => rfl) g s
  enabled h := (cutSlot_group_fields g h s).1

theorem reportZoneSet_kept (g : Fin 8) (s : State) : ZoneSetsKept s (reportZoneSet g s) := by
  have hzones : ∀ m, ZoneSetsKept s (onGroup g (fun r => { r with zones := m }) s) := fun m =>
    ⟨rfl, rfl, rfl, rfl, fun h => upd_field RotationGroup.enabled (v := s.sru.groups) rfl h⟩
  unfold reportZoneSet takeZoneSet
  dsimp only
  split
  · exact (hzones _).trans (cutSlot_zoneSetsKept g _)
  · exact hzones _

theorem reportZoneSets_kept (gs : List (Fin 8)) (s : State) : ZoneSetsKept s (reportZoneSets gs s) := by
  have hstart : ZoneSetsKept s s := ⟨rfl, rfl, rfl, rfl, fun _ => rfl⟩
  have hfirst : ZoneSetsKept s (inOrder (gs.filter fun g => !cutByZoneSet s g) reportZoneSet s) :=
    inOrder_induct (P := ZoneSetsKept s) hstart fun g _ _ h => h.trans (reportZoneSet_kept g _)
  have hdrawn : ZoneSetsKept s (inOrder (gs.filter fun g => !cutByZoneSet s g) reportZoneSet s).nextFree :=
    ⟨hfirst.logOffset, hfirst.logLength, hfirst.snapshotOffset, hfirst.afterHalt, hfirst.enabled⟩
  exact inFreeOrder_induct (P := ZoneSetsKept s) hdrawn fun g _ _ h => h.trans (reportZoneSet_kept g _)

/-- With no slot open, the reports of zone sets cut nothing. -/
structure NothingCut (s t : State) : Prop where
  noSlot : ∀ g : Fin 8, t.sru.groups[g].openSlot = none
  plw : t.plw = s.plw
  smp : t.smp = s.smp
  mem : t.mem = s.mem

theorem reportZoneSet_nothingCut (g : Fin 8) (h : NothingCut s t) : NothingCut s (reportZoneSet g t) := by
  have hnone : ∀ m, (onGroup g (fun r => { r with zones := m }) t).sru.groups[g].openSlot = none := fun m =>
    (upd_field RotationGroup.openSlot (v := t.sru.groups) rfl g).trans (h.noSlot g)
  have hset : reportZoneSet g t = onGroup g (fun r => { r with zones := zoneSetOf t.zar.table g }) t := by
    unfold reportZoneSet takeZoneSet
    dsimp only
    split
    · rw [cutSlot, hnone]
    · rfl
  rw [hset]
  exact ⟨fun k => (upd_field RotationGroup.openSlot (v := t.sru.groups) rfl k).trans (h.noSlot k), h.plw, h.smp, h.mem⟩

theorem reportZoneSets_nothingCut (gs : List (Fin 8)) (hnone : ∀ g : Fin 8, s.sru.groups[g].openSlot = none) :
    NothingCut s (reportZoneSets gs s) := by
  have hfirst : NothingCut s (inOrder (gs.filter fun g => !cutByZoneSet s g) reportZoneSet s) :=
    inOrder_induct (P := NothingCut s) ⟨hnone, rfl, rfl, rfl⟩ fun g _ _ => reportZoneSet_nothingCut g
  exact inFreeOrder_induct (P := NothingCut s) ⟨hfirst.noSlot, hfirst.plw, hfirst.smp, hfirst.mem⟩
    fun g _ _ => reportZoneSet_nothingCut g

/-! ## The settings read at a successful start (R20 to R23, log 11) -/

/-- The unit with the settings of the anchor. -/
def readFtu (s : State) : Ftu :=
  { s.ftu with
    freeRun := clampNat Config.minFreeRun Config.maxFreeRun (anchorWord s 0x30).toNat,
    refEnable := anchorWord s 0x34 != 0, phase := anchorWord s 0x38 }

/-- The state after the settings have been read and the enable acted on. -/
def settingsRead (s : State) : State := actOnEnable (takeBackEntry (readSettings s))

theorem takeBackEntry_taken {was : Bool} (hkept : s.ftu.keptEntry = some was) (hlock : s.ftu.lock = .acquiring)
    (hen : s.ftu.refEnable = false) : takeBackEntry s = writeReference ((s.onFtu Ftu.freed).onSmp fun m =>
      { m with events := if was then m.events else m.events &&& ~~~0x020#10 }) := by
  simp only [takeBackEntry, hkept, hlock, hen]
  rfl

theorem takeBackEntry_kept (h : s.ftu.keptEntry = none ∨ s.ftu.lock ≠ .acquiring ∨ s.ftu.refEnable = true) :
    takeBackEntry s = s := by
  unfold takeBackEntry
  split
  · next was hkept =>
    rw [if_neg]
    rw [Bool.and_eq_true, beq_iff_eq, Bool.not_eq_true']
    rintro ⟨hlock, hen⟩
    rcases h with h | h | h
    · rw [h] at hkept
      cases hkept
    · exact h hlock
    · rw [h] at hen
      cases hen
  · rfl

/-- What reading the settings at a successful start makes of the unit and of the pending events. -/
structure Settled (s t : State) : Prop where
  ftu : t.ftu = (readFtu s).acted
  smp : t.smp = { s.smp with events := t.smp.events }
  raised : s.ftu.keptEntry = none ∨ anchorWord s 0x34 ≠ 0 → t.smp.events =
    s.smp.events ||| (if t.ftu.lock = s.ftu.lock then 0#10 else 0x020#10)
  takenBack : ∀ was, s.ftu.keptEntry = some was → s.ftu.lock = .acquiring → anchorWord s 0x34 = 0 →
    t.smp.events = if was then s.smp.events else s.smp.events &&& ~~~0x020#10
  writes : WritesIn 0x118 0x124 s t
  frame : ChangesOnly [.mem, .events, .ftu] s t

theorem settingsRead_settled (s : State) : Settled s (settingsRead s) := by
  have hread : readSettings s = s.onFtu fun _ => readFtu s := rfl
  have hframe : ChangesOnly [.mem, .events, .ftu] s (settingsRead s) :=
    actOnEnable_then (takeBackEntry_then (readSettings_then (.refl _ s) rfl) rfl) rfl
  by_cases hback : s.ftu.lock = .acquiring ∧ (readFtu s).refEnable = false ∧ ∃ was, s.ftu.keptEntry = some was
  · obtain ⟨hlock, hen, was, hkept⟩ := hback
    have hzero : anchorWord s 0x34 = 0 := by simpa [readFtu] using hen
    have htaken : takeBackEntry (readSettings s) = _ := takeBackEntry_taken (s := s.onFtu fun _ => readFtu s) hkept hlock hen
    have hfreed : (readFtu s).freed.acted = (readFtu s).freed := (acted_free rfl).trans (if_neg (by
      rw [show (readFtu s).freed.refEnable = false from hen]; decide))
    have hacted : (readFtu s).acted = (readFtu s).freed := by
      rw [Ftu.acted, if_neg (by rw [show (readFtu s).lock = .acquiring from hlock]; decide), if_neg (by rw [hen]; decide)]
    have hftu : (takeBackEntry (readSettings s)).ftu = (readFtu s).freed := by
      rw [htaken, writeReference_ftu]
      rfl
    have hsmp : (settingsRead s).smp = { s.smp with
        events := if was then s.smp.events else s.smp.events &&& ~~~0x020#10 } := by
      rw [settingsRead, actOnEnable_smp, hftu, hfreed, if_pos rfl, htaken, writeReference_smp, BitVec.or_zero]
      rfl
    refine ⟨?_, ?_, fun h => ?_, fun w hw _ _ => ?_, ?_, hframe⟩
    · rw [settingsRead, actOnEnable_ftu, hftu, hfreed, hacted]
    · rw [hsmp]
    · rcases h with h | h
      · rw [hkept] at h
        cases h
      · exact absurd hzero h
    · rw [hkept] at hw
      cases hw
      rw [hsmp]
    · refine WritesIn.trans ?_ (actOnEnable_in _)
      rw [htaken]
      refine WritesIn.trans ?_ (writeReference_in _)
      exact .of_same rfl rfl rfl
  · have hkeep : takeBackEntry (readSettings s) = s.onFtu fun _ => readFtu s := by
      refine takeBackEntry_kept (s := s.onFtu fun _ => readFtu s) ?_
      cases hkept : s.ftu.keptEntry with
      | none => exact .inl hkept
      | some was =>
        by_contra hno
        simp only [not_or, not_not, Bool.not_eq_true] at hno
        exact hback ⟨hno.2.1, hno.2.2, was, hkept⟩
    have hsmp : (settingsRead s).smp = { s.smp with
        events := s.smp.events ||| (if (readFtu s).acted.lock = s.ftu.lock then 0#10 else 0x020#10) } := by
      rw [settingsRead, hkeep, actOnEnable_smp]
      rfl
    have hftu : (settingsRead s).ftu = (readFtu s).acted := by
      rw [settingsRead, hkeep, actOnEnable_ftu]
      rfl
    refine ⟨hftu, by rw [hsmp], fun _ => by rw [hsmp, hftu], fun was hkept hlock hzero => ?_, ?_, hframe⟩
    · exact absurd ⟨hlock, by simp [readFtu, hzero], was, hkept⟩ hback
    · rw [settingsRead, hkeep]
      refine WritesIn.trans ?_ (actOnEnable_in _)
      exact .of_same rfl rfl rfl

/-- Of the blocks that a frame start is delivered to, only the flag of an undelivered frame start changes. -/
structure DueOnly (s t : State) : Prop where
  smp : t.smp.core = s.smp.core
  ciu : t.ciu = { s.ciu with frameDue := t.ciu.frameDue }
  clo : t.clo = { s.clo with frameDue := t.clo.frameDue }
  msu : t.msu = { s.msu with frameDue := t.msu.frameDue }
  plw : t.plw = { s.plw with frameDue := t.plw.frameDue }
  ccu : t.ccu = { s.ccu with frameDue := t.ccu.frameDue }
  etu : t.etu = { s.etu with frameDue := t.etu.frameDue }

theorem DueOnly.of_frame {ps : List Part} (h : ChangesOnly ps s t) (hps : sub ps [.mem, .events, .ftu] = true) :
    DueOnly s t := by
  have h := h.mono hps
  have hciu : t.ciu = s.ciu := h .ciu rfl
  have hclo : t.clo = s.clo := h .clo rfl
  have hmsu : t.msu = s.msu := h .msu rfl
  have hplw : t.plw = s.plw := h .plw rfl
  have hccu : t.ccu = s.ccu := h .ccu rfl
  have hetu : t.etu = s.etu := h .etu rfl
  exact ⟨h .smp rfl, by rw [hciu], by rw [hclo], by rw [hmsu], by rw [hplw], by rw [hccu], by rw [hetu]⟩

theorem DueOnly.of_delivered (h : Delivered s t) (hsmp : t.smp.core = s.smp.core) : DueOnly s t :=
  ⟨hsmp, by rw [h.ciu], by rw [h.clo], by rw [h.msu], by rw [h.plw], by rw [h.ccu], by rw [h.etu]⟩

theorem DueOnly.trans (h : DueOnly s t) (k : DueOnly t u) : DueOnly s u := by
  obtain ⟨hsmp, hciu, hclo, hmsu, hplw, hccu, hetu⟩ := h
  obtain ⟨ksmp, kciu, kclo, kmsu, kplw, kccu, ketu⟩ := k
  refine ⟨ksmp.trans hsmp, ?_, ?_, ?_, ?_, ?_, ?_⟩
  · rw [kciu, hciu]
  · rw [kclo, hclo]
  · rw [kmsu, hmsu]
  · rw [kplw, hplw]
  · rw [kccu, hccu]
  · rw [ketu, hetu]

/-- Acting on the enable twice is acting on it once. -/
theorem acted_acted_lock {f f' : Ftu} (hlock : f'.lock = f.acted.lock) (hen : f'.refEnable = f.refEnable) :
    f'.acted.lock = f'.lock := by
  rw [acted_lock, hlock, hen, acted_lock]
  cases f.refEnable
  · rfl
  · simp only [if_true]
    split
    · rfl
    · rfl

/-- Where acting on the enable keeps the lock state, it changes nothing. -/
theorem acted_of_lock {f : Ftu} (h : f.acted.lock = f.lock) : f.acted = f := by
  rw [acted_lock] at h
  unfold Ftu.acted
  split
  · next hfree =>
    rw [if_pos hfree, hfree] at h
    split
    · next hen => rw [if_pos hen] at h; cases h
    · rfl
  · next hfree =>
    split
    · rfl
    · next hen => rw [if_neg hen] at h; exact absurd h.symm hfree

/-- The frame starts that do not stand at their period's tick are left scheduled. -/
def keptSchedule (f : Ftu) : List Sched := f.schedule.filter fun x => !x.byPeriod

/-- The settings at a successful start, and what they place (R21, R22). -/
structure SettingsTaken (s t : State) : Prop where
  due : DueOnly s t
  frame : ChangesOnly [.events, .due, .ciu, .clo, .msu, .plw, .ccu, .etu, .ftu, .mem] s t
  freeRun : t.ftu.freeRun = (readFtu s).freeRun
  refEnable : t.ftu.refEnable = (readFtu s).refEnable
  phase : t.ftu.phase = (readFtu s).phase
  lock : t.ftu.lock = (readFtu s).acted.lock
  raised : s.ftu.keptEntry = none ∨ anchorWord s 0x34 ≠ 0 → t.smp.events =
    s.smp.events ||| (if t.ftu.lock = s.ftu.lock then 0#10 else 0x020#10)
  takenBack : ∀ was, s.ftu.keptEntry = some was → s.ftu.lock = .acquiring → anchorWord s 0x34 = 0 →
    t.smp.events = if was then s.smp.events else s.smp.events &&& ~~~0x020#10
  placed : (∀ x ∈ s.ftu.schedule, x.byPeriod = true) → t.ftu.lock ≠ .locked →
    s.ftu.tick ≤ s.ftu.lastStart + t.ftu.lockedPeriod.getD t.ftu.freeRun → t.ftu.frame = s.ftu.frame ∧
    t.ftu.schedule = [⟨s.ftu.lastStart + t.ftu.lockedPeriod.getD t.ftu.freeRun, true⟩]

theorem acted_kept {α : Type} (F : Ftu → α)
    (hF : ∀ (f : Ftu) l p m r o c e, F { f with
      lock := l, lockedPeriod := p, measured := m, runCount := r, runOpen := o, slipCount := c, lastEdge := e } = F f)
    (f : Ftu) : F f.acted = F f := by
  unfold Ftu.acted
  split
  · split
    · exact hF f .acquiring f.lockedPeriod f.measured 0 false f.slipCount none
    · rfl
  · split
    · rfl
    · exact hF f .free none 0 0 false 0 none

theorem settingsAtSuccess_eq (s : State) : settingsAtSuccess s =
    if (settingsRead s).ftu.lock.byPeriod then placeByPeriod (settingsRead s).ftu.tick
      ((settingsRead s).onFtu fun f => { f with schedule := keptSchedule f }) else settingsRead s := rfl

theorem settingsAtSuccess_taken (hforce : s.smp.inForce = true) : SettingsTaken s (settingsAtSuccess s) := by
  have hframe : ChangesOnly [.events, .due, .ciu, .clo, .msu, .plw, .ccu, .etu, .ftu, .mem] s (settingsAtSuccess s) :=
    settingsAtSuccess_then (.refl _ s) rfl
  obtain ⟨hftu, hsmp, hraised, htaken, hwrites, hread⟩ := settingsRead_settled s
  have heq := settingsAtSuccess_eq s
  generalize settingsRead s = v at hftu hsmp hraised htaken hwrites hread heq
  have hdue : DueOnly s v := .of_frame hread rfl
  have hfree : v.ftu.freeRun = (readFtu s).freeRun := by
    rw [hftu]; exact acted_kept Ftu.freeRun (fun _ _ _ _ _ _ _ _ => rfl) _
  have hen : v.ftu.refEnable = (readFtu s).refEnable := by
    rw [hftu]; exact acted_kept Ftu.refEnable (fun _ _ _ _ _ _ _ _ => rfl) _
  have hphase : v.ftu.phase = (readFtu s).phase := by
    rw [hftu]; exact acted_kept Ftu.phase (fun _ _ _ _ _ _ _ _ => rfl) _
  have hlast : v.ftu.lastStart = s.ftu.lastStart := by
    rw [hftu]; exact acted_kept Ftu.lastStart (fun _ _ _ _ _ _ _ _ => rfl) _
  have htick : v.ftu.tick = s.ftu.tick := by
    rw [hftu]; exact acted_kept Ftu.tick (fun _ _ _ _ _ _ _ _ => rfl) _
  have hnumber : v.ftu.frame = s.ftu.frame := by
    rw [hftu]; exact acted_kept Ftu.frame (fun _ _ _ _ _ _ _ _ => rfl) _
  have hschedule : v.ftu.schedule = s.ftu.schedule := by
    rw [hftu]; exact acted_kept Ftu.schedule (fun _ _ _ _ _ _ _ _ => rfl) _
  have hlock : v.ftu.lock = (readFtu s).acted.lock := by rw [hftu]
  by_cases hlocked : v.ftu.lock = .locked
  · rw [if_neg (by rw [hlocked]; decide)] at heq
    rw [heq] at hframe ⊢
    exact ⟨hdue, hframe, hfree, hen, hphase, hlock, hraised, htaken, fun _ h => absurd hlocked h⟩
  · rw [if_pos ((byPeriod_eq_true_iff _).2 hlocked)] at heq
    by_cases hwaits : keptSchedule v.ftu ≠ [] ∨ v.ftu.tick ≤ v.ftu.periodTick
    · rw [placeByPeriod_waits (u := v.onFtu fun f => { f with schedule := keptSchedule f }) hlocked hwaits] at heq
      rw [heq] at hframe ⊢
      refine ⟨hdue.trans (.of_frame (onFtu_then _ (onFtu_then _ (ChangesOnly.refl [.ftu] v) rfl) rfl) rfl), hframe, hfree, hen,
        hphase, hlock, hraised, htaken, fun hall _ hle => ⟨hnumber, ?_⟩⟩
      have hempty : keptSchedule v.ftu = [] := by
        rw [keptSchedule, hschedule, List.filter_eq_nil_iff]
        intro x hx
        rw [hall x hx]
        decide
      rw [← hlast]
      exact if_pos hempty
    · obtain ⟨hempty, hover⟩ := not_or.1 hwaits
      rw [not_ne_iff] at hempty
      rw [placeByPeriod_overdue (u := v.onFtu fun f => { f with schedule := keptSchedule f }) hlocked hempty
        (Nat.lt_of_not_le hover)] at heq
      rw [heq] at hframe ⊢
      generalize hx : (v.onFtu fun f => { f with schedule := keptSchedule f }) = x at hframe
      have hxforce : x.smp.inForce = true := by rw [← hx, State.onFtu_smp, hsmp]; exact hforce
      have hword : ∀ o, o + 4 ≤ 0x118 → anchorWord x o = anchorWord s o := fun o ho => by
        rw [← hx]
        exact hwrites.anchorWord (.inl ho)
      have hbegan : ∀ k, (beganFtu k x).freeRun = (readFtu s).freeRun ∧ (beganFtu k x).refEnable = (readFtu s).refEnable ∧
          (beganFtu k x).phase = (readFtu s).phase ∧ (beganFtu k x).lock = v.ftu.lock := by
        intro k
        simp only [beganFtu, hxforce, if_true, hword _ (by decide : 0x30 + 4 ≤ 0x118),
          hword _ (by decide : 0x34 + 4 ≤ 0x118), hword _ (by decide : 0x38 + 4 ≤ 0x118)]
        exact ⟨rfl, rfl, rfl, by rw [← hx]; rfl⟩
      generalize v.ftu.tick = k at hframe ⊢
      obtain ⟨hbfree, hben, hbphase, hblock⟩ := hbegan k
      have hsame : (beganFtu k x).acted = beganFtu k x := acted_of_lock (acted_acted_lock (hblock.trans hlock) hben)
      have htftu : (issueAt k x).ftu = (beganFtu k x).placed := by rw [issueAt_ftu, hsame]
      have htsmp : (issueAt k x).smp = { v.smp with frameDue := true } := by
        rw [issueAt_smp, hsame, if_pos (by rw [hblock, ← hx]; rfl), BitVec.or_zero, ← hx]
        rfl
      have htlock : (issueAt k x).ftu.lock = v.ftu.lock := by
        rw [htftu, placed_kept Ftu.lock (fun _ _ => rfl), hblock]
      have htfree : (issueAt k x).ftu.freeRun = (readFtu s).freeRun := by
        rw [htftu, placed_kept Ftu.freeRun (fun _ _ => rfl), hbfree]
      have htevents : (issueAt k x).smp.events = v.smp.events := by rw [htsmp]
      refine ⟨?_, hframe, htfree, ?_, ?_, htlock.trans hlock, fun h => ?_, fun was h1 h2 h3 => ?_, fun _ _ hle => ?_⟩
      · have hx' : DueOnly v x := by rw [← hx]; exact .of_frame (onFtu_then _ (ChangesOnly.refl [.ftu] v) rfl) rfl
        refine (hdue.trans hx').trans (.of_delivered (issueAt_delivered k x) ?_)
        rw [htsmp, ← hx]
        rfl
      · rw [htftu, placed_kept Ftu.refEnable (fun _ _ => rfl), hben]
      · rw [htftu, placed_kept Ftu.phase (fun _ _ => rfl), hbphase]
      · rw [htevents, htlock]
        exact hraised h
      · rw [htevents]
        exact htaken was h1 h2 h3
      · refine absurd ?_ hover
        have hperiod : (issueAt k x).ftu.lockedPeriod = v.ftu.lockedPeriod := by
          rw [htftu, placed_kept Ftu.lockedPeriod (fun _ _ => rfl), ← hx]
          rfl
        rw [hperiod, htfree, ← hfree, ← hlast, ← htick] at hle
        exact hle

/-! ## The start -/

theorem partWords_length (s : State) : (partWords s).length = 96 := by
  have hreports : (reportWords s.etu.entries).length = 64 := by
    simp [reportWords, List.length_flatMap, TriggerReport.words]
  simp only [partWords, List.length_append, List.length_cons, List.length_nil, refWords_length, groupWords_length,
    clockWords_length, hreports]

/-- The part-written area reads as the state stands (12.3). -/
theorem writePartArea_words (hforce : s.smp.inForce = true) (haligned : s.smp.anchor.toNat % 4096 = 0) (k : Fin 96) :
    (partWords (writePartArea s))[k.val]? =
      some ((writePartArea s).mem.word (s.smp.anchor.toNat + 0x100 + 4 * k.val)) := by
  have hlt : k.val < (partWords s).length := by rw [partWords_length]; exact k.isLt
  have hsame : partWords (writePartArea s) = partWords s := by
    unfold writePartArea partWords
    simp
  have hword : (partWords s)[k.val]? = some (partWords s)[k.val] := List.getElem?_eq_getElem hlt
  rw [hsame, hword]
  refine congrArg some (Eq.symm ?_)
  rw [Nat.add_assoc]
  exact anchorWrite_word_at haligned hforce (by rw [partWords_length]; decide) _ k.val rfl hword

/-- The state of a successful start after the common layout is loaded. -/
def startLoaded (zones : List ZoneDef) (s : State) : State := setDev .running (loadCommon zones (takeAnchor (smpHandled s)))

/-- What of the common layout's load the start-up area and the statements read. -/
structure StartLoaded (zones : List ZoneDef) (s t : State) : Prop where
  smp : t.smp.core = { (takeAnchor (smpHandled s)).smp with dev := .running }.core
  kept : ZoneSetsKept (takeAnchor (smpHandled s)) t
  zar : t.zar = { s.zar with banks := upd s.zar.banks 0 fun _ => zones, selector := 0, table := startTable zones }
  zones : ∀ g : Fin 8, t.sru.groups[g].zones = zoneSetOf (startTable zones) g
  frame : ChangesOnly [.sru, .plw, .events, .mem, .free, .zar, .smp] (takeAnchor (smpHandled s)) t

/-- The state in which the zone sets of the common layout are reported. -/
def commonTable (zones : List ZoneDef) (s : State) : State :=
  (setBank 0 zones (takeAnchor (smpHandled s))).onZar fun z => { z with selector := 0, table := startTable zones }

theorem startLoaded_eq (zones : List ZoneDef) (s : State) :
    startLoaded zones s = setDev .running (reportZoneSets (List.finRange 8) (commonTable zones s)) := rfl

theorem startLoaded_loaded (zones : List ZoneDef) (s : State) : StartLoaded zones s (startLoaded zones s) := by
  obtain ⟨hzar, hzones⟩ := reportZoneSets_zones (List.finRange 8) (commonTable zones s)
  have hreported := reportZoneSets_frame (List.finRange 8) (commonTable zones s)
  obtain ⟨koffset, klength, ksnapshot, khalt, kenabled⟩ := reportZoneSets_kept (List.finRange 8) (commonTable zones s)
  rw [startLoaded_eq]
  have hframe : ChangesOnly [.sru, .plw, .events, .mem, .free, .zar, .smp] (takeAnchor (smpHandled s))
      (setDev .running (reportZoneSets (List.finRange 8) (commonTable zones s))) :=
    setDev_then _ (reportZoneSets_then _ (onZar_then _ (setBank_then 0 zones (.refl _ _) rfl) rfl) rfl) rfl
  have hdev := setDev_then .running (ChangesOnly.refl [.mem, .smp] (reportZoneSets (List.finRange 8) (commonTable zones s))) rfl
  have hplw := hdev .plw rfl
  have hsru := hdev .sru rfl
  have hzar' := hdev .zar rfl
  have hsmp : (setDev .running (reportZoneSets (List.finRange 8) (commonTable zones s))).smp =
    { (reportZoneSets (List.finRange 8) (commonTable zones s)).smp with dev := .running } := setDev_smp _ _
  generalize setDev .running _ = t at hframe hplw hsru hzar' hsmp
  generalize reportZoneSets _ _ = r at hzar hzones hreported koffset klength ksnapshot khalt kenabled hplw hsru hzar' hsmp
  change t.plw = r.plw at hplw
  change t.sru = r.sru at hsru
  change t.zar = r.zar at hzar'
  have hcore : r.smp.core = (takeAnchor (smpHandled s)).smp.core := hreported .smp rfl
  refine ⟨?_, ⟨?_, ?_, ?_, ?_, fun g => ?_⟩, ?_, fun g => ?_, hframe⟩
  · rw [hsmp]
    exact congrArg (fun m : Smp => { m with dev := .running }) hcore
  · rw [hplw]; exact koffset
  · rw [hplw]; exact klength
  · rw [hsru]; exact ksnapshot
  · rw [hsru]; exact khalt
  · rw [hsru]; exact kenabled g
  · rw [hzar', hzar]
    rfl
  · rw [hsru, hzones, if_pos (List.mem_finRange g)]
    rfl

/-- With no slot open the load writes the device state alone. -/
theorem startLoaded_nothingCut (zones : List ZoneDef) (hnone : ∀ g : Fin 8, s.sru.groups[g].openSlot = none) :
    (startLoaded zones s).plw = (takeAnchor (smpHandled s)).plw ∧ (startLoaded zones s).smp.events = s.smp.events ∧
    ∀ o, o + 4 ≤ 0x100 → anchorWord (startLoaded zones s) o = anchorWord s o := by
  obtain ⟨-, hplw, hsmp, hmem⟩ := reportZoneSets_nothingCut (s := commonTable zones s) (List.finRange 8) hnone
  rw [startLoaded_eq]
  generalize reportZoneSets _ _ = r at hplw hsmp hmem
  refine ⟨?_, ?_, fun o ho => ?_⟩
  · exact Eq.trans (setDev_then .running (ChangesOnly.refl [.mem, .smp] r) rfl .plw rfl) hplw
  · rw [setDev_smp, hsmp]
    rfl
  · rw [(setDev_in .running r).anchorWord (.inl ho)]
    unfold anchorWord
    rw [hsmp, hmem]
    rfl

theorem exec_anchorCheck_success {now : Bool} {zones : List ZoneDef} (hdue : s.smp.frameDue = true)
    (hdev : s.smp.dev = .starting) (hcheck : startCheck s = .ok zones) : exec (.anchorCheck now) s =
      .next (writePartArea (if now then settingsAtSuccess (startLoaded zones s) else startLoaded zones s)) := by
  have hcheck' : startCheck (smpHandled s) = .ok zones := hcheck
  refine congrArg Host.Outcome.next ?_
  rw [hdue, hdev]
  refine (if_pos (by decide)).trans ?_
  rw [anchorCheck, hcheck']
  rfl

/-- Settles O15. -/
theorem successfulStartRuns : Obligations.SuccessfulStartRuns := by
  refine ⟨fun now s h => congrArg Host.Outcome.next (if_neg ?_), fun now zones s hdue hdev hcheck haligned =>
    ⟨_, exec_anchorCheck_success hdue hdev hcheck, ?_⟩⟩
  · rw [Bool.and_eq_true, beq_iff_eq]
    rintro ⟨hdue, hdev⟩
    rcases h with h | h
    · rw [h] at hdue
      cases hdue
    · exact h hdev
  obtain ⟨hsmp, ⟨hoffset, hlength, hsnapshot, hhalt, henabled⟩, hzar, hzones, hframe⟩ := startLoaded_loaded zones s
  have hcut := startLoaded_nothingCut (s := s) zones
  generalize startLoaded zones s = u at hsmp hoffset hlength hsnapshot hhalt henabled hzar hzones hframe hcut
  have huforce : u.smp.inForce = true := congrArg Smp.inForce hsmp
  have hftu : u.ftu = s.ftu := hframe .ftu rfl
  have hw : DueOnly u (if now then settingsAtSuccess u else u) ∧
      ChangesOnly [.events, .due, .ciu, .clo, .msu, .plw, .ccu, .etu, .ftu, .mem] u (if now then settingsAtSuccess u else u) := by
    cases now with
    | false => exact ⟨.of_frame (.refl [] u) rfl, .refl _ u⟩
    | true => exact ⟨(settingsAtSuccess_taken huforce).due, (settingsAtSuccess_taken huforce).frame⟩
  obtain ⟨hdueOnly, hwframe⟩ := hw
  have hfalse : now = false → (if now then settingsAtSuccess u else u) = u := fun h => by rw [h]; rfl
  have htrue : now = true → SettingsTaken u (if now then settingsAtSuccess u else u) := fun h => by
    rw [h]; exact settingsAtSuccess_taken huforce
  generalize (if now then settingsAtSuccess u else u) = w at hdueOnly hwframe hfalse htrue
  obtain ⟨hdsmp, hdciu, hdclo, hdmsu, hdplw, hdccu, hdetu⟩ := hdueOnly
  have ht := writePartArea_then (ChangesOnly.refl [.mem] w) rfl
  have htsmp : (writePartArea w).smp = w.smp := by rw [writePartArea, anchorWrite_smp]
  have hwords := writePartArea_words (s := w)
  generalize writePartArea w = t at ht htsmp hwords
  have hcore : w.smp.core = { (takeAnchor (smpHandled s)).smp with dev := .running }.core := hdsmp.trans hsmp
  have hanchor : w.smp.anchor = s.smp.anchor := show w.smp.core.anchor = s.smp.anchor by rw [hcore]; rfl
  have hrun : w.smp.run = s.smp.run := show w.smp.core.run = s.smp.run by rw [hcore]; rfl
  have hfault : w.smp.fault = s.smp.fault := show w.smp.core.fault = s.smp.fault by rw [hcore]; rfl
  have htciu : t.ciu = { u.ciu with frameDue := w.ciu.frameDue } := Eq.trans (ht .ciu rfl) hdciu
  have htclo : t.clo = { u.clo with frameDue := w.clo.frameDue } := Eq.trans (ht .clo rfl) hdclo
  have htmsu : t.msu = { u.msu with frameDue := w.msu.frameDue } := Eq.trans (ht .msu rfl) hdmsu
  have htplw : t.plw = { u.plw with frameDue := w.plw.frameDue } := Eq.trans (ht .plw rfl) hdplw
  have htccu : t.ccu = { u.ccu with frameDue := w.ccu.frameDue } := Eq.trans (ht .ccu rfl) hdccu
  have htetu : t.etu = { u.etu with frameDue := w.etu.frameDue } := Eq.trans (ht .etu rfl) hdetu
  have hucle : t.cle = u.cle := Eq.trans (ht .cle rfl) (hwframe .cle rfl)
  have husru : t.sru = u.sru := Eq.trans (ht .sru rfl) (hwframe .sru rfl)
  have huzar : t.zar = u.zar := Eq.trans (ht .zar rfl) (hwframe .zar rfl)
  have htftu : t.ftu = w.ftu := ht .ftu rfl
  have hciu : u.ciu = (takeAnchor (smpHandled s)).ciu := hframe .ciu rfl
  have hclo : u.clo = (takeAnchor (smpHandled s)).clo := hframe .clo rfl
  have hcle : u.cle = (takeAnchor (smpHandled s)).cle := hframe .cle rfl
  have hmsu : u.msu = (takeAnchor (smpHandled s)).msu := hframe .msu rfl
  have hccu : u.ccu = s.ccu := hframe .ccu rfl
  have hetu : u.etu = s.etu := hframe .etu rfl
  refine ⟨?_, ?_, ?_, ?_, ?_, ?_, ?_, ?_, ?_, ?_, ?_, ?_, ?_, ?_, ?_, ?_, ?_, ?_, ?_, ?_, fun b hb => ?_, fun z => ?_, fun g => ?_,
    fun k => ?_, fun hnow => ?_, fun hnone => ?_, fun hnow hnone => ?_, ?_, ?_, ?_, ?_, ?_, ?_⟩
  · rw [htsmp]; exact congrArg Smp.dev hcore
  · rw [htsmp]; exact congrArg Smp.inForce hcore
  · rw [htsmp]; exact hrun
  · rw [htsmp]; exact hfault
  · rw [htsmp]; exact congrArg Smp.missCount hcore
  · rw [htsmp]; exact congrArg Smp.lastSeen hcore
  · rw [htciu, hciu]; rfl
  · rw [htciu, hciu]; rfl
  · rw [htciu, hciu]; rfl
  · rw [htciu, hciu]; rfl
  · rw [htclo, hclo]; rfl
  · rw [htclo, hclo]; rfl
  · rw [htplw]; exact hoffset
  · rw [htplw]; exact hlength
  · rw [husru]; exact hsnapshot
  · rw [hucle, hcle]; rfl
  · rw [htmsu, hmsu]; rfl
  · rw [husru]; exact hhalt
  · rw [huzar, hzar]
  · rw [huzar, hzar]; exact (upd_get _ _ _ _).trans (if_pos rfl)
  · rw [huzar, hzar]; exact (upd_get _ _ _ _).trans (if_neg hb)
  · rw [huzar, hzar]
    simp [startTable, bankZone]
  · rw [husru, huzar, hzar]
    exact ⟨hzones g, henabled g⟩
  · rw [← hanchor]
    exact hwords (congrArg Smp.inForce hcore) (by rw [hanchor]; exact haligned) k
  · rw [htftu, hfalse hnow, hftu]
  · obtain ⟨hplw, hevents, -⟩ := hcut hnone
    refine ⟨by rw [htplw, hplw]; rfl, by rw [htplw, hplw]; rfl, fun hnow => ?_⟩
    rw [htsmp, hfalse hnow, hevents]
  · obtain ⟨-, hevents, hword⟩ := hcut hnone
    obtain ⟨-, -, hfree, hen, hphase, hlock, hraised, htaken, hplaced⟩ := htrue hnow
    have hfree' : w.ftu.freeRun = max 416667 (min 4166667 (anchorWord s 0x30).toNat) := by
      rw [hfree, ← hword 0x30 (by decide)]
      rfl
    rw [hftu] at hraised htaken hplaced
    rw [hevents] at hraised htaken
    have henable : anchorWord u 0x34 = anchorWord s 0x34 := hword 0x34 (by decide)
    rw [henable] at hraised htaken
    rw [htftu, htsmp]
    refine ⟨hfree', ?_, ?_, ?_, hraised, htaken, hplaced⟩
    · rw [hen, ← henable]
      rfl
    · rw [hphase, ← hword 0x38 (by decide)]
      rfl
    · rw [hlock, acted_lock]
      simp only [readFtu, henable, hftu]
      by_cases hzero : anchorWord s 0x34 = 0 <;> simp [hzero]
  · rw [htclo, hclo]; rfl
  · rw [htccu, hccu]
  · rw [htccu, hccu]
  · rw [hucle, hcle]; rfl
  · rw [htmsu, hmsu]; rfl
  · rw [htetu, hetu]

end Sys2Proof.Machine
end

section
/-! SUPPORT. The composed canvas: painted text, the base of a zone and its boxes (R83 to R86). -/

namespace Sys2Proof.Machine

/-! ## Painted text -/

/-- The pixel lies in column `col` and row `row` of a glyph drawn at a scale. -/
theorem cell_of_pixel {x px : Int} {scale col : Nat} (hle : x + col * scale ≤ px) (hlt : px < x + col * scale + scale) :
    (px - x).toNat / scale = col := by
  have hscale : 0 < scale := by omega
  obtain ⟨d, hd⟩ : ∃ d : Nat, px - x = col * scale + d := ⟨(px - x - col * scale).toNat, by omega⟩
  have hdlt : d < scale := by omega
  have hnat : (px - x).toNat = d + scale * col := by
    rw [hd, Nat.mul_comm scale col]
    omega
  rw [hnat, Nat.add_mul_div_left _ _ hscale, Nat.div_eq_of_lt hdlt, Nat.zero_add]

theorem pixel_in_cell {x px : Int} {scale width : Nat} (hle : x ≤ px) (hlt : px < x + (width * scale : Nat)) :
    (px - x).toNat / scale < width ∧ x + ((px - x).toNat / scale : Nat) * scale ≤ px ∧
      px < x + ((px - x).toNat / scale : Nat) * scale + scale := by
  obtain ⟨d, rfl⟩ : ∃ d : Nat, px = x + d := ⟨(px - x).toNat, by omega⟩
  have hd : (x + (d : Int) - x).toNat = d := by omega
  rw [hd]
  have hlt' : d < width * scale := by omega
  have hscale : 0 < scale := Nat.pos_of_ne_zero fun h => by simp [h] at hlt'
  have hdiv := Nat.div_add_mod d scale
  have hmod := Nat.mod_lt d hscale
  rw [Nat.mul_comm] at hdiv
  generalize hq : d / scale = q at hdiv ⊢
  generalize d % scale = r at hdiv hmod
  refine ⟨?_, ?_, ?_⟩
  · rw [← hq]
    exact Nat.div_lt_of_lt_mul (by rwa [Nat.mul_comm])
  · have : ((q * scale : Nat) : Int) = (q : Int) * scale := Int.natCast_mul q scale
    omega
  · have : ((q * scale : Nat) : Int) = (q : Int) * scale := Int.natCast_mul q scale
    omega

/-- One glyph paints the pixels of the cells whose bit is set. -/
theorem glyphPaints_iff {m : Memory} {font code scale : Nat} {x y px py : Int} :
    glyphPaints m font code scale x y px py = true ↔
      ∃ col, col < glyphWidth m font code ∧ ∃ row, row < glyphHeight m font code ∧ glyphBit m font code col row = true ∧
        x + col * scale ≤ px ∧ px < x + col * scale + scale ∧ y + row * scale ≤ py ∧ py < y + row * scale + scale := by
  simp only [glyphPaints, Bool.and_eq_true, decide_eq_true_eq]
  constructor
  · rintro ⟨⟨⟨⟨hxle, hxlt⟩, hyle⟩, hylt⟩, hbit⟩
    obtain ⟨hcol, hcle, hclt⟩ := pixel_in_cell hxle hxlt
    obtain ⟨hrow, hrle, hrlt⟩ := pixel_in_cell hyle hylt
    exact ⟨_, hcol, _, hrow, hbit, hcle, hclt, hrle, hrlt⟩
  · rintro ⟨col, hcol, row, hrow, hbit, hcle, hclt, hrle, hrlt⟩
    have hspan : ∀ {n k : Nat}, n < k → n * scale + scale ≤ k * scale := fun {n k} h => by
      have := Nat.mul_le_mul_right scale h
      rwa [Nat.succ_mul] at this
    have hx := hspan hcol
    have hy := hspan hrow
    have hcast : ∀ n : Nat, ((n * scale : Nat) : Int) = (n : Int) * scale := fun n => Int.natCast_mul n scale
    have hc := hcast col
    have hr := hcast row
    refine ⟨⟨⟨⟨by omega, by omega⟩, by omega⟩, by omega⟩, ?_⟩
    rw [cell_of_pixel hcle hclt, cell_of_pixel hrle hrlt]
    exact hbit

theorem textPaints_nil {m : Memory} {font scale : Nat} {left top px py : Int} :
    ¬TextPaints m font scale [] left top px py := fun ⟨_, h, _⟩ => Nat.not_lt_zero _ h

/-- A text paints a pixel with its first glyph or with the rest of it, which begins where that glyph ends. -/
theorem textPaints_cons {m : Memory} {font scale c : Nat} {cs : List Nat} {left top px py : Int} :
    TextPaints m font scale (c :: cs) left top px py ↔ glyphPaints m font c scale left top px py = true ∨
      TextPaints m font scale cs (left + (glyphWidth m font c * scale : Nat)) top px py := by
  have hshift : ∀ i col : Nat, left + (((((c :: cs).take (i + 1)).map (glyphWidth m font)).sum : Nat) + (col : Int)) * scale =
      left + (glyphWidth m font c * scale : Nat) + ((((cs.take i).map (glyphWidth m font)).sum : Nat) + (col : Int)) * scale := by
    intro i col
    rw [List.take_succ_cons, List.map_cons, List.sum_cons]
    push_cast
    ring
  rw [glyphPaints_iff]
  constructor
  · rintro ⟨i, hi, col, hcol, row, hrow, hbit, h⟩
    cases i with
    | zero =>
      refine .inl ⟨col, hcol, row, hrow, hbit, ?_⟩
      simpa using h
    | succ i =>
      refine .inr ⟨i, Nat.lt_of_succ_lt_succ hi, col, hcol, row, hrow, hbit, ?_⟩
      dsimp only at h ⊢
      rwa [← hshift]
  · rintro (⟨col, hcol, row, hrow, hbit, h⟩ | ⟨i, hi, col, hcol, row, hrow, hbit, h⟩)
    · refine ⟨0, Nat.zero_lt_succ _, col, hcol, row, hrow, hbit, ?_⟩
      simpa using h
    · refine ⟨i + 1, Nat.succ_lt_succ hi, col, hcol, row, hrow, hbit, ?_⟩
      dsimp only at h ⊢
      rwa [hshift]

theorem stringPaints_iff {m : Memory} {font scale : Nat} {y px py : Int} (cs : List Nat) (x : Int) :
    stringPaints m font scale y px py cs x = true ↔ TextPaints m font scale cs x y px py := by
  induction cs generalizing x with
  | nil => exact iff_of_false Bool.false_ne_true textPaints_nil
  | cons c cs ih => rw [stringPaints, Bool.or_eq_true, ih, textPaints_cons]

/-! ## The base of a zone -/

theorem textLeft_eq (a : MessageAnswer) (width : Nat) : textLeft a width = (match a.crawl with
    | some q => (width : Int) - q
    | none => if a.textWidth ≤ width then ((width : Int) - a.textWidth) / 2 else 0) := by
  unfold textLeft
  cases a.crawl with
  | some q => rfl
  | none =>
    dsimp only
    split
    · omega
    · rfl

theorem textTop_eq (a : MessageAnswer) (height : Nat) :
    textTop a height = if a.textHeight ≤ height then ((height : Int) - a.textHeight) / 2 else 0 := by
  unfold textTop
  split
  · omega
  · rfl

theorem baseShows_message {m : Memory} {font : Nat} {d : ZoneDef} {a : MessageAnswer} {px py : Nat} {c : Colour} :
    BaseShows m font d (some (.message a)) px py c ↔
      ((a.phase = .on ∧ TextPaints m font 1 (textCodes m a.textOffset a.textLength) (textLeft a d.width)
        (textTop a d.height) px py) → c = a.foreground) ∧
      (¬(a.phase = .on ∧ TextPaints m font 1 (textCodes m a.textOffset a.textLength) (textLeft a d.width)
        (textTop a d.height) px py) → c = a.background) := by
  rw [textLeft_eq, textTop_eq]
  exact Iff.rfl

/-- The base of a zone shows what its head's answer gives (R84, R117). -/
theorem basePixel_shows (m : Memory) (font : Nat) (d : ZoneDef) (answers : List (Claimant × Answer)) (head : Option Claimant)
    (px py : Nat) : BaseShows m font d (head.bind fun who => answers.lookup who) px py
      (basePixel m font d (answerOf answers head) px py) := by
  have hanswer : answerOf answers head = (head.bind fun who => answers.lookup who).getD .nothing := by
    cases head <;> rfl
  rw [hanswer]
  cases head.bind fun who => answers.lookup who with
  | none => rfl
  | some a =>
    cases a with
    | nothing => rfl
    | clip offset width height idx => rfl
    | creative e c offset width height => rfl
    | message a =>
      refine baseShows_message.2 ?_
      rw [← stringPaints_iff]
      change _ ∧ _
      simp only [Option.getD_some, basePixel]
      unfold messagePixel
      cases a.phase with
      | off => exact ⟨fun h => absurd h.1 (by decide), fun _ => rfl⟩
      | on => exact ⟨fun h => if_pos h.2, fun h => if_neg fun hp => h ⟨rfl, hp⟩⟩

/-! ## The boxes over it -/

/-- A box is drawn over a pixel of the zone. -/
def boxPaints (m : Memory) (font : Nat) (w : FrameWork) (v : ViewEntry) (x y : Nat) (b : FieldBox) : Bool :=
  boxDrawn v.level b && stringPaints m font b.scale b.y x y (boxString w b) b.x

theorem boxPaints_iff {m : Memory} {font : Nat} {w : FrameWork} {v : ViewEntry} {x y : Nat} {b : FieldBox} :
    boxPaints m font w v x y b = true ↔
      b.cover < v.level ∧ TextPaints m font b.scale (boxString w b) b.x b.y x y := by
  rw [boxPaints, Bool.and_eq_true, boxDrawn, decide_eq_true_eq, stringPaints_iff]

theorem foldl_unpainted {p : FieldBox → Bool} {boxes : List FieldBox} (h : ∀ b ∈ boxes, p b = false) (base : Colour) :
    boxes.foldl (fun c b => if p b then b.colour else c) base = base := by
  induction boxes with
  | nil => rfl
  | cons b bs ih =>
    rw [List.foldl_cons, h b List.mem_cons_self]
    exact ih fun b hb => h b (List.mem_cons_of_mem _ hb)

/-- The last box that paints gives the colour. -/
theorem foldl_painted {p : FieldBox → Bool} {before after : List FieldBox} {b : FieldBox} (hb : p b = true)
    (h : ∀ c ∈ after, p c = false) (base : Colour) :
    (before ++ b :: after).foldl (fun c b => if p b then b.colour else c) base = b.colour := by
  rw [List.foldl_append, List.foldl_cons, if_pos hb, foldl_unpainted h]

theorem boxesOver_eq (m : Memory) (font : Nat) (w : FrameWork) (v : ViewEntry) (x y : Nat) (base : Colour) :
    boxesOver m font w v x y base =
      v.defn.boxes.foldl (fun c b => if boxPaints m font w v x y b then b.colour else c) base := rfl

/-! ## A pixel of the canvas -/

theorem covers_iff {v : ViewEntry} {link : Fin 4} {x y : Nat} : v.covers link x y = true ↔ v.defn.link = link ∧
    v.defn.x ≤ x ∧ x < v.defn.x + v.defn.width ∧ v.defn.y ≤ y ∧ y < v.defn.y + v.defn.height := by
  simp only [ViewEntry.covers, Bool.and_eq_true, beq_iff_eq, decide_eq_true_eq, and_assoc]

section
variable {s : State} {w : FrameWork} {link : Fin 4} {x y : Nat} (hwork : s.clo.work = some w) (hcontent : w.content = true)
include hwork hcontent

theorem canvasPixel_outside (h : ∀ v ∈ w.view, ¬v.covers link x y = true) : canvasPixel s link x y = 0 := by
  have hnone : (w.view.find? fun v => v.covers link x y) = none := List.find?_eq_none.2 h
  rw [canvasPixel, hwork]
  dsimp only
  rw [framePixelOf, if_pos hcontent, hnone]
  rfl

theorem canvasPixel_inside {v : ViewEntry} (hv : v ∈ w.view) (hin : v.covers link x y = true)
    (hone : ∀ u ∈ w.view, u.covers link x y = true → u = v) : canvasPixel s link x y =
      boxesOver s.mem s.clo.fontOffset.toNat w v (x - v.defn.x) (y - v.defn.y)
        (basePixel s.mem s.clo.fontOffset.toNat v.defn (answerOf w.answers v.head) (x - v.defn.x) (y - v.defn.y)) := by
  have hfind : (w.view.find? fun v => v.covers link x y) = some v := by
    cases hf : w.view.find? fun v => v.covers link x y with
    | none => exact absurd hin (List.find?_eq_none.1 hf v hv)
    | some u => rw [hone u (List.mem_of_find?_eq_some hf) (by simpa using List.find?_some hf)]
  rw [canvasPixel, hwork]
  dsimp only
  rw [framePixelOf, if_pos hcontent, hfind]

end

end Sys2Proof.Machine
end

section
/-! SUPPORT. The view, the asked set and the samples that a frame start takes (R74, R79 to R82, R87). -/

namespace Sys2Proof.Machine

variable {s t u : State}

/-! ## The sponsor entries at reports and requests -/

theorem closeSlot_entries (g : Fin 8) (s : State) : (closeSlot g s).sru.entries = s.sru.entries :=
  closeSlot_sru_field (F := Sru.entries) (fun _ _ _ => rfl) g s

theorem dwellEnd_entries (g : Fin 8) (s : State) : (dwellEnd g s).sru.entries = s.sru.entries := by
  unfold dwellEnd
  split
  · rfl
  · split
    · dsimp only
      split
      · exact closeSlot_entries g _
      · rfl
    · rfl

theorem selectSlot_entries (g : Fin 8) (f : Frame) (s : State) : (selectSlot g f s).sru.entries = s.sru.entries := by
  unfold selectSlot
  split <;> rfl

theorem answerSlot_entries (g : Fin 8) (f : Frame) (s : State) : (answerSlot g f s).2.sru.entries = s.sru.entries := by
  unfold answerSlot
  split
  · rfl
  · split
    · rfl
    · exact dwellEnd_entries g _

theorem groupRequest_entries (g : Fin 8) (f : Frame) (s : State) : (groupRequest g f s).2.sru.entries = s.sru.entries := by
  unfold groupRequest
  split
  · rfl
  · split
    · exact (answerSlot_entries g f _).trans (selectSlot_entries g f s)
    · exact answerSlot_entries g f s

theorem creditGroup_entries (g : Fin 8) (k : Nat) (shown : Fin 64) (s : State) :
    (creditGroup g k shown s).sru.entries = s.sru.entries := by
  unfold creditGroup
  dsimp only
  split
  · rw [raise_sru]
    split
    · rfl
    · rw [writeGroupStatus, anchorWrite_sru]
      rfl
  · rfl

theorem groupReport_entries (g : Fin 8) (f : Frame) (r : List ReportEntry) (s : State) :
    (groupReport g f r s).sru.entries = s.sru.entries := by
  unfold groupReport
  split
  · rfl
  · next x _ =>
    split
    · dsimp only
      have hcredited : ∀ k y, (if x.preClear then onGroup g (fun r => { r with openSlot := some y }) s
          else creditGroup g k x.entry (onGroup g (fun r => { r with openSlot := some y }) s)).sru.entries =
            s.sru.entries := by
        intro k y
        split
        · rfl
        · exact creditGroup_entries g k x.entry _
      split
      · exact (closeSlot_entries g _).trans (hcredited _ _)
      · exact hcredited _ _
    · rfl

theorem issueReport_entries (f : Frame) (r : List ReportEntry) (who : Claimant) (s : State) :
    (issueReport f r who s).sru.entries = s.sru.entries := by
  cases who with
  | clip k => exact congrArg Sru.entries (clipReport_then k f r (ChangesOnly.refl [.cle, .mem, .events, .etu] s) rfl .sru rfl)
  | message k =>
    exact congrArg Sru.entries (messageReport_then k f r (ChangesOnly.refl [.msu, .mem, .events, .etu] s) rfl .sru rfl)
  | group g => exact groupReport_entries g f r s

/-! ## What a close with its reports, and a round of requests, keep -/

theorem closeAndReport_kept (s : State) : (closeAndReport s).zar = s.zar ∧ (closeAndReport s).sru.entries = s.sru.entries ∧
    (closeAndReport s).ccu = s.ccu ∧ (closeAndReport s).smp.dev = s.smp.dev ∧
    (closeAndReport s).clo.scoreOffset = s.clo.scoreOffset ∧ (closeAndReport s).clo.fontOffset = s.clo.fontOffset ∧
    (closeAndReport s).clo.frameDue = s.clo.frameDue := by
  have hframe := closeAndReport_then (ChangesOnly.refl [.cle, .msu, .sru, .plw, .mem, .events, .etu, .free, .clo] s) rfl
  have hclosed := closeLinks_clo s
  have hentries : (closeLinks s).sru.entries = s.sru.entries := congrArg Sru.entries (closeLinks_frame s .sru rfl)
  have hclo : ∀ {α : Type} (F : Clo → α), (∀ (c : Clo) l a, F { c with links := l, asked := a } = F c) →
      F (closeAndReport s).clo = F s.clo := by
    intro α F hF
    cases hwork : s.clo.work with
    | none =>
      unfold closeAndReport
      dsimp only
      rw [hclosed, hwork]
      dsimp only
      rw [hclosed]
      exact hF s.clo _ s.clo.asked
    | some w =>
      have hloop : (inFreeOrder s.clo.asked (issueReport w.number (closedReport w s)) (closeLinks s)).clo =
          (closeLinks s).clo :=
        inFreeOrder_induct (P := fun t => t.clo = (closeLinks s).clo) rfl fun who _ t ht => Eq.trans
          (issueReport_then _ _ who (ChangesOnly.refl [.cle, .msu, .sru, .plw, .mem, .events, .etu, .free] t) rfl .clo rfl) ht
      rw [closeAndReport_eq hwork, State.onClo_clo, hloop, hclosed]
      exact hF s.clo _ []
  refine ⟨hframe .zar rfl, ?_, hframe .ccu rfl, hframe.dev rfl, hclo Clo.scoreOffset fun _ _ _ => rfl,
    hclo Clo.fontOffset fun _ _ _ => rfl, hclo Clo.frameDue fun _ _ _ => rfl⟩
  · cases hwork : s.clo.work with
    | none =>
      unfold closeAndReport
      dsimp only
      rw [hclosed, hwork]
      exact hentries
    | some w =>
      rw [closeAndReport_eq hwork]
      exact inFreeOrder_induct (P := fun t => t.sru.entries = s.sru.entries) hentries
        fun who _ t ht => (issueReport_entries _ _ who t).trans ht

/-- A round of requests keeps the banks, the selector and the sponsor entries. -/
structure AskKept (s t : State) : Prop where
  removed : ClaimsRemoved s t
  entries : t.sru.entries = s.sru.entries

theorem AskKept.trans (h : AskKept s t) (k : AskKept t u) : AskKept s u :=
  ⟨h.removed.trans k.removed, k.entries.trans h.entries⟩

theorem AskKept.of_same (hzar : t.zar = s.zar) (hsru : t.sru = s.sru) : AskKept s t := ⟨.of_same hzar, by rw [hsru]⟩

theorem exhaustClip_askKept (k : Fin 8) (s : State) : AskKept s (exhaustClip k s) := by
  unfold exhaustClip
  split
  · split
    · exact .of_same rfl rfl
    · exact ⟨endClip_removed _ _ _, congrArg Sru.entries
        (endClip_then _ k (ChangesOnly.refl [.cle, .mem, .events, .etu, .zar] s) rfl .sru rfl)⟩
  · exact .of_same rfl rfl

theorem clipRequest_askKept (k : Fin 8) (f : Frame) (zones : ZoneMask) (s : State) :
    AskKept s (clipRequest k f zones s).2 := by
  unfold clipRequest
  dsimp only
  split
  · dsimp only
    split
    · refine AskKept.trans ?_ (exhaustClip_askKept k _)
      exact .of_same rfl rfl
    · exact .of_same rfl rfl
  · exact .of_same rfl rfl

theorem countMessage_askKept (f : Frame) (k : Fin 8) (s : State) : AskKept s (countMessage f k s) := by
  unfold countMessage
  split
  · dsimp only
    split
    · refine AskKept.trans (t := onMessage k (fun m => { m with duration := some 0 })
        (onMessage k (fun m => { m with counted := f }) s)) (.of_same rfl rfl) ⟨.of_release (endMessageAt_zar ..),
        congrArg Sru.entries (endMessageAt_then _ _ k (ChangesOnly.refl [.msu, .mem, .events, .etu, .zar] _) rfl .sru rfl)⟩
    · exact .of_same rfl rfl
  · exact .of_same rfl rfl

theorem messageRequest_askKept (k : Fin 8) (f : Frame) (zones : ZoneMask) (s : State) :
    AskKept s (messageRequest k f zones s).2 := by
  unfold messageRequest
  dsimp only
  split
  · exact (countMessage_askKept f k s).trans (.of_same rfl rfl)
  · exact countMessage_askKept f k s

theorem contentRequest_askKept (f : Frame) (zones : ZoneMask) (who : Claimant) (s : State) :
    AskKept s (contentRequest f zones who s).2 := by
  cases who with
  | clip k => exact clipRequest_askKept k f zones s
  | message k => exact messageRequest_askKept k f zones s
  | group g =>
    exact ⟨.of_same (groupRequest_then g f (ChangesOnly.refl [.sru, .plw, .events, .mem, .free] s) rfl .zar rfl),
      groupRequest_entries g f s⟩

/-- The round of requests gives one answer of each claimant asked, in the order asked. -/
theorem askAll_claimants (f : Frame) (view : List ViewEntry) (ws : List Claimant) (s : State) :
    (askAll f view ws s).1.map Prod.fst = ws := by
  have hfold : ∀ (ws : List Claimant) (acc : List (Claimant × Answer) × State),
      (ws.foldl (fun acc w => (acc.1 ++ [(w, (contentRequest f (headedZones view w) w acc.2).1)],
        (contentRequest f (headedZones view w) w acc.2).2)) acc).1.map Prod.fst = acc.1.map Prod.fst ++ ws := by
    intro ws
    induction ws with
    | nil => exact fun acc => (List.append_nil _).symm
    | cons w ws ih =>
      intro acc
      rw [List.foldl_cons, ih, List.map_append, List.append_assoc]
      rfl
  exact (hfold ws ([], s)).trans (List.nil_append ws)

/-! ## The view, the asked set and the samples -/

theorem mem_viewOf {z : Zar} {v : ViewEntry} : v ∈ viewOf z ↔ ∃ (i : Fin 16) (e : ZoneEntry), z.table[i] = some e ∧
    v = ⟨e.defn, e.claims.head?.map Claim.who, (e.claims.head?.map Claim.level).getD 7⟩ := by
  simp only [viewOf, List.mem_filterMap, Vector.mem_toList_iff, Option.map_eq_some_iff]
  constructor
  · rintro ⟨o, ho, e, rfl, rfl⟩
    obtain ⟨i, hi, hget⟩ := Vector.mem_iff_getElem.1 ho
    exact ⟨⟨i, hi⟩, e, hget, rfl⟩
  · rintro ⟨i, e, he, rfl⟩
    exact ⟨some e, he ▸ Vector.getElem_mem _, e, rfl, rfl⟩

theorem allClaimants_complete (who : Claimant) : who ∈ allClaimants := by
  cases who <;> simp [allClaimants]

theorem allClaimants_nodup : allClaimants.Nodup := by decide

theorem mem_askedSet {view : List ViewEntry} {z : Zar} {who : Claimant} : who ∈ askedSet view z ↔
    (∃ v ∈ view, v.head = some who) ∨ ∃ g : Fin 8, who = .group g ∧ holdsAny z (.group g) = true := by
  have hhead : headsIn view who = true ↔ ∃ v ∈ view, v.head = some who := by
    simp [headsIn, List.any_eq_true]
  have hgroup : (who.isGroup && holdsAny z who) = true ↔ ∃ g : Fin 8, who = .group g ∧ holdsAny z (.group g) = true := by
    cases who <;> simp [Claimant.isGroup]
  rw [askedSet, List.mem_filter, Bool.or_eq_true, hhead, hgroup]
  exact and_iff_right (allClaimants_complete who)

theorem askedSet_nodup (view : List ViewEntry) (z : Zar) : (askedSet view z).Nodup := allClaimants_nodup.filter _

theorem usesField_iff {view : List ViewEntry} {f : Fin 32} : usesField view f = true ↔
    ∃ v ∈ view, ∃ b ∈ v.defn.boxes, ∃ digits pad, b.source = .score f digits pad := by
  simp only [usesField, List.any_eq_true]
  refine exists_congr fun v => and_congr_right fun _ => exists_congr fun b => and_congr_right fun _ => ?_
  cases b.source <;> simp

theorem usesChannel_iff {view : List ViewEntry} {c : Fin 4} : usesChannel view c = true ↔
    ∃ v ∈ view, ∃ b ∈ v.defn.boxes, ∃ f, b.source = .clock c f := by
  simp only [usesChannel, List.any_eq_true]
  refine exists_congr fun v => and_congr_right fun _ => exists_congr fun b => and_congr_right fun _ => ?_
  cases b.source <;> simp

theorem mem_sampleScores {view : List ViewEntry} {f : Fin 32} {x : Word} : (f, x) ∈ sampleScores view s ↔
    (∃ v ∈ view, ∃ b ∈ v.defn.boxes, ∃ digits pad, b.source = .score f digits pad) ∧
      x = s.mem.word (s.clo.scoreOffset.toNat + 4 * f.val) := by
  rw [← usesField_iff]
  simp only [sampleScores, List.mem_map, List.mem_filter, List.mem_finRange, true_and, Prod.mk.injEq]
  constructor
  · rintro ⟨g, hg, rfl, rfl⟩
    exact ⟨hg, rfl⟩
  · rintro ⟨hf, rfl⟩
    exact ⟨f, hf, rfl, rfl⟩

theorem mem_sampleClocks {view : List ViewEntry} {c : ClockSample} : c ∈ sampleClocks view s ↔
    (∃ v ∈ view, ∃ b ∈ v.defn.boxes, ∃ f, b.source = .clock c.channel f) ∧
      c.count = s.ccu.channels[c.channel].count ∧ c.mode = s.ccu.channels[c.channel].mode ∧
      c.state = s.ccu.channels[c.channel].state := by
  rw [← usesChannel_iff]
  simp only [sampleClocks, List.mem_map, List.mem_filter, List.mem_finRange, true_and]
  constructor
  · rintro ⟨d, hd, rfl⟩
    exact ⟨hd, rfl, rfl, rfl⟩
  · rintro ⟨hused, hcount, hmode, hstate⟩
    obtain ⟨d, n, m, st⟩ := c
    dsimp only at hcount hmode hstate
    exact ⟨d, hused, by rw [hcount, hmode, hstate]⟩

/-! ## The frame start of the CLO -/

/-- The frame that a live device composes: its view, the answers and the samples. -/
def composedWork (f : Frame) (s : State) : FrameWork where
  number := f
  content := true
  view := viewOf s.zar
  answers := (askAll f (viewOf s.zar) (freeOrder s.free (askedSet (viewOf s.zar) s.zar)) s.nextFree).1
  scores := sampleScores (viewOf s.zar) s
  clocks := sampleClocks (viewOf s.zar) s

theorem viewAndCompose_live (f : Frame) (h : s.smp.dev.live = true) : viewAndCompose f s =
    (askAll f (viewOf s.zar) (freeOrder s.free (askedSet (viewOf s.zar) s.zar)) s.nextFree).2.onClo fun c =>
      { c with work := some (composedWork f s), asked := askedSet (viewOf s.zar) s.zar } := if_pos h

theorem viewAndCompose_stopped (f : Frame) (h : s.smp.dev.live = false) : viewAndCompose f s = s.onClo fun c =>
    { c with
      work := some { number := f, content := false, view := viewOf s.zar, answers := [], scores := [], clocks := [] },
      asked := [] } := if_neg (by rw [h]; decide)

theorem canvasPixel_no_content {w : FrameWork} (hwork : s.clo.work = some w) (hcontent : w.content = false) (link : Fin 4)
    (x y : Nat) : canvasPixel s link x y = 0 := by
  rw [canvasPixel, hwork]
  exact if_neg (by rw [hcontent]; decide)

/-- A close writes no memory where no anchor is in force, and none where it has nothing to report. -/
theorem closeAndReport_mem (h : s.smp.inForce = false ∨ (s.clo.asked = [] ∧ ∀ n : Fin 4, s.clo.links[n].up = true →
    s.clo.links[n].seen = false → s.clo.links[n].miss < 2)) : (closeAndReport s).mem = s.mem := by
  obtain hforce | ⟨hasked, hlinks⟩ := h
  · exact ((closeAndReport_orderly (.refl s)).guard hforce).2
  · have hfalls : s.clo.links.toList.any PanelLink.goesDown = false := by
      rw [List.any_eq_false]
      intro l hl
      obtain ⟨n, hn, rfl⟩ := Vector.mem_iff_getElem.1 (Vector.mem_toList_iff.1 hl)
      have := hlinks ⟨n, hn⟩
      simp only [PanelLink.goesDown, Bool.and_eq_true, Bool.not_eq_true', decide_eq_true_eq, not_and]
      rintro ⟨hup, hseen⟩
      exact Nat.not_le.2 (this hup hseen)
    have hclosed : (closeLinks s).mem = s.mem := by
      unfold closeLinks
      dsimp only
      rw [hfalls]
      rfl
    cases hwork : s.clo.work with
    | none =>
      have heq : closeAndReport s = closeLinks s := by
        unfold closeAndReport
        dsimp only
        rw [closeLinks_clo, hwork]
      rw [heq, hclosed]
    | some w =>
      rw [closeAndReport_eq hwork, hasked]
      exact hclosed

/-- A pixel of a zone shows the last of its boxes that paints it, and otherwise the base (R83 to R86). -/
theorem canvasPixel_boxes {w : FrameWork} {link : Fin 4} {x y : Nat} (hwork : s.clo.work = some w)
    (hcontent : w.content = true) {v : ViewEntry} (hv : v ∈ w.view) (hin : v.covers link x y = true)
    (hone : ∀ u ∈ w.view, u.covers link x y = true → u = v) :
    let paints := boxPaints s.mem s.clo.fontOffset.toNat w v (x - v.defn.x) (y - v.defn.y)
    (∀ before b after, v.defn.boxes = before ++ b :: after → paints b = true → (∀ c ∈ after, ¬paints c = true) →
      canvasPixel s link x y = b.colour) ∧
    ((∀ b ∈ v.defn.boxes, ¬paints b = true) → BaseShows s.mem s.clo.fontOffset.toNat v.defn
      (v.head.bind fun who => w.answers.lookup who) (x - v.defn.x) (y - v.defn.y) (canvasPixel s link x y)) := by
  rw [canvasPixel_inside hwork hcontent hv hin hone, boxesOver_eq]
  refine ⟨fun before b after hboxes hb hafter => ?_, fun hnone => ?_⟩
  · rw [hboxes]
    exact foldl_painted hb (fun c hc => Bool.eq_false_iff.2 (hafter c hc)) _
  · rw [foldl_unpainted fun b hb => Bool.eq_false_iff.2 (hnone b hb)]
    exact basePixel_shows ..

/-- Settles O39. -/
theorem frameStartTakesViewAndAsks : Obligations.FrameStartTakesViewAndAsks := by
  refine ⟨fun s h => congrArg Host.Outcome.next (if_neg (by rw [h]; decide)), fun s hdue hdev => ⟨_, exec_cloFrameStart hdue, ?_⟩,
    fun s hdue hdev => ?_, fun link x y w s hwork hcontent => ⟨fun hout => ?_, fun v hv hin hone => ?_⟩⟩
  · obtain ⟨hzar, -, -, hdev', -, -, hhandled⟩ := closeAndReport_kept (cloHandled s)
    have hdead : (closeAndReport (cloHandled s)).smp.dev.live = false := by
      rw [hdev']
      change s.smp.dev.live = false
      rcases hdev with h | h | h <;> rw [h] <;> rfl
    have hframe : ChangesOnly [.mem, .events, .clo, .cle, .msu, .sru, .plw, .etu, .free] s (closeAndReport (cloHandled s)) :=
      closeAndReport_then (onClo_then _ (.refl _ s) rfl) rfl
    have hstopped := viewAndCompose_stopped s.ftu.frame hdead
    refine ⟨?_, ?_, ?_, canvasPixel_no_content
      (w := ⟨s.ftu.frame, false, viewOf (closeAndReport (cloHandled s)).zar, [], [], []⟩) ?_ rfl, ?_⟩ <;>
      rw [cloFrameStart, hstopped]
    · rfl
    · exact hhandled
    · exact hzar
    · rfl
    · exact onClo_then _ hframe rfl
  · obtain ⟨hzar, hentries, hccu, hdev', hscore, hfont, hhandled⟩ := closeAndReport_kept (cloHandled s)
    have hlive : (closeAndReport (cloHandled s)).smp.dev.live = true := by
      rw [hdev']
      change s.smp.dev.live = true
      rcases hdev with h | h <;> rw [h] <;> rfl
    have hframe : ChangesOnly [.mem, .events, .zar, .clo, .cle, .msu, .sru, .plw, .etu, .free] s
        (cloFrameStart s.ftu.frame (cloHandled s)) :=
      viewAndCompose_then _ (closeAndReport_then (onClo_then _ (.refl _ s) rfl) rfl) rfl
    refine ⟨_, composedWork s.ftu.frame (closeAndReport (cloHandled s)), exec_cloFrameStart hdue, ?_⟩
    have hreported : closeAndReport { s with clo := { s.clo with frameDue := false } } = closeAndReport (cloHandled s) := rfl
    rw [cloFrameStart, viewAndCompose_live _ hlive] at hframe ⊢
    rw [hreported]
    have hmem := closeAndReport_mem (s := cloHandled s)
    unfold composedWork at hframe ⊢
    generalize closeAndReport (cloHandled s) = u at hzar hentries hccu hscore hfont hhandled hframe hmem
    have hclo := askAll_then s.ftu.frame (viewOf u.zar) (freeOrder u.free (askedSet (viewOf u.zar) u.zar))
      (ChangesOnly.refl [.cle, .msu, .zar, .mem, .events, .etu, .sru, .plw, .free] u.nextFree) rfl
    have hkept : AskKept u (askAll s.ftu.frame (viewOf u.zar) (freeOrder u.free (askedSet (viewOf u.zar) u.zar))
        u.nextFree).2 :=
      askAll_induct (P := AskKept u) (.of_same rfl rfl) fun w _ t ht => ht.trans (contentRequest_askKept _ _ w t)
    have hanswers := askAll_claimants s.ftu.frame (viewOf u.zar) (freeOrder u.free (askedSet (viewOf u.zar) u.zar)) u.nextFree
    generalize askAll _ _ _ _ = r at hclo hkept hanswers hframe
    have hrclo : r.2.clo = u.clo := hclo .clo rfl
    have huzar : u.zar = s.zar := hzar
    have huccu : u.ccu = s.ccu := hccu
    refine ⟨rfl, ?_, rfl, rfl, fun v => ?_, fun who => ?_, ?_, ?_, fun c => ?_, ⟨fun f x => ?_, hmem⟩, ?_, ?_, ?_, ?_, ?_, hframe⟩
    · exact (congrArg Clo.frameDue hrclo).trans hhandled
    · rw [huzar]
      exact mem_viewOf
    · rw [huzar]
      exact mem_askedSet
    · exact askedSet_nodup _ _
    · exact (List.Perm.of_eq hanswers).trans (freeOrder_perm _ _)
    · rw [← huccu]
      exact mem_sampleClocks
    · refine mem_sampleScores.trans ?_
      rw [show u.clo.scoreOffset = s.clo.scoreOffset from hscore]
    · exact hkept.removed.banks.trans (congrArg Zar.banks huzar)
    · exact hkept.removed.selector.trans (congrArg Zar.selector huzar)
    · exact (congrArg Clo.scoreOffset hrclo).trans hscore
    · exact (congrArg Clo.fontOffset hrclo).trans hfont
    · exact hkept.entries.trans hentries
  · exact canvasPixel_outside hwork hcontent fun v hv hcovers => hout v hv (covers_iff.1 hcovers)
  · obtain ⟨hboxes, hbase⟩ := canvasPixel_boxes hwork hcontent hv (covers_iff.2 hin)
      fun u hu hcovers => hone u hu (covers_iff.1 hcovers)
    simp only [boxPaints_iff] at hboxes hbase
    exact ⟨hboxes, hbase⟩

end Sys2Proof.Machine
end

section
/-! SUPPORT. The counts of a millisecond boundary and the expiries they hand on to tallies (R155 to R157). -/

namespace Sys2Proof.Machine

variable {s t u v : State}

/-! ## One count -/

theorem step_mode (x : Channel) : x.step.mode = x.mode := by
  unfold Channel.step
  split <;> rfl

/-- A channel whose count would bring it to its end. -/
def Channel.reachesEnd (x : Channel) : Bool := x.step.atEnd

theorem afterCount_eq (x : Channel) : x.afterCount = if x.reachesEnd then x.step.expire else x.step := by
  unfold Channel.afterCount Channel.reachesEnd Channel.expire Channel.atEnd Channel.step Channel.takePreset Channel.load
  cases hmode : x.mode <;> cases hauto : x.auto <;> simp <;> split <;> simp_all

theorem afterCount_kept (x : Channel) : x.afterCount.mode = x.mode ∧ x.afterCount.source = x.source ∧
    x.afterCount.hornEnable = x.hornEnable ∧ x.afterCount.hornLength = x.hornLength := by
  unfold Channel.afterCount
  dsimp only
  split_ifs <;> exact ⟨rfl, rfl, rfl, rfl⟩

theorem afterCount_expiries (x : Channel) :
    x.afterCount.expiries = if x.reachesEnd then x.expiries + 1 else x.expiries := by
  have hstep : x.step.expiries = x.expiries := by unfold Channel.step; split <;> rfl
  have hexpire : x.step.expire.expiries = x.step.expiries + 1 := by
    unfold Channel.expire Channel.load
    dsimp only
    split
    · split <;> rfl
    · rfl
  rw [afterCount_eq]
  split
  · rw [hexpire, hstep]
  · exact hstep

theorem lastCount_iff (x : Channel) (h : x.mode = .countDown → x.count ≠ 0) :
    x.lastCount ↔ x.state = .running ∧ x.reachesEnd = true := by
  unfold Channel.lastCount Channel.reachesEnd Channel.atEnd Channel.step
  refine and_congr_right fun _ => ?_
  cases hmode : x.mode with
  | countDown =>
    have := h hmode
    simp
    omega
  | countUp => simp
  | tally => simp

/-- A COUNT_DOWN channel that stands at 0 stays there. -/
theorem step_of_zero {x : Channel} (h : x.mode = .countDown ∧ x.count = 0) : x.step = x := by
  cases x
  obtain ⟨rfl, rfl⟩ := h
  rfl

theorem reachesEnd_of_zero {x : Channel} (h : x.mode = .countDown ∧ x.count = 0) : x.reachesEnd = true := by
  rw [Channel.reachesEnd, step_of_zero h, Channel.atEnd, h.1]
  exact beq_iff_eq.2 h.2

/-! ## What a set of counts leaves -/

/-- The entry of the ETU after the expiries of the channels in `N` that reach their end. -/
def entryAfterExpiries (s : State) (N : Finset (Fin 4)) (x : TriggerEntry) : TriggerEntry :=
  match x.source with
  | some (.channelExpiry c) =>
    if c ∈ N ∧ s.ccu.channels[c].reachesEnd = true then entryAfter (s.smp.dev == .running) (.channelExpiry c) x else x
  | _ => x

/-- The channels in `N` have made their count, and no others; those that reach their end have expired. -/
structure Ticked (s u : State) (N : Finset (Fin 4)) : Prop where
  channel : ∀ d : Fin 4, u.ccu.channels[d] = if d ∈ N then s.ccu.channels[d].afterCount else s.ccu.channels[d]
  lines : u.ccu.lines = s.ccu.lines
  levels : u.ccu.levels = s.ccu.levels
  due : u.ccu.frameDue = s.ccu.frameDue
  smp : u.smp = { s.smp with
    events := s.smp.events ||| (if ∃ d ∈ N, s.ccu.channels[d].reachesEnd = true then 0x040#10 else 0#10) }
  handling : u.etu.handling = s.etu.handling
  entry : s.etu.handling = false → ∀ e : Fin 8, u.etu.entries[e] = entryAfterExpiries s N s.etu.entries[e]
  outside : ∀ a, ¬AnchorByte s 0x180 0x280 a → u.mem.get a = s.mem.get a

/-- So too with the horn, which was clear: it stands at the longest length that an expiry asks for. -/
structure Counted (s u : State) (N : Finset (Fin 4)) : Prop extends Ticked s u N where
  horn : ∀ h, u.ccu.horn ≤ h ↔ ∀ d ∈ N, s.ccu.channels[d].reachesEnd = true →
    s.ccu.channels[d].hornEnable = true → s.ccu.channels[d].hornLength ≤ h

theorem entryAfterExpiries_empty (s : State) (x : TriggerEntry) : entryAfterExpiries s ∅ x = x := by
  unfold entryAfterExpiries
  split
  · exact if_neg fun h => absurd h.1 (Finset.notMem_empty _)
  · rfl

/-- Before any count, with the horn's maximum cleared. -/
theorem counted_empty (s : State) : Counted s (s.onCcu fun c => { c with horn := 0 }) ∅ where
  channel d := (if_neg (Finset.notMem_empty d)).symm
  horn h := ⟨fun _ d hd => absurd hd (Finset.notMem_empty d), fun _ => Nat.zero_le h⟩
  lines := rfl
  levels := rfl
  due := rfl
  smp := by
    rw [if_neg (by rintro ⟨d, hd, -⟩; exact Finset.notMem_empty d hd), BitVec.or_zero]
    rfl
  handling := rfl
  entry _ e := (entryAfterExpiries_empty s _).symm
  outside _ _ := rfl

theorem Counted.nextFree {N : Finset (Fin 4)} (h : Counted s u N) : Counted s u.nextFree N :=
  ⟨⟨h.channel, h.lines, h.levels, h.due, h.smp, h.handling, h.entry, h.outside⟩, h.horn⟩

theorem entryAfter_source (running : Bool) (ev : TriggerSource) (x : TriggerEntry) :
    (entryAfter running ev x).source = x.source := by
  unfold entryAfter
  split
  · split <;> rfl
  · rfl

theorem entryAfterExpiries_source (s : State) (N : Finset (Fin 4)) (x : TriggerEntry) :
    (entryAfterExpiries s N x).source = x.source := by
  unfold entryAfterExpiries
  split
  · split
    · exact entryAfter_source _ _ _
    · rfl
  · rfl

theorem entryAfter_of_other {running : Bool} {ev : TriggerSource} {x : TriggerEntry} (h : x.source ≠ some ev) :
    entryAfter running ev x = x := if_neg fun hs => h hs.2

theorem entryAfterExpiries_insert_quiet {N : Finset (Fin 4)} {c : Fin 4} (h : s.ccu.channels[c].reachesEnd = false)
    (x : TriggerEntry) : entryAfterExpiries s (insert c N) x = entryAfterExpiries s N x := by
  unfold entryAfterExpiries
  split
  · next d _ =>
    by_cases hd : d = c
    · subst hd
      rw [if_neg (by rw [h]; simp), if_neg (by rw [h]; simp)]
    · simp only [Finset.mem_insert, hd, false_or]
  · rfl

theorem entryAfterExpiries_insert {N : Finset (Fin 4)} {c : Fin 4} (hc : c ∉ N) (h : s.ccu.channels[c].reachesEnd = true)
    (x : TriggerEntry) : entryAfterExpiries s (insert c N) x =
      entryAfter (s.smp.dev == .running) (.channelExpiry c) (entryAfterExpiries s N x) := by
  by_cases hx : x.source = some (.channelExpiry c)
  · simp only [entryAfterExpiries, hx]
    rw [if_pos ⟨Finset.mem_insert_self c N, h⟩, if_neg fun hin => hc hin.1]
  · rw [entryAfter_of_other (by rw [entryAfterExpiries_source]; exact hx)]
    unfold entryAfterExpiries
    split
    · next d hd =>
      have hne : d ≠ c := fun heq => hx (heq ▸ hd)
      simp only [Finset.mem_insert, hne, false_or]
    · rfl

/-- One more channel counts and does not reach its end. -/
theorem Counted.step {N : Finset (Fin 4)} {c : Fin 4} (h : Counted s u N) (hc : c ∉ N)
    (hend : s.ccu.channels[c].reachesEnd = false) : Counted s (onChannel c Channel.step u) (insert c N) where
  channel d := by
    refine (upd_get _ _ _ _).trans ?_
    rw [h.channel c, if_neg hc]
    by_cases hd : d = c
    · subst hd
      rw [if_pos rfl, if_pos (Finset.mem_insert_self d N), afterCount_eq, hend]
      rfl
    · rw [if_neg hd, h.channel d]
      simp only [Finset.mem_insert, hd, false_or]
  horn n := by
    refine (h.horn n).trans ⟨fun hall d hd hdend => ?_, fun hall d hd => hall d (Finset.mem_insert_of_mem hd)⟩
    rcases Finset.mem_insert.1 hd with rfl | hd
    · rw [hend] at hdend
      cases hdend
    · exact hall d hd hdend
  lines := h.lines
  levels := h.levels
  due := h.due
  smp := by
    have hsame : (∃ d ∈ insert c N, s.ccu.channels[d].reachesEnd = true) ↔
        ∃ d ∈ N, s.ccu.channels[d].reachesEnd = true := by
      simp only [Finset.exists_mem_insert, hend, Bool.false_eq_true, false_or]
    simp only [hsame]
    exact h.smp
  handling := h.handling
  entry hnot e := (h.entry hnot e).trans (entryAfterExpiries_insert_quiet hend _).symm
  outside := h.outside

/-- The channel counts, reaches its end and expires. -/
def countAndExpire (c : Fin 4) (s : State) : State := expireChannel c (onChannel c Channel.step s)

/-- The CCU after the count and the expiry. -/
def expiredCcu (c : Fin 4) (a : Ccu) : Ccu :=
  { a with
    channels := upd a.channels c fun x => x.step.expire
    horn := if a.channels[c].hornEnable then max a.horn a.channels[c].hornLength else a.horn }

theorem countAndExpire_eq (c : Fin 4) (s : State) :
    countAndExpire c s = sourceEvent (.channelExpiry c) (raise .clockExpiry (s.onCcu (expiredCcu c))) := by
  have hstep : ∀ x : Channel, x.step.hornEnable = x.hornEnable ∧ x.step.hornLength = x.hornLength := by
    intro x
    unfold Channel.step
    split <;> exact ⟨rfl, rfl⟩
  have hget : (onChannel c Channel.step s).ccu.channels[c] = s.ccu.channels[c].step := upd_same _ _ _
  unfold countAndExpire expireChannel
  dsimp only
  refine congrArg (sourceEvent (.channelExpiry c)) ?_
  rw [hget, (hstep _).1, (hstep _).2]
  have htwice : onChannel c Channel.expire (onChannel c Channel.step s) =
      s.onCcu fun a => { a with channels := upd a.channels c fun x => x.step.expire } := by
    simp only [onChannel, State.onCcu, upd_upd]
  rw [htwice]
  unfold expiredCcu
  cases henable : s.ccu.channels[c].hornEnable with
  | true => simp only [State.onCcu, raise, henable, if_true]; rfl
  | false => simp only [State.onCcu, raise, henable]; rfl

/-- The registers are as they were where no part of them is reached. -/
theorem ChangesOnly.smp_eq {ps : List Part} (h : ChangesOnly ps s t)
    (hps : sub ps [.pending, .mem, .ftu, .ciu, .zar, .clo, .cle, .msu, .sru, .plw, .ccu, .etu, .free] = true) :
    t.smp = s.smp := by
  have h := h.mono hps
  have hcore : t.smp.core = s.smp.core := h .smp rfl
  have hevents : t.smp.events = s.smp.events := h .events rfl
  have hdue : t.smp.frameDue = s.smp.frameDue := h .due rfl
  calc t.smp = { t.smp.core with events := t.smp.events, frameDue := t.smp.frameDue } := rfl
    _ = { s.smp.core with events := s.smp.events, frameDue := s.smp.frameDue } := by rw [hcore, hevents, hdue]
    _ = s.smp := rfl

theorem or_clockExpiry_idem (e : BitVec 10) : e ||| 0x040#10 ||| 0x040#10 = e ||| 0x040#10 := by
  rw [BitVec.or_assoc, BitVec.or_self]

theorem Counted.expire {N : Finset (Fin 4)} {c : Fin 4} (h : Counted s u N) (hc : c ∉ N)
    (hend : s.ccu.channels[c].reachesEnd = true) : Counted s (countAndExpire c u) (insert c N) := by
  have hchan : u.ccu.channels[c] = s.ccu.channels[c] := (h.channel c).trans (if_neg hc)
  rw [countAndExpire_eq]
  generalize hw : raise .clockExpiry (u.onCcu (expiredCcu c)) = w
  have hccu : w.ccu = expiredCcu c u.ccu := by rw [← hw]; rfl
  have hetu : w.etu = u.etu := by rw [← hw]; rfl
  have hmem : w.mem = u.mem := by rw [← hw]; rfl
  have hsmp : w.smp = { u.smp with events := u.smp.events ||| 0x040#10 } := by rw [← hw]; rfl
  have hframe := sourceEvent_then (.channelExpiry c) (ChangesOnly.refl [.etu, .mem] w) rfl
  have hccu' : (sourceEvent (.channelExpiry c) w).ccu = expiredCcu c u.ccu := Eq.trans (hframe .ccu rfl) hccu
  have hex : ∃ d ∈ insert c N, s.ccu.channels[d].reachesEnd = true := ⟨c, Finset.mem_insert_self c N, hend⟩
  refine ⟨⟨fun d => ?_, ?_, ?_, ?_, ?_, ?_, fun hnot e => ?_, fun a ha => ?_⟩, fun n => ?_⟩
  · rw [hccu']
    refine (upd_get _ _ _ _).trans ?_
    by_cases hd : d = c
    · subst hd
      rw [if_pos rfl, if_pos (Finset.mem_insert_self d N), hchan, afterCount_eq, if_pos hend]
    · rw [if_neg hd, h.channel d]
      simp only [Finset.mem_insert, hd, false_or]
  · rw [hccu']
    exact h.lines
  · rw [hccu']
    exact h.levels
  · rw [hccu']
    exact h.due
  · rw [if_pos hex, hframe.smp_eq rfl, hsmp, h.smp]
    split
    · rw [or_clockExpiry_idem]
    · rw [BitVec.or_zero]
  · exact (etuKept_stable.source (.channelExpiry c) w).handling.trans ((congrArg Etu.handling hetu).trans h.handling)
  · have hnot' : w.etu.handling = false := (congrArg Etu.handling hetu).trans (h.handling.trans hnot)
    have hdev : w.smp.dev = s.smp.dev := by rw [hsmp, h.smp]
    rw [sourceEvent_entries _ hnot', hetu, h.entry hnot e, hdev, entryAfterExpiries_insert hc hend]
  · have hanchor : w.smp.anchor = s.smp.anchor := by rw [hsmp, h.smp]
    rw [sourceEvent_get_outside _ (by rwa [AnchorByte, hanchor]), hmem]
    exact h.outside a ha
  · have hhorn : (expiredCcu c u.ccu).horn ≤ n ↔ u.ccu.horn ≤ n ∧
        (s.ccu.channels[c].hornEnable = true → s.ccu.channels[c].hornLength ≤ n) := by
      simp only [expiredCcu, hchan]
      cases s.ccu.channels[c].hornEnable <;> simp
    rw [hccu', hhorn, h.horn n, Finset.forall_mem_insert]
    exact and_comm.trans (and_congr_left fun _ => ⟨fun hlen _ => hlen, fun hlen => hlen hend⟩)

/-! ## The tallies that an expiry counts -/

/-- A channel counts the expiries of another one, which has expired: of one in `N` that reaches its end. -/
def CountsFrom (s : State) (N : Finset (Fin 4)) (d : Fin 4) : Prop :=
  s.ccu.channels[d].mode = .tally ∧ s.ccu.channels[d].state = .running ∧ s.ccu.channels[d].source ∈ N ∧
    s.ccu.channels[s.ccu.channels[d].source].reachesEnd = true

/-- The source of every tally in `N` is in `N`. -/
def SourcesIn (s : State) (N : Finset (Fin 4)) : Prop :=
  ∀ d ∈ N, s.ccu.channels[d].mode = .tally → s.ccu.channels[d].source ∈ N

/-- What the expiry of `c` adds to the channels that have counted: itself, and the tallies below it, all of them. -/
structure Expands (s : State) (N M : Finset (Fin 4)) (c : Fin 4) : Prop where
  subset : N ⊆ M
  root : c ∈ M
  added : ∀ d ∈ M \ N, d = c ∨ CountsFrom s (M \ N) d
  closed : ∀ d, CountsFrom s (M \ N) d → d ∈ M

theorem CountsFrom.mono {N M : Finset (Fin 4)} {d : Fin 4} (h : CountsFrom s N d) (hsub : N ⊆ M) : CountsFrom s M d :=
  ⟨h.1, h.2.1, hsub h.2.2.1, h.2.2.2⟩

/-- A channel that counts and does not reach its end adds itself alone. -/
theorem expands_insert {N : Finset (Fin 4)} {c : Fin 4} (hend : s.ccu.channels[c].reachesEnd = false) :
    Expands s N (insert c N) c where
  subset := Finset.subset_insert c N
  root := Finset.mem_insert_self c N
  added d hd := by
    obtain ⟨hin, hnot⟩ := Finset.mem_sdiff.1 hd
    exact .inl ((Finset.mem_insert.1 hin).resolve_right hnot)
  closed d hd := by
    obtain ⟨-, -, hsource, hreaches⟩ := hd
    obtain ⟨hin, hnot⟩ := Finset.mem_sdiff.1 hsource
    have hsame : s.ccu.channels[d].source = c := (Finset.mem_insert.1 hin).resolve_right hnot
    simp only [hsame, hend, Bool.false_eq_true] at hreaches

theorem mem_talliesOf {cs : Vector Channel 4} {c d : Fin 4} : d ∈ talliesOf cs c ↔ cs[d].mode = .tally ∧ cs[d].source = c := by
  simp [talliesOf, -Fin.getElem_fin]

theorem Counted.talliesOf {N : Finset (Fin 4)} (h : Counted s u N) (c : Fin 4) :
    Machine.talliesOf u.ccu.channels c = Machine.talliesOf s.ccu.channels c := by
  unfold Machine.talliesOf
  refine List.filter_congr fun d _ => ?_
  obtain ⟨hmode, hsource, -, -⟩ := afterCount_kept s.ccu.channels[d]
  rw [h.channel d]
  split
  · rw [hmode, hsource]
  · rfl

theorem SourcesIn.expand {N M : Finset (Fin 4)} {c : Fin 4} (hN : SourcesIn s N)
    (hc : s.ccu.channels[c].mode = .tally → s.ccu.channels[c].source ∈ N) (hsub : N ⊆ M)
    (hadded : ∀ d ∈ M \ N, d = c ∨ CountsFrom s (M \ N) d) : SourcesIn s M := by
  intro d hd htally
  by_cases hdN : d ∈ N
  · exact hsub (hN d hdN htally)
  · obtain rfl | ⟨-, -, hsource, -⟩ := hadded d (Finset.mem_sdiff.2 ⟨hd, hdN⟩)
    · exact hsub (hc htally)
    · exact (Finset.mem_sdiff.1 hsource).1

/-- One tally of the chain: a running one counts, and an expiry is handed on. -/
def tallyStep (k : Nat) (d : Fin 4) (u : State) : State :=
  if u.ccu.channels[d].state = .running then
    if (onChannel d Channel.step u).ccu.channels[d].atEnd then expireChain k d (onChannel d Channel.step u)
    else onChannel d Channel.step u
  else u

theorem talliesOf_step (c : Fin 4) (u : State) :
    talliesOf (onChannel c Channel.step u).ccu.channels c = talliesOf u.ccu.channels c := by
  have hsource (x : Channel) : x.step.source = x.source := by unfold Channel.step; split <;> rfl
  unfold talliesOf
  refine List.filter_congr fun d _ => ?_
  rw [show (onChannel c Channel.step u).ccu.channels[d] = _ from upd_get _ _ _ _]
  split
  · next hd => rw [hd, step_mode, hsource]
  · rfl

theorem expireChain_zero (c : Fin 4) (u : State) : expireChain 0 c (onChannel c Channel.step u) = countAndExpire c u := rfl

theorem expireChain_succ (k : Nat) (c : Fin 4) (u : State) : expireChain (k + 1) c (onChannel c Channel.step u) =
    inOrder (talliesOf (onChannel c Channel.step u).ccu.channels c) (tallyStep k) (countAndExpire c u) := rfl

theorem onChannel_step_atEnd {N : Finset (Fin 4)} {d : Fin 4} (h : Counted s u N) (hd : d ∉ N) :
    (onChannel d Channel.step u).ccu.channels[d].atEnd = s.ccu.channels[d].reachesEnd := by
  refine (congrArg Channel.atEnd (upd_same u.ccu.channels d Channel.step)).trans ?_
  rw [h.channel d, if_neg hd]
  rfl

/-- The tallies of `c` in turn, where an expiry of each of them is handed on in full. -/
theorem tallies_expand {k : Nat} {c : Fin 4} {N : Finset (Fin 4)} (hcN : c ∉ N)
    (hend : s.ccu.channels[c].reachesEnd = true)
    (ih : ∀ (d : Fin 4) (M : Finset (Fin 4)) (u : State), Counted s u M → d ∉ M → s.ccu.channels[d].reachesEnd = true →
      SourcesIn s M → (s.ccu.channels[d].mode = .tally → s.ccu.channels[d].source ∈ M) → Mᶜ.card ≤ k + 1 →
      ∃ M', Counted s (expireChain k d (onChannel d Channel.step u)) M' ∧ Expands s M M' d)
    (l : List (Fin 4)) (hl : l.Nodup) (htallies : ∀ d ∈ l, s.ccu.channels[d].mode = .tally ∧ s.ccu.channels[d].source = c)
    (M : Finset (Fin 4)) (u : State) (hu : Counted s u M) (hsources : SourcesIn s M) (hcard : Mᶜ.card ≤ k + 1)
    (hsub : N ⊆ M) (hroot : c ∈ M) (hadded : ∀ d ∈ M \ N, d = c ∨ CountsFrom s (M \ N) d)
    (hclosed : ∀ d, CountsFrom s (M \ N) d → d ∈ M ∨ d ∈ l) (hnew : ∀ d ∈ l, d ∉ M) :
    ∃ M', Counted s (inOrder l (tallyStep k) u) M' ∧ Expands s N M' c := by
  induction l generalizing M u with
  | nil => exact ⟨M, hu, hsub, hroot, hadded, fun d hd => (hclosed d hd).resolve_right (by simp)⟩
  | cons d l ihl =>
    obtain ⟨hdl, hl⟩ := List.nodup_cons.1 hl
    obtain ⟨htally, hsource⟩ := htallies d List.mem_cons_self
    have hdM : d ∉ M := hnew d List.mem_cons_self
    have hcMN : c ∈ M \ N := Finset.mem_sdiff.2 ⟨hroot, hcN⟩
    have hstate : u.ccu.channels[d].state = s.ccu.channels[d].state := by rw [hu.channel d, if_neg hdM]
    have hin : inOrder (d :: l) (tallyStep k) u = inOrder l (tallyStep k) (tallyStep k d u) := rfl
    rw [hin]
    by_cases hrunning : s.ccu.channels[d].state = .running
    · have hcounts : CountsFrom s (M \ N) d := ⟨htally, hrunning, hsource ▸ hcMN, hsource ▸ hend⟩
      obtain ⟨M', hM', hexp⟩ : ∃ M', Counted s (tallyStep k d u) M' ∧ Expands s M M' d := by
        rw [tallyStep, if_pos (hstate.trans hrunning), onChannel_step_atEnd hu hdM]
        cases hreaches : s.ccu.channels[d].reachesEnd with
        | true => exact ih d M u hu hdM hreaches hsources (fun _ => hsource ▸ hroot) hcard
        | false => exact ⟨_, hu.step hdM hreaches, expands_insert hreaches⟩
      have hgrow : M \ N ⊆ M' \ N := Finset.sdiff_subset_sdiff hexp.subset (Finset.Subset.refl N)
      have hfresh : M' \ M ⊆ M' \ N := Finset.sdiff_subset_sdiff (Finset.Subset.refl M') hsub
      refine ihl hl (fun e he => htallies e (List.mem_cons_of_mem _ he)) M' (tallyStep k d u) hM'
        (hsources.expand (fun _ => hsource ▸ hroot) hexp.subset hexp.added)
        ((Finset.card_le_card (Finset.compl_subset_compl.2 hexp.subset)).trans hcard) (hsub.trans hexp.subset)
        (hexp.subset hroot) (fun e he => ?_) (fun e he => ?_) fun e he hin => ?_
      · obtain ⟨heM', heN⟩ := Finset.mem_sdiff.1 he
        by_cases heM : e ∈ M
        · exact (hadded e (Finset.mem_sdiff.2 ⟨heM, heN⟩)).imp_right fun h => h.mono hgrow
        · obtain rfl | h := hexp.added e (Finset.mem_sdiff.2 ⟨heM', heM⟩)
          · exact .inr (hcounts.mono hgrow)
          · exact .inr (h.mono hfresh)
      · obtain ⟨hmode, hrun, hfrom, hreaches⟩ := he
        obtain ⟨hfromM', hfromN⟩ := Finset.mem_sdiff.1 hfrom
        by_cases hfromM : s.ccu.channels[e].source ∈ M
        · obtain h | h := hclosed e ⟨hmode, hrun, Finset.mem_sdiff.2 ⟨hfromM, hfromN⟩, hreaches⟩
          · exact .inl (hexp.subset h)
          · obtain rfl | h := List.mem_cons.1 h
            · exact .inl hexp.root
            · exact .inr h
        · exact .inl (hexp.closed e ⟨hmode, hrun, Finset.mem_sdiff.2 ⟨hfromM', hfromM⟩, hreaches⟩)
      · obtain rfl | ⟨-, -, hfrom, -⟩ := hexp.added e (Finset.mem_sdiff.2 ⟨hin, hnew e (List.mem_cons_of_mem _ he)⟩)
        · exact hdl he
        · rw [(htallies e (List.mem_cons_of_mem _ he)).2] at hfrom
          exact (Finset.mem_sdiff.1 hfrom).2 hroot
    · have hstay : tallyStep k d u = u := if_neg (by rw [hstate]; exact hrunning)
      rw [hstay]
      refine ihl hl (fun e he => htallies e (List.mem_cons_of_mem _ he)) M u hu hsources hcard hsub hroot hadded
        (fun e he => ?_) fun e he => hnew e (List.mem_cons_of_mem _ he)
      refine (hclosed e he).imp_right fun hmem => (List.mem_cons.1 hmem).resolve_left ?_
      rintro rfl
      exact hrunning he.2.1

/-- An expiry is handed on to every tally below it: with four channels three levels of tallies are enough. -/
theorem expireChain_expands (k : Nat) : ∀ (c : Fin 4) (N : Finset (Fin 4)) (u : State), Counted s u N → c ∉ N →
    s.ccu.channels[c].reachesEnd = true → SourcesIn s N →
    (s.ccu.channels[c].mode = .tally → s.ccu.channels[c].source ∈ N) → Nᶜ.card ≤ k + 1 →
    ∃ M, Counted s (expireChain k c (onChannel c Channel.step u)) M ∧ Expands s N M c := by
  induction k with
  | zero =>
    intro c N u hu hc hend _ _ hcard
    have hcompl : (insert c N)ᶜ.card = 0 := by
      rw [Finset.compl_insert, Finset.card_erase_of_mem (Finset.mem_compl.2 hc)]
      omega
    have hall : ∀ d, d ∈ insert c N := fun d => by
      by_contra hd
      rw [← Finset.mem_compl, Finset.card_eq_zero.1 hcompl] at hd
      exact Finset.notMem_empty d hd
    refine ⟨insert c N, ?_, Finset.subset_insert c N, Finset.mem_insert_self c N, fun d hd => ?_, fun d _ => hall d⟩
    · rw [expireChain_zero]
      exact hu.expire hc hend
    · obtain ⟨hin, hnot⟩ := Finset.mem_sdiff.1 hd
      exact .inl ((Finset.mem_insert.1 hin).resolve_right hnot)
  | succ k ih =>
    intro c N u hu hc hend hsources hfrom hcard
    have hroot := Finset.mem_insert_self c N
    have honly : ∀ d ∈ insert c N \ N, d = c := fun d hd =>
      (Finset.mem_insert.1 (Finset.mem_sdiff.1 hd).1).resolve_right (Finset.mem_sdiff.1 hd).2
    have hlist : talliesOf (onChannel c Channel.step u).ccu.channels c = talliesOf s.ccu.channels c :=
      (talliesOf_step c u).trans (hu.talliesOf c)
    rw [expireChain_succ, hlist]
    refine tallies_expand hc hend ih (talliesOf s.ccu.channels c) ((List.nodup_finRange 4).filter _)
      (fun d hd => mem_talliesOf.1 hd) (insert c N) _ (hu.expire hc hend)
      (hsources.expand hfrom (Finset.subset_insert c N) fun d hd => .inl (honly d hd)) ?_ (Finset.subset_insert c N) hroot
      (fun d hd => .inl (honly d hd)) (fun d hd => .inr ?_) fun d hd hin => ?_
    · rw [Finset.compl_insert, Finset.card_erase_of_mem (Finset.mem_compl.2 hc)]
      omega
    · exact mem_talliesOf.2 ⟨hd.1, honly _ hd.2.2.1⟩
    · obtain ⟨htally, hsource⟩ := mem_talliesOf.1 hd
      obtain rfl | hin := Finset.mem_insert.1 hin
      · rw [hsource] at hfrom
        exact hc (hfrom htally)
      · exact hc (hsource ▸ hsources d hin htally)

/-! ## The counts of a boundary -/

/-- What the counts of a boundary have reached once the channels in `P` have had their turn. -/
structure Turns (s : State) (P : List (Fin 4)) (M : Finset (Fin 4)) : Prop where
  running : ∀ d ∈ M, s.ccu.channels[d].state = .running
  tally : ∀ d ∈ M, s.ccu.channels[d].mode = .tally → CountsFrom s M d
  turn : ∀ d ∈ M, s.ccu.channels[d].mode ≠ .tally → d ∈ P
  closed : ∀ d, CountsFrom s M d → d ∈ M
  done : ∀ d ∈ P, s.ccu.channels[d].state = .running → s.ccu.channels[d].mode ≠ .tally →
    (s.ccu.channels[d].mode = .countDown → s.ccu.channels[d].count ≠ 0) → d ∈ M

theorem turns_nil (s : State) : Turns s [] ∅ where
  running d hd := absurd hd (Finset.notMem_empty d)
  tally d hd := absurd hd (Finset.notMem_empty d)
  turn d hd := absurd hd (Finset.notMem_empty d)
  closed _ hd := absurd hd.2.2.1 (Finset.notMem_empty _)
  done d hd := absurd hd (by simp)

variable {P : List (Fin 4)} {M M' : Finset (Fin 4)} {c : Fin 4}

theorem Turns.sourcesIn (h : Turns s P M) : SourcesIn s M := fun d hd htally => (h.tally d hd htally).2.2.1

/-- A channel whose turn makes no count. -/
theorem Turns.skip (h : Turns s P M) (hc : s.ccu.channels[c].state = .running → s.ccu.channels[c].mode ≠ .tally →
    s.ccu.channels[c].mode = .countDown ∧ s.ccu.channels[c].count = 0) : Turns s (c :: P) M where
  running := h.running
  tally := h.tally
  turn d hd hmode := List.mem_cons_of_mem c (h.turn d hd hmode)
  closed := h.closed
  done d hd hrun hmode hcount := by
    obtain rfl | hd := List.mem_cons.1 hd
    · exact absurd (hc hrun hmode).2 (hcount (hc hrun hmode).1)
    · exact h.done d hd hrun hmode hcount

/-- A channel whose turn counts it and the tallies below it. -/
theorem Turns.count (h : Turns s P M) (hrunning : s.ccu.channels[c].state = .running)
    (hmode : s.ccu.channels[c].mode ≠ .tally) (hexp : Expands s M M' c) : Turns s (c :: P) M' := by
  have hnew (d : Fin 4) (hd : d ∈ M') : d ∈ M ∨ d = c ∨ CountsFrom s (M' \ M) d := by
    by_cases hdM : d ∈ M
    · exact .inl hdM
    · exact .inr (hexp.added d (Finset.mem_sdiff.2 ⟨hd, hdM⟩))
  refine ⟨fun d hd => ?_, fun d hd htally => ?_, fun d hd hnot => ?_, fun d hd => ?_, fun d hd hrun hnot hcount => ?_⟩
  · obtain hdM | rfl | hfrom := hnew d hd
    · exact h.running d hdM
    · exact hrunning
    · exact hfrom.2.1
  · obtain hdM | rfl | hfrom := hnew d hd
    · exact (h.tally d hdM htally).mono hexp.subset
    · exact absurd htally hmode
    · exact hfrom.mono Finset.sdiff_subset
  · obtain hdM | rfl | hfrom := hnew d hd
    · exact List.mem_cons_of_mem c (h.turn d hdM hnot)
    · exact List.mem_cons_self
    · exact absurd hfrom.1 hnot
  · obtain ⟨htally, hrun, hsource, hend⟩ := hd
    by_cases hM : s.ccu.channels[d].source ∈ M
    · exact hexp.subset (h.closed d ⟨htally, hrun, hM, hend⟩)
    · exact hexp.closed d ⟨htally, hrun, Finset.mem_sdiff.2 ⟨hsource, hM⟩, hend⟩
  · obtain rfl | hd := List.mem_cons.1 hd
    · exact hexp.root
    · exact hexp.subset (h.done d hd hrun hnot hcount)

theorem compl_card_le (M : Finset (Fin 4)) : Mᶜ.card ≤ 3 + 1 := (Finset.card_le_univ _).trans (by decide)

/-- The chain of an expiry at a boundary reaches all its tallies. -/
theorem Turns.chain (h : Turns s P M) (hu : Counted s u M) (hc : c ∉ M) (hmode : s.ccu.channels[c].mode ≠ .tally)
    (hend : s.ccu.channels[c].reachesEnd = true) :
    ∃ M', Counted s (expireChain 3 c (onChannel c Channel.step u)) M' ∧ Expands s M M' c :=
  expireChain_expands 3 c M u hu hc hend h.sourcesIn (fun htally => absurd htally hmode) (compl_card_le M)

theorem Turns.countChannel (h : Turns s P M) (hu : Counted s u M) (hcP : c ∉ P) :
    ∃ M', Counted s (countChannel c u) M' ∧ Turns s (c :: P) M' := by
  by_cases hmode : s.ccu.channels[c].mode = .tally
  · have hstay : Machine.countChannel c u = u := by
      refine if_neg fun hcond => hcond.2 ?_
      rw [hu.channel c]
      split
      · exact (afterCount_kept _).1.trans hmode
      · exact hmode
    exact ⟨M, by rwa [hstay], h.skip fun _ hnot => absurd hmode hnot⟩
  have hc : c ∉ M := fun hc => hcP (h.turn c hc hmode)
  have hchan : u.ccu.channels[c] = s.ccu.channels[c] := (hu.channel c).trans (if_neg hc)
  by_cases hrunning : s.ccu.channels[c].state = .running
  · unfold Machine.countChannel
    dsimp only
    rw [hchan, if_pos ⟨hrunning, hmode⟩]
    by_cases hzero : s.ccu.channels[c].mode = .countDown ∧ s.ccu.channels[c].count = 0
    · rw [if_pos hzero]
      have hstep : onChannel c Channel.step u.nextFree = u.nextFree := by
        have hfixed : u.ccu.channels[c].step = u.ccu.channels[c] := step_of_zero (by rwa [hchan])
        rw [onChannel, State.onCcu, show u.nextFree.ccu.channels = u.ccu.channels from rfl, upd_of_fixed hfixed]
        rfl
      split
      · obtain ⟨M', hM', hexp⟩ := h.chain hu.nextFree hc hmode (reachesEnd_of_zero hzero)
        rw [hstep] at hM'
        exact ⟨M', hM', h.count hrunning hmode hexp⟩
      · exact ⟨M, hu.nextFree, h.skip fun _ _ => hzero⟩
    · rw [if_neg hzero, onChannel_step_atEnd hu hc]
      cases hend : s.ccu.channels[c].reachesEnd with
      | true =>
        obtain ⟨M', hM', hexp⟩ := h.chain hu hc hmode hend
        exact ⟨M', hM', h.count hrunning hmode hexp⟩
      | false => exact ⟨_, hu.step hc hend, h.count hrunning hmode (expands_insert hend)⟩
  · refine ⟨M, ?_, h.skip fun hrun => absurd hrun hrunning⟩
    rwa [Machine.countChannel, hchan, if_neg fun hcond => hrunning hcond.1]

theorem Turns.countChannels (h : Turns s P M) (hu : Counted s u M) (l : List (Fin 4)) (hl : (P.reverse ++ l).Nodup) :
    ∃ M', Counted s (inOrder l Machine.countChannel u) M' ∧ Turns s (l.reverse ++ P) M' := by
  induction l generalizing P M u with
  | nil => exact ⟨M, hu, h⟩
  | cons c l ih =>
    have hcP : c ∉ P := fun hc => (List.disjoint_of_nodup_append hl) (List.mem_reverse.2 hc) List.mem_cons_self
    obtain ⟨M', hM', hT⟩ := h.countChannel hu hcP
    obtain ⟨M'', hM'', hT'⟩ := ih hT hM' (by simpa using hl)
    exact ⟨M'', hM'', by simpa using hT'⟩

end Sys2Proof.Machine
end

section
/-! SUPPORT. The sample of the console lines at a millisecond boundary, the request sets of the channels and what a whole
boundary leaves (R160 to R167). -/

namespace Sys2Proof.Machine

variable {s t u v w : State}

/-! ## One sample of a console line -/

theorem sample_of_qualified {l : ConsoleLine} {level : Bool} (h : level = l.qualified) :
    l.sample level = { l with qualifying := none } := if_pos h

theorem sample_of_candidate {l : ConsoleLine} {level : Bool} (h : level ≠ l.qualified) :
    l.sample level = { l with qualifying := some (level, l.heldFor level) } := by
  rw [ConsoleLine.sample, if_neg h, ConsoleLine.heldFor]
  cases l.qualifying with
  | none => rfl
  | some p => rfl

theorem sampleLine_eq (n : Fin 8) (v : State) : sampleLine n v =
    qualifyLine n (onLine n (fun l => l.sample (sampledLevel v.ccu.levels v n)) v) := by
  unfold sampleLine
  refine congrArg (qualifyLine n) ?_
  exact congrArg (fun ls => v.onCcu fun a => { a with lines := ls })
    (upd_congr (v := v.ccu.lines) (i := n) rfl)

theorem sampleLine_unpressed {n : Fin 8} (h : ¬Pressed v.ccu.levels v n) : sampleLine n v =
    onLine n (fun l => l.afterSample (sampledLevel v.ccu.levels v n)) v := by
  have hline (f : ConsoleLine → ConsoleLine) : (onLine n f v).ccu.lines[n] = f v.ccu.lines[n] := upd_same _ _ _
  have hsame {f g : ConsoleLine → ConsoleLine} (hfg : f v.ccu.lines[n] = g v.ccu.lines[n]) : onLine n f v = onLine n g v :=
    congrArg (fun ls => v.onCcu fun a => { a with lines := ls }) (upd_congr hfg)
  rw [sampleLine_eq]
  generalize hlevel : sampledLevel v.ccu.levels v n = level
  by_cases hqual : level = v.ccu.lines[n].qualified
  · rw [qualifyLine_of_held_short fun l held hq => by rw [hline, sample_of_qualified hqual] at hq; cases hq]
    exact hsame (by rw [sample_of_qualified hqual, ConsoleLine.afterSample, if_pos hqual])
  have hsampled := sample_of_candidate hqual
  by_cases hshort : v.ccu.lines[n].heldFor level < v.ccu.lines[n].qualify
  · rw [qualifyLine_of_held_short fun l held hq => by
      rw [hline, hsampled] at hq ⊢
      cases hq
      exact hshort]
    exact hsame (by rw [hsampled, ConsoleLine.afterSample, if_neg hqual, if_pos hshort])
  have hinactive : level = false := by
    by_contra hactive
    have htrue : level = true := Bool.not_eq_false _ ▸ hactive
    subst htrue
    exact h ⟨hlevel, Bool.eq_false_of_not_eq_true fun hq => hqual hq.symm, Nat.le_of_not_lt hshort⟩
  subst hinactive
  rw [qualifyLine_inactive (held := v.ccu.lines[n].heldFor false) (by rw [hline, hsampled])
    (by rw [hline, hsampled]; exact Nat.le_of_not_lt hshort), onLine_onLine]
  exact hsame (by rw [hsampled, ConsoleLine.afterSample, if_neg hqual, if_neg hshort]; rfl)

/-- The CCU after a sample that makes a press. -/
def pressedSample (n : Fin 8) (u : Ccu) : Ccu :=
  { u with channels := upd u.channels u.lines[n].channel (Channel.gather u.lines[n].action),
           lines := upd u.lines n fun l => l.afterSample true }

theorem sampleLine_pressed {n : Fin 8} (h : Pressed v.ccu.levels v n) : sampleLine n v =
    if v.ccu.lines[n].action = .none then v.onCcu (pressedSample n)
    else sourceEvent (.consoleLine n) (v.onCcu (pressedSample n)) := by
  obtain ⟨hlevel, hinactive, hheld⟩ := h
  have hqual : true ≠ v.ccu.lines[n].qualified := by rw [hinactive]; decide
  have hline (f : ConsoleLine → ConsoleLine) : (onLine n f v).ccu.lines[n] = f v.ccu.lines[n] := upd_same _ _ _
  have hsampled := sample_of_candidate hqual
  have hccu : (onLine n (fun l => l.sample true) v).onCcu (activeCcu n) = v.onCcu (pressedSample n) := by
    have hget : (upd v.ccu.lines n fun l => l.sample true)[n] = v.ccu.lines[n].sample true := upd_same _ _ _
    simp only [onLine, State.onCcu, activeCcu, pressedSample, hget, upd_upd]
    rw [upd_congr (v := v.ccu.lines) (i := n) (g := fun l => l.afterSample true), hsampled]
    rw [hsampled, ConsoleLine.afterSample, if_neg hqual, if_neg (Nat.not_lt.2 hheld), Bool.true_and]
  rw [sampleLine_eq, hlevel, qualifyLine_active (held := v.ccu.lines[n].heldFor true) (by rw [hline, hsampled])
    (by rw [hline, hsampled]; exact hheld), hccu, hline, hsampled]

/-! ## The samples of a boundary -/

/-- A press of a line that acts: one with an action. -/
def Acts (s : State) (n : Fin 8) : Prop := Pressed s.ccu.levels s n ∧ s.ccu.lines[n].action ≠ .none

/-- The channel is asked for an action by a press of a line in `P`. -/
def AskedBy (s : State) (P : List (Fin 8)) (c : Fin 4) (a : LineAction) : Prop :=
  ∃ n ∈ P, Pressed s.ccu.levels s n ∧ s.ccu.lines[n].channel = c ∧ s.ccu.lines[n].action = a

/-- The channel without its request set. -/
def Channel.unasked (x : Channel) : Channel := { x with reqStart := false, reqStop := false, reqReset := false }

open Classical in
/-- The entry of the ETU after the presses of the lines in `P`. -/
noncomputable def entryAfterPresses (s : State) (P : List (Fin 8)) (x : TriggerEntry) : TriggerEntry :=
  match x.source with
  | some (.consoleLine n) => if n ∈ P ∧ Acts s n then entryAfter (s.smp.dev == .running) (.consoleLine n) x else x
  | _ => x

/-- The lines in `P` have been sampled, and no others. -/
structure Sampled (s u : State) (P : List (Fin 8)) : Prop where
  line : ∀ n : Fin 8, u.ccu.lines[n] =
    if n ∈ P then s.ccu.lines[n].afterSample (sampledLevel s.ccu.levels s n) else s.ccu.lines[n]
  channel : ∀ c : Fin 4, u.ccu.channels[c].unasked = s.ccu.channels[c].unasked
  start : ∀ c : Fin 4, u.ccu.channels[c].reqStart = true ↔ s.ccu.channels[c].reqStart = true ∨ AskedBy s P c .start ∨
    (AskedBy s P c .toggle ∧ s.ccu.channels[c].state ≠ .running)
  stop : ∀ c : Fin 4, u.ccu.channels[c].reqStop = true ↔ s.ccu.channels[c].reqStop = true ∨ AskedBy s P c .stop ∨
    (AskedBy s P c .toggle ∧ s.ccu.channels[c].state = .running)
  reset : ∀ c : Fin 4, u.ccu.channels[c].reqReset = true ↔ s.ccu.channels[c].reqReset = true ∨ AskedBy s P c .reset
  horn : u.ccu.horn = s.ccu.horn
  levels : u.ccu.levels = s.ccu.levels
  due : u.ccu.frameDue = s.ccu.frameDue
  smp : u.smp = s.smp
  handling : u.etu.handling = s.etu.handling
  entry : s.etu.handling = false → ∀ e : Fin 8, u.etu.entries[e] = entryAfterPresses s P s.etu.entries[e]
  outside : ∀ a, ¬AnchorByte s 0x180 0x280 a → u.mem.get a = s.mem.get a

variable {P : List (Fin 8)} {n : Fin 8}

theorem askedBy_nil (s : State) (c : Fin 4) (a : LineAction) : ¬AskedBy s [] c a := by
  rintro ⟨n, hn, -⟩
  cases hn

theorem askedBy_cons {c : Fin 4} {a : LineAction} : AskedBy s (n :: P) c a ↔
    (Pressed s.ccu.levels s n ∧ s.ccu.lines[n].channel = c ∧ s.ccu.lines[n].action = a) ∨ AskedBy s P c a := by
  simp only [AskedBy, List.mem_cons, exists_eq_or_imp]

theorem entryAfterPresses_nil (s : State) (x : TriggerEntry) : entryAfterPresses s [] x = x := by
  unfold entryAfterPresses
  split
  · exact if_neg fun h => absurd h.1 (by simp)
  · rfl

theorem entryAfterPresses_quiet (h : ¬Acts s n) (x : TriggerEntry) :
    entryAfterPresses s (n :: P) x = entryAfterPresses s P x := by
  classical
  unfold entryAfterPresses
  split
  · next m _ =>
    refine if_congr (and_congr_left fun hm => ?_) rfl rfl
    exact List.mem_cons.trans (or_iff_right fun heq => h (heq ▸ hm))
  · rfl

theorem entryAfterPresses_source (s : State) (P : List (Fin 8)) (x : TriggerEntry) :
    (entryAfterPresses s P x).source = x.source := by
  unfold entryAfterPresses
  split
  · split
    · exact entryAfter_source _ _ _
    · rfl
  · rfl

theorem entryAfterPresses_cons (hnew : n ∉ P) (h : Acts s n) (x : TriggerEntry) :
    entryAfterPresses s (n :: P) x = entryAfter (s.smp.dev == .running) (.consoleLine n) (entryAfterPresses s P x) := by
  classical
  by_cases hx : x.source = some (.consoleLine n)
  · simp only [entryAfterPresses, hx]
    rw [if_pos ⟨List.mem_cons_self, h⟩, if_neg fun hin => hnew hin.1]
  · rw [entryAfter_of_other (by rw [entryAfterPresses_source]; exact hx)]
    unfold entryAfterPresses
    split
    · next m hm =>
      have hne : m ≠ n := fun heq => hx (heq ▸ hm)
      simp only [List.mem_cons, hne, false_or]
    · rfl

theorem sampled_nil (s : State) : Sampled s s [] where
  line n := (if_neg (by simp)).symm
  channel _ := rfl
  start c := by simp only [askedBy_nil, false_and, or_false]
  stop c := by simp only [askedBy_nil, false_and, or_false]
  reset c := by simp only [askedBy_nil, or_false]
  horn := rfl
  levels := rfl
  due := rfl
  smp := rfl
  handling := rfl
  entry _ e := (entryAfterPresses_nil s _).symm
  outside _ _ := rfl

theorem Sampled.pressed_iff (h : Sampled s u P) (hnew : n ∉ P) :
    Pressed u.ccu.levels u n ↔ Pressed s.ccu.levels s n := by
  simp only [Pressed, sampledLevel, h.line n, if_neg hnew, h.levels]

/-- The lines after one more sample. -/
theorem Sampled.line_cons (h : Sampled s u P) (hnew : n ∉ P) (m : Fin 8) :
    (upd u.ccu.lines n fun l => l.afterSample (sampledLevel s.ccu.levels s n))[m] =
      if m ∈ n :: P then s.ccu.lines[m].afterSample (sampledLevel s.ccu.levels s m) else s.ccu.lines[m] := by
  rw [upd_get]
  by_cases hm : m = n
  · subst hm
    rw [if_pos rfl, if_pos List.mem_cons_self, h.line m, if_neg hnew]
  · rw [if_neg hm, h.line m]
    simp only [List.mem_cons, hm, false_or]

theorem Sampled.unpressed (h : Sampled s u P) (hnew : n ∉ P) (hpress : ¬Pressed s.ccu.levels s n) :
    Sampled s (sampleLine n u) (n :: P) := by
  have hasked (c : Fin 4) (a : LineAction) : AskedBy s (n :: P) c a ↔ AskedBy s P c a :=
    askedBy_cons.trans (or_iff_right fun hn => hpress hn.1)
  have hlevel : sampledLevel u.ccu.levels u n = sampledLevel s.ccu.levels s n := by
    simp only [sampledLevel, h.line n, if_neg hnew, h.levels]
  rw [sampleLine_unpressed (mt (h.pressed_iff hnew).1 hpress), hlevel]
  exact {
    line := h.line_cons hnew
    channel := h.channel
    start := fun c => by simp only [hasked]; exact h.start c
    stop := fun c => by simp only [hasked]; exact h.stop c
    reset := fun c => by simp only [hasked]; exact h.reset c
    horn := h.horn
    levels := h.levels
    due := h.due
    smp := h.smp
    handling := h.handling
    entry := fun hnot e => (h.entry hnot e).trans (entryAfterPresses_quiet (fun ha => hpress ha.1) _).symm
    outside := h.outside }

/-! ## What a press gathers -/

theorem gather_start_iff (a : LineAction) (x : Channel) : (Channel.gather a x).reqStart = true ↔
    x.reqStart = true ∨ a = .start ∨ (a = .toggle ∧ x.state ≠ .running) := by
  simp [Channel.gather, or_assoc]

theorem gather_stop_iff (a : LineAction) (x : Channel) : (Channel.gather a x).reqStop = true ↔
    x.reqStop = true ∨ a = .stop ∨ (a = .toggle ∧ x.state = .running) := by
  simp [Channel.gather, or_assoc]

theorem gather_reset_iff (a : LineAction) (x : Channel) : (Channel.gather a x).reqReset = true ↔
    x.reqReset = true ∨ a = .reset := by
  simp [Channel.gather]

/-- The state of a channel is that of the boundary's counts: a press moves no channel. -/
theorem Sampled.state (h : Sampled s u P) (c : Fin 4) : u.ccu.channels[c].state = s.ccu.channels[c].state :=
  show u.ccu.channels[c].unasked.state = s.ccu.channels[c].unasked.state by rw [h.channel c]

/-- The CCU alone, after one more sample that makes a press. -/
theorem Sampled.pressedSample (h : Sampled s u P) (hnew : n ∉ P) (hpress : Pressed s.ccu.levels s n)
    {v : State} (hccu : v.ccu = Machine.pressedSample n u.ccu) (hsmp : v.smp = u.smp)
    (hhandling : v.etu.handling = u.etu.handling)
    (hentry : s.etu.handling = false → ∀ e : Fin 8, v.etu.entries[e] = entryAfterPresses s (n :: P) s.etu.entries[e])
    (houtside : ∀ a, ¬AnchorByte s 0x180 0x280 a → v.mem.get a = u.mem.get a) : Sampled s v (n :: P) := by
  have hold : u.ccu.lines[n] = s.ccu.lines[n] := (h.line n).trans (if_neg hnew)
  have hchan (c : Fin 4) : v.ccu.channels[c] = if c = s.ccu.lines[n].channel
      then Channel.gather s.ccu.lines[n].action u.ccu.channels[c] else u.ccu.channels[c] := by
    rw [hccu, ← hold]
    refine (upd_get _ _ _ _).trans ?_
    split
    · next hc => rw [hc]
    · rfl
  refine ⟨fun m => ?_, fun c => ?_, fun c => ?_, fun c => ?_, fun c => ?_, ?_, ?_, ?_, hsmp.trans h.smp,
    hhandling.trans h.handling, hentry, fun a ha => (houtside a ha).trans (h.outside a ha)⟩
  · rw [hccu, ← h.line_cons hnew m, hpress.1]
    rfl
  · rw [hchan c]
    split
    · exact h.channel c
    · exact h.channel c
  · rw [hchan c, askedBy_cons, askedBy_cons]
    split
    · next hc =>
      rw [gather_start_iff, h.start c, h.state c]
      simp only [hpress, ← hc, true_and, or_and_right]
      tauto
    · next hc =>
      rw [h.start c]
      simp only [Ne.symm hc, false_and, and_false, false_or]
  · rw [hchan c, askedBy_cons, askedBy_cons]
    split
    · next hc =>
      rw [gather_stop_iff, h.stop c, h.state c]
      simp only [hpress, ← hc, true_and, or_and_right]
      tauto
    · next hc =>
      rw [h.stop c]
      simp only [Ne.symm hc, false_and, and_false, false_or]
  · rw [hchan c, askedBy_cons]
    split
    · next hc =>
      rw [gather_reset_iff, h.reset c]
      simp only [hpress, ← hc, true_and]
      tauto
    · next hc =>
      rw [h.reset c]
      simp only [Ne.symm hc, false_and, and_false, false_or]
  · rw [hccu]
    exact h.horn
  · rw [hccu]
    exact h.levels
  · rw [hccu]
    exact h.due

theorem Sampled.pressed (h : Sampled s u P) (hnew : n ∉ P) (hpress : Pressed s.ccu.levels s n) :
    Sampled s (sampleLine n u) (n :: P) := by
  have hold : u.ccu.lines[n] = s.ccu.lines[n] := (h.line n).trans (if_neg hnew)
  rw [sampleLine_pressed ((h.pressed_iff hnew).2 hpress), hold]
  split
  · next hnone =>
    exact h.pressedSample hnew hpress rfl rfl rfl
      (fun hnot e => (h.entry hnot e).trans (entryAfterPresses_quiet (fun ha => ha.2 hnone) _).symm) fun _ _ => rfl
  · next hacts =>
    generalize hw : u.onCcu (Machine.pressedSample n) = w
    have hsmp : w.smp = u.smp := by rw [← hw]; rfl
    have hetu : w.etu = u.etu := by rw [← hw]; rfl
    have hmem : w.mem = u.mem := by rw [← hw]; rfl
    have hframe := sourceEvent_then (.consoleLine n) (ChangesOnly.refl [.etu, .mem] w) rfl
    refine h.pressedSample hnew hpress ?_ ((hframe.smp_eq rfl).trans hsmp)
      ((etuKept_stable.source (.consoleLine n) w).handling.trans (congrArg Etu.handling hetu)) (fun hnot e => ?_)
      fun a ha => ?_
    · rw [show (sourceEvent (.consoleLine n) w).ccu = w.ccu from hframe .ccu rfl, ← hw]
      rfl
    · have hnot' : w.etu.handling = false := (congrArg Etu.handling hetu).trans (h.handling.trans hnot)
      have hdev : w.smp.dev = s.smp.dev := by rw [hsmp, h.smp]
      rw [sourceEvent_entries _ hnot', hetu, h.entry hnot e, hdev, entryAfterPresses_cons hnew ⟨hpress, hacts⟩]
    · have hanchor : w.smp.anchor = s.smp.anchor := by rw [hsmp, h.smp]
      rw [sourceEvent_get_outside _ (by rwa [AnchorByte, hanchor]), hmem]

theorem Sampled.all (h : Sampled s u P) (l : List (Fin 8)) (hl : (P.reverse ++ l).Nodup) :
    Sampled s (inOrder l sampleLine u) (l.reverse ++ P) := by
  induction l generalizing P u with
  | nil => exact h
  | cons n l ih =>
    have hnew : n ∉ P := fun hn => (List.disjoint_of_nodup_append hl) (List.mem_reverse.2 hn) List.mem_cons_self
    have hnext : Sampled s (sampleLine n u) (n :: P) := by
      by_cases hpress : Pressed s.ccu.levels s n
      · exact h.pressed hnew hpress
      · exact h.unpressed hnew hpress
    rw [List.reverse_cons, List.append_assoc]
    exact ih hnext (by simpa using hl)

end Sys2Proof.Machine
end

section
/-! SUPPORT. O48: what a millisecond boundary does, and CHANNEL_EXPIRY as a command of its own (R155 to R167, R172). -/

namespace Sys2Proof.Machine

variable {s t u v w : State}

/-! ## The request sets -/

/-- The channel after a RESET of its request set, which the other requests read. -/
theorem applyReset_eq (x : Channel) : x.applyReset =
    if x.reqReset then
      { x with preset := x.pendingPreset.getD x.preset, pendingPreset := none,
               count := if x.mode = .countDown then x.pendingPreset.getD x.preset else 0,
               state := if x.state = .expired then ClockState.stopped else x.state }
    else x := by
  unfold Channel.applyReset Channel.load Channel.takePreset
  dsimp only
  cases x.mode <;> rfl

theorem applyReset_kept (x : Channel) : x.applyReset.mode = x.mode ∧ x.applyReset.limit = x.limit ∧
    x.applyReset.reqStop = x.reqStop ∧ x.applyReset.reqStart = x.reqStart := by
  rw [applyReset_eq]
  split <;> exact ⟨rfl, rfl, rfl, rfl⟩

theorem applyRequests_eq (x : Channel) : x.applyRequests = x.afterRequests := by
  obtain ⟨hmode, hlimit, hstop, hstart⟩ := applyReset_kept x
  unfold Channel.applyRequests Channel.afterRequests
  dsimp only
  rw [← applyReset_eq]
  generalize x.applyReset = y at *
  have hempty : (y.state == .expired || y.emptyAt y.count) = true ↔
      y.state = .expired ∨ y.count = if x.mode = .countDown then 0 else x.limit := by
    rw [Bool.or_eq_true, beq_iff_eq, emptyAt_iff, hmode, hlimit]
    by_cases hdown : x.mode = .countDown <;> simp [hdown]
  unfold Channel.applyRun
  rw [hstop, hstart]
  by_cases h : y.state = .expired ∨ y.count = if x.mode = .countDown then 0 else x.limit
  · rw [hempty.2 h]
    cases x.reqStop <;> cases x.reqStart <;> simp [h]
  · rw [Bool.eq_false_of_not_eq_true (mt hempty.1 h)]
    cases x.reqStop <;> cases x.reqStart <;> simp [h]

theorem afterRequests_unasked (x : Channel) : x.afterRequests.unasked = x.afterRequests := rfl

theorem afterRequests_expiries (x : Channel) : x.afterRequests.expiries = x.expiries := by
  unfold Channel.afterRequests
  dsimp only
  split <;> rfl

/-! ## The horn -/

/-- The longest horn length that an expiry of a channel in `M` asks for. -/
def hornOf (s : State) (M : Finset (Fin 4)) : Nat :=
  ((List.finRange 4).map fun c =>
    if (c ∈ M ∧ s.ccu.channels[c].reachesEnd = true) ∧ s.ccu.channels[c].hornEnable = true
    then s.ccu.channels[c].hornLength else 0).foldl max 0

theorem hornOfExpired_eq {M : Finset (Fin 4)}
    (h : ∀ d, Expired s t d ↔ d ∈ M ∧ s.ccu.channels[d].reachesEnd = true) : hornOfExpired s t = hornOf s M := by
  unfold hornOfExpired hornOf
  refine congrArg (fun l => List.foldl max 0 l) (List.map_congr_left fun c _ => ?_)
  exact if_congr (and_congr_left fun _ => h c) rfl rfl

theorem Counted.horn_eq {M : Finset (Fin 4)} (h : Counted s u M) : u.ccu.horn = hornOf s M := by
  refine eq_of_forall_ge_iff fun n => ?_
  rw [h.horn n, hornOf, foldl_max_le_iff]
  simp only [List.forall_mem_map, List.mem_finRange, true_implies, Nat.zero_le, true_and]
  refine forall_congr' fun d => ?_
  split
  · next hd => exact ⟨fun hall => hall hd.1.1 hd.1.2 hd.2, fun hle _ _ _ => hle⟩
  · next hd => exact ⟨fun _ => Nat.zero_le n, fun _ h1 h2 h3 => absurd ⟨⟨h1, h2⟩, h3⟩ hd⟩

theorem expiries_ne_iff (s : State) (M : Finset (Fin 4)) (d : Fin 4) :
    (if d ∈ M then s.ccu.channels[d].afterCount else s.ccu.channels[d]).expiries ≠ s.ccu.channels[d].expiries ↔
      d ∈ M ∧ s.ccu.channels[d].reachesEnd = true := by
  have hne (x : Word) : x + 1 ≠ x := by bv_omega
  split
  · next hd =>
    rw [afterCount_expiries]
    split
    · next hend => exact ⟨fun _ => ⟨hd, hend⟩, fun _ => hne _⟩
    · next hend => exact ⟨fun h => absurd rfl h, fun h => absurd h.2 hend⟩
  · next hd => exact ⟨fun h => absurd rfl h, fun h => absurd h.1 hd⟩

/-- The horn is not one of what `Ticked` speaks of. -/
theorem Ticked.horn {M : Finset (Fin 4)} (h : Ticked s u M) (n : Nat) :
    Ticked s (u.onCcu fun c => { c with horn := n }) M :=
  ⟨h.channel, h.lines, h.levels, h.due, h.smp, h.handling, h.entry, h.outside⟩

theorem withHorn_ticked {M : Finset (Fin 4)} {act : State → State} {rest : Nat → Nat}
    (h : Counted s (act (s.onCcu fun c => { c with horn := 0 })) M) :
    Ticked s (withHorn act rest s) M ∧
      (withHorn act rest s).ccu.horn = if hornOf s M = 0 then rest s.ccu.horn else hornOf s M := by
  unfold withHorn
  dsimp only
  rw [← h.horn_eq]
  split
  · next hzero => exact ⟨h.toTicked.horn _, rfl⟩
  · next hzero => exact ⟨h.toTicked, rfl⟩

/-! ## The entries of the ETU -/

theorem entryAfterExpiries_of_expiry {M : Finset (Fin 4)} {c : Fin 4} {x : TriggerEntry}
    (hx : x.source = some (.channelExpiry c)) : entryAfterExpiries s M x =
      if c ∈ M ∧ s.ccu.channels[c].reachesEnd = true then entryAfter (s.smp.dev == .running) (.channelExpiry c) x else x := by
  unfold entryAfterExpiries
  simp only [hx]

theorem entryAfterExpiries_of_other {M : Finset (Fin 4)} {x : TriggerEntry}
    (hx : ∀ c, x.source ≠ some (.channelExpiry c)) : entryAfterExpiries s M x = x := by
  unfold entryAfterExpiries
  split
  · next c hc => exact absurd hc (hx c)
  · rfl

theorem entryAfterBoundary_expiries {M : Finset (Fin 4)}
    (hexp : ∀ d, Expired s t d ↔ d ∈ M ∧ s.ccu.channels[d].reachesEnd = true) (x : TriggerEntry) :
    entryAfterBoundary s t (fun _ => False) x (entryAfterExpiries s M x) := by
  unfold entryAfterBoundary
  split
  · next c hc =>
    rw [entryAfterExpiries_of_expiry hc]
    exact ⟨fun h => if_pos ((hexp c).1 h), fun h => if_neg (mt (hexp c).2 h)⟩
  · next n hn => exact ⟨fun h => h.elim, fun _ => entryAfterExpiries_of_other fun c => by rw [hn]; simp⟩
  · next hchan _ => exact entryAfterExpiries_of_other hchan

theorem entryAfterPresses_of_consoleLine {P : List (Fin 8)} {n : Fin 8} (hn : n ∈ P) {x : TriggerEntry}
    (hx : x.source = some (.consoleLine n)) : (Acts w n → entryAfterPresses w P x =
      entryAfter (w.smp.dev == .running) (.consoleLine n) x) ∧ (¬Acts w n → entryAfterPresses w P x = x) := by
  classical
  unfold entryAfterPresses
  simp only [hx]
  exact ⟨fun h => if_pos ⟨hn, h⟩, fun h => if_neg fun hin => h hin.2⟩

theorem entryAfterPresses_of_other {P : List (Fin 8)} {x : TriggerEntry}
    (hx : ∀ n, x.source ≠ some (.consoleLine n)) : entryAfterPresses w P x = x := by
  unfold entryAfterPresses
  split
  · next n hn => exact absurd hn (hx n)
  · rfl

theorem entryAfterBoundary_presses {M : Finset (Fin 4)} {P : List (Fin 8)} {pressed : Fin 8 → Prop}
    (hexp : ∀ d, Expired s t d ↔ d ∈ M ∧ s.ccu.channels[d].reachesEnd = true) (hP : ∀ n, n ∈ P)
    (hpressed : ∀ n, Acts w n ↔ pressed n) (hdev : w.smp.dev = s.smp.dev) (x : TriggerEntry) :
    entryAfterBoundary s t pressed x (entryAfterPresses w P (entryAfterExpiries s M x)) := by
  unfold entryAfterBoundary
  have hsource := entryAfterExpiries_source s M x
  split
  · next c hc =>
    rw [entryAfterPresses_of_other fun n => by rw [hsource, hc]; simp, entryAfterExpiries_of_expiry hc]
    exact ⟨fun h => if_pos ((hexp c).1 h), fun h => if_neg (mt (hexp c).2 h)⟩
  · next n hn =>
    have hsame : entryAfterExpiries s M x = x := entryAfterExpiries_of_other fun c => by rw [hn]; simp
    obtain ⟨hacts, hquiet⟩ := entryAfterPresses_of_consoleLine (w := w) (hP n) hn
    rw [hsame, ← hdev]
    exact ⟨fun h => hacts ((hpressed n).2 h), fun h => hquiet (mt (hpressed n).1 h)⟩
  · next hchan hline =>
    rw [entryAfterPresses_of_other fun n => by rw [hsource]; exact hline n]
    exact entryAfterExpiries_of_other hchan

/-! ## A millisecond boundary -/

/-- What a boundary leaves: the counts, then the request sets, then the samples of the lines. -/
structure Boundary (levels : BitVec 8) (s t : State) (M : Finset (Fin 4)) (w : State) : Prop where
  turns : Turns s ((List.finRange 4).reverse ++ []) M
  channel : ∀ d : Fin 4, w.ccu.channels[d] =
    Channel.afterRequests (if d ∈ M then s.ccu.channels[d].afterCount else s.ccu.channels[d])
  horn : w.ccu.horn = if hornOf s M = 0 then s.ccu.horn - 1 else hornOf s M
  lines : w.ccu.lines = s.ccu.lines
  levels : w.ccu.levels = levels
  due : w.ccu.frameDue = s.ccu.frameDue
  smp : w.smp = { s.smp with
    events := s.smp.events ||| (if ∃ d ∈ M, s.ccu.channels[d].reachesEnd = true then 0x040#10 else 0#10) }
  handling : w.etu.handling = s.etu.handling
  entry : s.etu.handling = false → ∀ e : Fin 8, w.etu.entries[e] = entryAfterExpiries s M s.etu.entries[e]
  outside : ∀ a, ¬AnchorByte s 0x180 0x280 a → w.mem.get a = s.mem.get a
  sampled : Sampled w t ((List.finRange 8).reverse ++ [])

theorem millisecond_boundary (levels : BitVec 8) (s : State) :
    ∃ M w, Boundary levels s (millisecond (setLevels levels s)) M w := by
  generalize hs₁ : setLevels levels s = s₁
  have hchannels : s₁.ccu.channels = s.ccu.channels := by rw [← hs₁]; rfl
  obtain ⟨M, hM, hturns⟩ := (turns_nil s₁).countChannels (counted_empty s₁) (List.finRange 4)
    (by simpa using List.nodup_finRange 4)
  obtain ⟨hticked, hhorn⟩ := withHorn_ticked (rest := fun r => r - 1) hM
  unfold millisecond
  dsimp only
  generalize withHorn (inOrder (List.finRange 4) countChannel) (fun r => r - 1) s₁ = u at *
  subst hs₁
  refine ⟨M, u.onCcu fun c => { c with channels := c.channels.map Channel.applyRequests },
    ⟨hturns.running, hturns.tally, hturns.turn, hturns.closed, hturns.done⟩, fun d => ?_, hhorn,
    hticked.lines, hticked.levels, hticked.due, hticked.smp, hticked.handling, hticked.entry, hticked.outside,
    (sampled_nil _).all (List.finRange 8) (by simpa using List.nodup_finRange 8)⟩
  have hget : (u.ccu.channels.map Channel.applyRequests)[d] = u.ccu.channels[d].applyRequests := by simp
  refine hget.trans ((applyRequests_eq _).trans ?_)
  rw [hticked.channel d]
  rfl

section
variable {levels : BitVec 8} {M : Finset (Fin 4)}

theorem Boundary.channel_unasked (h : Boundary levels s t M w) (d : Fin 4) : t.ccu.channels[d].unasked =
    Channel.afterRequests (if d ∈ M then s.ccu.channels[d].afterCount else s.ccu.channels[d]) := by
  rw [h.sampled.channel d, h.channel d, afterRequests_unasked]

theorem Boundary.expired_iff (h : Boundary levels s t M w) (d : Fin 4) :
    Expired s t d ↔ d ∈ M ∧ s.ccu.channels[d].reachesEnd = true := by
  have hsame : t.ccu.channels[d].expiries =
      (if d ∈ M then s.ccu.channels[d].afterCount else s.ccu.channels[d]).expiries :=
    show t.ccu.channels[d].unasked.expiries = _ by rw [h.channel_unasked d, afterRequests_expiries]
  rw [Expired, hsame]
  exact expiries_ne_iff s M d

theorem Boundary.anyExpired_iff (h : Boundary levels s t M w) :
    (∃ d ∈ M, s.ccu.channels[d].reachesEnd = true) ↔ ∃ c, Expired s t c :=
  exists_congr fun d => (h.expired_iff d).symm

theorem mem_every (k : Nat) (n : Fin k) : n ∈ (List.finRange k).reverse ++ [] := by simp

theorem Boundary.pressed_iff (h : Boundary levels s t M w) (n : Fin 8) : Pressed w.ccu.levels w n ↔ Pressed levels s n := by
  simp only [Pressed, sampledLevel, h.lines, h.levels]

theorem Boundary.acts_iff (h : Boundary levels s t M w) (n : Fin 8) :
    Acts w n ↔ Pressed levels s n ∧ s.ccu.lines[n].action ≠ .none := by
  rw [Acts, h.pressed_iff n, h.lines]

theorem Boundary.asked_iff (h : Boundary levels s t M w) (c : Fin 4) (a : LineAction) :
    AskedBy w ((List.finRange 8).reverse ++ []) c a ↔
      ∃ n : Fin 8, Pressed levels s n ∧ s.ccu.lines[n].channel = c ∧ s.ccu.lines[n].action = a := by
  refine exists_congr fun n => ?_
  rw [h.pressed_iff n, h.lines]
  exact and_iff_right (mem_every 8 n)

/-- A channel makes no count that the rules of the boundary do not give it. -/
theorem Boundary.counts_of_mem (h : Boundary levels s t M w) {c : Fin 4} (hc : c ∈ M) :
    s.ccu.channels[c].state = .running ∧ (s.ccu.channels[c].mode = .tally → Expired s t s.ccu.channels[c].source) :=
  ⟨h.turns.running c hc, fun htally => by
    obtain ⟨-, -, hsource, hend⟩ := h.turns.tally c hc htally
    exact (h.expired_iff _).2 ⟨hsource, hend⟩⟩

/-- And every count that they give it, but for a channel that stands at 0. -/
theorem Boundary.mem_of_counts (h : Boundary levels s t M w) {c : Fin 4} (hrunning : s.ccu.channels[c].state = .running)
    (htally : s.ccu.channels[c].mode = .tally → Expired s t s.ccu.channels[c].source)
    (hcount : s.ccu.channels[c].mode = .countDown → s.ccu.channels[c].count ≠ 0) : c ∈ M := by
  by_cases hmode : s.ccu.channels[c].mode = .tally
  · obtain ⟨hsource, hend⟩ := (h.expired_iff _).1 (htally hmode)
    exact h.turns.closed c ⟨hmode, hrunning, hsource, hend⟩
  · exact h.turns.done c (mem_every 4 c) hrunning hmode hcount

theorem Boundary.smp_eq (h : Boundary levels s t M w) : t.smp = { s.smp with
    events := s.smp.events ||| (if ∃ d ∈ M, s.ccu.channels[d].reachesEnd = true then 0x040#10 else 0#10) } :=
  h.sampled.smp.trans h.smp

theorem Boundary.requests (h : Boundary levels s t M w) (c : Fin 4) :
    w.ccu.channels[c].reqStart = false ∧ w.ccu.channels[c].reqStop = false ∧ w.ccu.channels[c].reqReset = false := by
  rw [h.channel c]
  exact ⟨rfl, rfl, rfl⟩

theorem Boundary.outside_anchor (h : Boundary levels s t M w) (a : Nat) (ha : ¬AnchorByte s 0x180 0x280 a) :
    t.mem.get a = s.mem.get a := by
  have hanchor : w.smp.anchor = s.smp.anchor := by rw [h.smp]
  rw [h.sampled.outside a (by rwa [AnchorByte, hanchor])]
  exact h.outside a ha

theorem Boundary.line_after (h : Boundary levels s t M w) (n : Fin 8) :
    t.ccu.lines[n] = s.ccu.lines[n].afterSample (sampledLevel levels s n) := by
  rw [h.sampled.line n, if_pos (mem_every 8 n), sampledLevel, h.lines, h.levels, sampledLevel]

theorem Boundary.horn_after (h : Boundary levels s t M w) :
    t.ccu.horn = if hornOfExpired s t = 0 then s.ccu.horn - 1 else hornOfExpired s t := by
  rw [h.sampled.horn, h.horn, hornOfExpired_eq h.expired_iff]

theorem Boundary.events_after (h : Boundary levels s t M w) :
    t.smp.events = s.smp.events ||| (if ∃ c, Expired s t c then 0x040#10 else 0#10) := by
  rw [h.smp_eq]
  simp only [h.anyExpired_iff]

theorem Boundary.entry_after (h : Boundary levels s t M w) (hnot : s.etu.handling = false) (e : Fin 8) :
    entryAfterBoundary s t (fun n => Pressed levels s n ∧ s.ccu.lines[n].action ≠ .none) s.etu.entries[e]
      t.etu.entries[e] := by
  have hdev : w.smp.dev = s.smp.dev := by rw [h.smp]
  rw [h.sampled.entry (h.handling.trans hnot), h.entry hnot e]
  exact entryAfterBoundary_presses h.expired_iff (mem_every 8) h.acts_iff hdev _

theorem Boundary.channel_after (h : Boundary levels s t M w) :
    ∀ c : Fin 4,
      (let x := s.ccu.channels[c]
       let y := t.ccu.channels[c]
       let counts := x.state = .running ∧ (x.mode = .tally → Expired s t x.source)
       let z := { y with reqStart := false, reqStop := false, reqReset := false }
       let pressed := fun act : LineAction => ∃ n : Fin 8, Pressed levels s n ∧ s.ccu.lines[n].channel = c ∧
         s.ccu.lines[n].action = act
       (¬counts → z = x.afterRequests) ∧
       (counts → x.mode = .countDown → x.count = 0 → z = x.afterRequests ∨ z = x.afterCount.afterRequests) ∧
       (counts → (x.mode = .countDown → x.count ≠ 0) → z = x.afterCount.afterRequests) ∧
       (y.reqStart = true ↔ pressed .start ∨ (pressed .toggle ∧ y.state ≠ .running)) ∧
       (y.reqStop = true ↔ pressed .stop ∨ (pressed .toggle ∧ y.state = .running)) ∧
       (y.reqReset = true ↔ pressed .reset)) := by
  refine fun c => ⟨fun hnot => ?_, fun hcounts _ _ => ?_, fun hcounts hcount => ?_, ?_, ?_, ?_⟩
  · have hc : c ∉ M := fun hc => hnot (h.counts_of_mem hc)
    exact (h.channel_unasked c).trans (by rw [if_neg hc])
  · refine (em (c ∈ M)).symm.imp (fun hc => ?_) fun hc => ?_
    · exact (h.channel_unasked c).trans (by rw [if_neg hc])
    · exact (h.channel_unasked c).trans (by rw [if_pos hc])
  · exact (h.channel_unasked c).trans (by rw [if_pos (h.mem_of_counts hcounts.1 hcounts.2 hcount)])
  · rw [h.sampled.start c, h.asked_iff c, h.asked_iff c, (h.requests c).1, ← h.sampled.state c]
    simp
  · rw [h.sampled.stop c, h.asked_iff c, h.asked_iff c, (h.requests c).2.1, ← h.sampled.state c]
    simp
  · rw [h.sampled.reset c, h.asked_iff c, (h.requests c).2.2]
    simp

end

theorem millisecond_holds (levels : BitVec 8) (s : State) : ∃ t, exec (.millisecondBoundary levels) s = .next t ∧
    t.ccu.levels = levels ∧ t.ccu.frameDue = s.ccu.frameDue ∧ ChangesOnly [.mem, .events, .ccu, .etu, .free] s t ∧
    (s.smp.inForce = false → t.mem = s.mem) ∧ (∀ a, ¬AnchorByte s 0x180 0x280 a → t.mem.get a = s.mem.get a) ∧
    (∀ n : Fin 8, t.ccu.lines[n] = s.ccu.lines[n].afterSample (sampledLevel levels s n)) ∧
    t.ccu.horn = (if hornOfExpired s t = 0 then s.ccu.horn - 1 else hornOfExpired s t) ∧
    t.smp.events = s.smp.events ||| (if ∃ c, Expired s t c then 0x040#10 else 0#10) ∧
    (s.etu.handling = false → ∀ e : Fin 8, entryAfterBoundary s t
      (fun n => Pressed levels s n ∧ s.ccu.lines[n].action ≠ .none) s.etu.entries[e] t.etu.entries[e]) ∧
    ∀ c : Fin 4,
      (let x := s.ccu.channels[c]
       let y := t.ccu.channels[c]
       let counts := x.state = .running ∧ (x.mode = .tally → Expired s t x.source)
       let z := { y with reqStart := false, reqStop := false, reqReset := false }
       let pressed := fun act : LineAction => ∃ n : Fin 8, Pressed levels s n ∧ s.ccu.lines[n].channel = c ∧
         s.ccu.lines[n].action = act
       (¬counts → z = x.afterRequests) ∧
       (counts → x.mode = .countDown → x.count = 0 → z = x.afterRequests ∨ z = x.afterCount.afterRequests) ∧
       (counts → (x.mode = .countDown → x.count ≠ 0) → z = x.afterCount.afterRequests) ∧
       (y.reqStart = true ↔ pressed .start ∨ (pressed .toggle ∧ y.state ≠ .running)) ∧
       (y.reqStop = true ↔ pressed .stop ∨ (pressed .toggle ∧ y.state = .running)) ∧
       (y.reqReset = true ↔ pressed .reset)) := by
  have horderly : Orderly s (millisecond (setLevels levels s)) :=
    millisecond_orderly (.of_same rfl rfl rfl rfl rfl rfl rfl)
  have hframe : ChangesOnly [.mem, .events, .ccu, .etu, .free] s (millisecond (setLevels levels s)) :=
    millisecond_then (onCcu_then _ (.refl _ s) rfl) rfl
  obtain ⟨M, w, h⟩ := millisecond_boundary levels s
  refine ⟨_, rfl, ?_⟩
  generalize millisecond (setLevels levels s) = t at *
  refine ⟨h.sampled.levels.trans h.levels, h.sampled.due.trans h.due, hframe, fun hforce => (horderly.guard hforce).2,
    h.outside_anchor, h.line_after, h.horn_after, h.events_after, h.entry_after, h.channel_after⟩

/-! ## CHANNEL_EXPIRY as a command of its own -/

theorem lastCount_running {x : Channel} (h : x.lastCount) : x.state = .running ∧ x.step.atEnd = true ∧
    (x.mode = .countDown → x.count ≠ 0) := by
  have hcount : x.mode = .countDown → x.count ≠ 0 := fun hdown => by
    have hone := h.2
    rw [if_pos hdown] at hone
    omega
  exact ⟨h.1, ((lastCount_iff x hcount).1 h).2, hcount⟩

variable {cs : Vector Channel 4} {c : Fin 4} {k : Nat}

theorem expiryBeginner_of_not (h : ¬cs[c].lastCount) (k : Nat) : expiryBeginner k cs c = none := by
  cases k with
  | zero => rfl
  | succ k =>
    unfold expiryBeginner
    split
    · next hcond =>
      have hzero : cs[c].mode = .countDown ∧ cs[c].count = 0 := by
        by_contra hnot
        exact h ((lastCount_iff _ fun hdown hcount => hnot ⟨hdown, hcount⟩).2 hcond)
      rw [hzero.1]
      exact if_pos hzero.2
    · rfl

theorem expiryBeginner_of_tally (h : cs[c].lastCount) (htally : cs[c].mode = .tally) (k : Nat) :
    expiryBeginner (k + 1) cs c = expiryBeginner k cs cs[c].source := by
  obtain ⟨hrunning, hend, -⟩ := lastCount_running h
  rw [expiryBeginner, if_pos ⟨hrunning, hend⟩, htally]

theorem expiryBeginner_of_root (h : cs[c].lastCount) (hmode : cs[c].mode ≠ .tally) (k : Nat) :
    expiryBeginner (k + 1) cs c = some c := by
  obtain ⟨hrunning, hend, hcount⟩ := lastCount_running h
  rw [expiryBeginner, if_pos ⟨hrunning, hend⟩]
  split
  · next hdown => exact if_neg (hcount hdown)
  · rfl
  · next htally => exact absurd htally hmode

theorem expiryBeginner_mono {b : Fin 4} : ∀ {k : Nat} {c : Fin 4}, expiryBeginner k cs c = some b →
    expiryBeginner (k + 1) cs c = some b := by
  intro k
  induction k with
  | zero => exact fun h => by cases h
  | succ k ih =>
    intro c h
    by_cases hlast : cs[c].lastCount
    · by_cases htally : cs[c].mode = .tally
      · rw [expiryBeginner_of_tally hlast htally] at h ⊢
        exact ih h
      · rw [expiryBeginner_of_root hlast htally] at h ⊢
        exact h
    · rw [expiryBeginner_of_not hlast] at h
      cases h

/-- The channels whose expiry is found to begin within `k` levels. -/
def beginsWithin (k : Nat) (cs : Vector Channel 4) : Finset (Fin 4) := Finset.univ.filter fun c => (expiryBeginner k cs c).isSome

theorem mem_beginsWithin : c ∈ beginsWithin k cs ↔ ∃ b, expiryBeginner k cs c = some b := by
  rw [beginsWithin, Finset.mem_filter, Option.isSome_iff_exists]
  exact and_iff_right (Finset.mem_univ c)

theorem beginsWithin_mono (k : Nat) (cs : Vector Channel 4) : beginsWithin k cs ⊆ beginsWithin (k + 1) cs := fun _ hc =>
  mem_beginsWithin.2 ((mem_beginsWithin.1 hc).imp fun _ => expiryBeginner_mono)

theorem beginsWithin_stable (h : beginsWithin k cs = beginsWithin (k + 1) cs) : beginsWithin (k + 1) cs = beginsWithin (k + 2) cs := by
  refine (beginsWithin_mono (k + 1) cs).antisymm fun c hc => ?_
  obtain ⟨b, hb⟩ := mem_beginsWithin.1 hc
  by_cases hlast : cs[c].lastCount
  · by_cases htally : cs[c].mode = .tally
    · rw [expiryBeginner_of_tally hlast htally] at hb
      obtain ⟨b', hb'⟩ := mem_beginsWithin.1 (h ▸ mem_beginsWithin.2 ⟨b, hb⟩)
      exact mem_beginsWithin.2 ⟨b', by rw [expiryBeginner_of_tally hlast htally]; exact hb'⟩
    · exact mem_beginsWithin.2 ⟨c, expiryBeginner_of_root hlast htally k⟩
  · rw [expiryBeginner_of_not hlast] at hb
    cases hb

theorem beginsWithin_grows (k : Nat) (cs : Vector Channel 4) : beginsWithin k cs = beginsWithin (k + 1) cs ∨ k + 1 ≤ (beginsWithin (k + 1) cs).card := by
  induction k with
  | zero =>
    refine (Finset.eq_empty_or_nonempty (beginsWithin 1 cs)).imp (fun h => ?_) Finset.card_pos.2
    rw [h]
    rfl
  | succ k ih =>
    by_cases hstop : beginsWithin (k + 1) cs = beginsWithin (k + 2) cs
    · exact .inl hstop
    · have hless := Finset.card_lt_card ((beginsWithin_mono (k + 1) cs).ssubset_of_ne hstop)
      have hgrown := ih.resolve_left fun h => hstop (beginsWithin_stable h)
      exact .inr (by omega)

/-- Among four channels a chain of sources that goes on for four levels goes on for ever. -/
theorem expiryBeginner_enough (cs : Vector Channel 4) (c : Fin 4) : expiryBeginner 5 cs c = expiryBeginner 4 cs c := by
  have hstable : beginsWithin 4 cs = beginsWithin 5 cs := (beginsWithin_grows 4 cs).resolve_right fun h =>
    absurd (h.trans (Finset.card_le_univ _)) (by decide)
  cases h : expiryBeginner 4 cs c with
  | some b => exact expiryBeginner_mono h
  | none =>
    refine Option.eq_none_iff_forall_ne_some.2 fun b hb => ?_
    obtain ⟨b', hb'⟩ := mem_beginsWithin.1 (hstable ▸ mem_beginsWithin.2 ⟨b, hb⟩)
    rw [h] at hb'
    cases hb'

/-- What the expiry of a channel that begins it does. -/
def expiryOf (b : Option (Fin 4)) (s : State) : State :=
  match b with
  | some b => withHorn (fun t => expireChain 3 b (onChannel b Channel.step t)) id s
  | none => s

theorem channelExpiry_eq (c : Fin 4) (s : State) :
    exec (.channelExpiry c) s = .next (expiryOf (expiryBeginner 4 s.ccu.channels c) s) := rfl

theorem channelExpiry_follows_source (c : Fin 4) (s : State) : ∃ t, exec (.channelExpiry c) s = .next t ∧
    (let x := s.ccu.channels[c]
     (¬x.lastCount → t = s) ∧ (x.mode = .tally → x.lastCount → exec (.channelExpiry x.source) s = .next t) ∧
     (x.mode = .tally → ¬s.ccu.channels[x.source].lastCount → t = s)) := by
  have hnone : expiryBeginner 4 s.ccu.channels c = none → expiryOf (expiryBeginner 4 s.ccu.channels c) s = s :=
    fun h => by rw [h]; rfl
  refine ⟨_, channelExpiry_eq c s, fun hnot => hnone (expiryBeginner_of_not hnot 4), fun htally hlast => ?_,
    fun htally hnot => hnone ?_⟩
  · rw [channelExpiry_eq, ← expiryBeginner_enough _ c, expiryBeginner_of_tally hlast htally]
  · by_cases hlast : s.ccu.channels[c].lastCount
    · rw [expiryBeginner_of_tally hlast htally, expiryBeginner_of_not hnot]
    · exact expiryBeginner_of_not hlast 4

theorem channelExpiry_ticked {c : Fin 4} (hlast : s.ccu.channels[c].lastCount) (hmode : s.ccu.channels[c].mode ≠ .tally) :
    ∃ M, Ticked s (expiryOf (expiryBeginner 4 s.ccu.channels c) s) M ∧ Expands s ∅ M c ∧
      (expiryOf (expiryBeginner 4 s.ccu.channels c) s).ccu.horn =
        if hornOf s M = 0 then s.ccu.horn else hornOf s M := by
  rw [expiryBeginner_of_root hlast hmode 3]
  obtain ⟨M, hM, hexp⟩ := expireChain_expands 3 c ∅ _ (counted_empty s) (Finset.notMem_empty c) (lastCount_running hlast).2.1
    (fun d hd => absurd hd (Finset.notMem_empty d)) (fun htally => absurd htally hmode) (compl_card_le ∅)
  obtain ⟨hticked, hhorn⟩ := withHorn_ticked
    (act := fun t => expireChain 3 c (onChannel c Channel.step t)) (rest := id) hM
  exact ⟨M, hticked, hexp, hhorn⟩

theorem expiryOf_then (b : Option (Fin 4)) (s : State) : ChangesOnly [.mem, .events, .ccu, .etu] s (expiryOf b s) := by
  cases b with
  | none => exact .refl _ s
  | some b => exact withHorn_then (fun u hu => expireChain_then 3 b (onCcu_then _ hu rfl) rfl) (.refl _ s) rfl

/-- Settles O48. -/
theorem channelsCountAndExpire : Obligations.ChannelsCountAndExpire := by
  refine ⟨millisecond_holds, channelExpiry_follows_source, fun c s hlast hmode => ?_⟩
  obtain ⟨M, h, hexp, hhorn⟩ := channelExpiry_ticked hlast hmode
  have hframe := expiryOf_then (expiryBeginner 4 s.ccu.channels c) s
  refine ⟨_, channelExpiry_eq c s, ?_⟩
  generalize expiryOf (expiryBeginner 4 s.ccu.channels c) s = t at *
  have hend : s.ccu.channels[c].reachesEnd = true := (lastCount_running hlast).2.1
  have hexpired (d : Fin 4) : Expired s t d ↔ d ∈ M ∧ s.ccu.channels[d].reachesEnd = true := by
    rw [Expired, h.channel d]
    exact expiries_ne_iff s M d
  have hmem (d : Fin 4) : d ∈ M ↔ d = c ∨ (s.ccu.channels[d].mode = .tally ∧ s.ccu.channels[d].state = .running ∧
      Expired s t s.ccu.channels[d].source) := by
    have hadded := hexp.added d
    have hclosed := hexp.closed d
    rw [Finset.sdiff_empty] at hadded hclosed
    rw [hexpired]
    constructor
    · exact fun hd => (hadded hd).imp_right fun ⟨htally, hrun, hsource, hreaches⟩ => ⟨htally, hrun, hsource, hreaches⟩
    · rintro (rfl | ⟨htally, hrun, hsource, hreaches⟩)
      · exact hexp.root
      · exact hclosed ⟨htally, hrun, hsource, hreaches⟩
  refine ⟨fun d => ⟨fun hd => ?_, fun hd => ?_⟩, (hexpired c).2 ⟨hexp.root, hend⟩, ?_, h.lines, h.levels, ?_,
    fun hnot e => ?_, hframe, h.outside⟩
  · rw [h.channel d, if_pos ((hmem d).2 hd)]
  · rw [h.channel d, if_neg (mt (hmem d).1 hd)]
  · rw [hhorn, hornOfExpired_eq hexpired]
  · rw [h.smp, if_pos ⟨c, hexp.root, hend⟩]
  · rw [h.entry hnot e]
    exact entryAfterBoundary_expiries hexpired _

end Sys2Proof.Machine
end

section
/-! SUPPORT. What a SAFETY request does zone by zone: it passes heads and evicts, and the slots of the evicted lose the
zone or end (R68 to R70, R101, R119). -/

namespace Sys2Proof.Machine

variable {s t u : State} {c : Claim} {cs : List Claim}

/-! ## One list -/

/-- The claim that a safety newcomer evicts. -/
def victimOf (cs : List Claim) : Option Claim := if fullList cs then evictable cs else none

/-- Whether a list takes a safety newcomer. -/
def takesSafety (cs : List Claim) : Bool := !fullList cs || (evictable cs).isSome

/-- The list that a safety newcomer is inserted into. -/
def clearedFor (cs : List Claim) : List Claim := ((victimOf cs).map fun v => removeClaim v.who cs).getD cs

theorem clearedFor_of_victim {v : Claim} (h : victimOf cs = some v) : clearedFor cs = removeClaim v.who cs := by
  rw [clearedFor, h]
  rfl

theorem clearedFor_of_none (h : victimOf cs = none) : clearedFor cs = cs := by
  rw [clearedFor, h]
  rfl

theorem victimOf_of_not_takes (h : takesSafety cs = false) : victimOf cs = none := by
  unfold takesSafety at h
  unfold victimOf
  cases hfull : fullList cs with
  | false => rfl
  | true =>
    rw [hfull] at h
    exact Option.not_isSome_iff_eq_none.1 (by simpa using h)

theorem takesSafety_of_victim {v : Claim} (h : victimOf cs = some v) : takesSafety cs = true := by
  by_contra hnot
  rw [victimOf_of_not_takes (Bool.eq_false_of_not_eq_true hnot)] at h
  cases h

theorem takenClaims_safety (h : holdsIn c.who cs = false) :
    takenClaims c true cs = if takesSafety cs then some (insertClaim c (clearedFor cs)) else none := by
  rw [takenClaims_of_newcomer h, takesSafety, clearedFor, victimOf]
  cases fullList cs with
  | false => rfl
  | true => cases evictable cs <;> rfl

theorem claimedList_safety (h : holdsIn c.who cs = false) :
    claimedList c true cs = if takesSafety cs then insertClaim c (clearedFor cs) else cs := by
  rw [claimedList, takenClaims_safety h]
  split <;> rfl

/-- A claimant other than the newcomer and the one evicted stands in the list as before. -/
theorem holdsIn_claimedList (h : holdsIn c.who cs = false) {who : Claimant} (hwho : who ≠ c.who) :
    holdsIn who (claimedList c true cs) = (holdsIn who cs && (victimOf cs).map Claim.who != some who) := by
  have hinsert (l : List Claim) : holdsIn who (insertClaim c l) = holdsIn who l := by
    rw [Bool.eq_iff_iff, holdsIn_iff, holdsIn_iff, List.mem_map, List.mem_map]
    simp only [mem_insertClaim]
    constructor
    · rintro ⟨d, rfl | hd, rfl⟩
      · exact absurd rfl hwho
      · exact ⟨d, hd, rfl⟩
    · rintro ⟨d, hd, rfl⟩
      exact ⟨d, .inr hd, rfl⟩
  rw [claimedList_safety h]
  cases hvictim : victimOf cs with
  | none =>
    rw [clearedFor_of_none hvictim]
    split
    · rw [hinsert]
      simp
    · simp
  | some v =>
    rw [if_pos (takesSafety_of_victim hvictim), clearedFor_of_victim hvictim, hinsert, holdsIn_removeClaim]
    congr 1
    rw [Bool.eq_iff_iff, bne_iff_ne, bne_iff_ne]
    simp [eq_comm]

/-- Whether a safety newcomer passes the head of a list. -/
def passesSafety (c : Claim) (cs : List Claim) (old : Claimant) : Bool :=
  takesSafety cs && passesHead c (clearedFor cs) old

theorem holdsIn_of_headOf {who : Claimant} (h : headOf cs = some who) : holdsIn who cs = true := by
  rw [headOf, Option.map_eq_some_iff] at h
  obtain ⟨d, hd, hwho⟩ := h
  exact holdsIn_iff.2 (List.mem_map.2 ⟨d, List.mem_of_mem_head? hd, hwho⟩)

/-- What a newcomer passes stands in the list, is not the newcomer, and is not evicted. -/
theorem held_of_passesSafety {old : Claimant} (h : holdsIn c.who cs = false) (hpass : passesSafety c cs old = true) :
    holdsIn old cs = true ∧ old ≠ c.who ∧ (victimOf cs).map Claim.who ≠ some old := by
  unfold passesSafety passesHead at hpass
  simp only [Bool.and_eq_true, beq_iff_eq] at hpass
  have hheld := holdsIn_of_headOf hpass.2.2
  have hold : holdsIn old cs = true ∧ (victimOf cs).map Claim.who ≠ some old := by
    cases hvictim : victimOf cs with
    | none =>
      rw [clearedFor_of_none hvictim] at hheld
      exact ⟨hheld, nofun⟩
    | some v =>
      rw [clearedFor_of_victim hvictim, holdsIn_removeClaim, Bool.and_eq_true, bne_iff_ne] at hheld
      exact ⟨hheld.1, fun heq => hheld.2 (Option.some.inj heq).symm⟩
  refine ⟨hold.1, ?_, hold.2⟩
  rintro rfl
  rw [h] at hold
  exact absurd hold.1 (by decide)

/-! ## One zone -/

/-- The claimant that a safety newcomer evicts from a zone. -/
def victimAt (o : Option ZoneEntry) : Option Claimant := o.bind fun e => (victimOf e.claims).map Claim.who

/-- Whether a safety newcomer passes a head in a zone. -/
def passedAt (c : Claim) (o : Option ZoneEntry) (old : Claimant) : Bool := o.any fun e => passesSafety c e.claims old

theorem claimZone_safety (z : Fin 16) (hlive : s.smp.dev.live = true) (hnew : holdsIn c.who (claimsAt s.zar z) = false) :
    (victimAt s.zar.table[z] = none ∧ (∀ old, passedAt c s.zar.table[z] old = false) ∧ (claimZone c true z s).2 = s) ∨
    ∃ e, s.zar.table[z] = some e ∧ takesSafety e.claims = true ∧
      ((victimOf e.claims = none ∧ (claimZone c true z s).2 = placeClaim z c s) ∨
       ∃ v, victimOf e.claims = some v ∧ (claimZone c true z s).2 = evictAndPlace z v c s) := by
  obtain ⟨he, h⟩ | ⟨e, he, h⟩ := claimZone_cases c true z s hlive
  · rw [he, h]
    exact .inl ⟨rfl, fun _ => rfl, rfl⟩
  rw [claimsAt_eq he] at hnew
  obtain ⟨hholds, -⟩ | ⟨-, hfull, h⟩ | ⟨-, hfull, hnone, h⟩ | ⟨v, -, hfull, -, hvictim, h⟩ := h
  · exact absurd hholds (by rw [show holdsIn c.who e.claims = false from hnew]; decide)
  · refine .inr ⟨e, he, by rw [takesSafety, hfull]; rfl, .inl ⟨by rw [victimOf, hfull]; rfl, ?_⟩⟩
    rw [h]
  · have hnone := hnone.resolve_left (by decide)
    have hnot : takesSafety e.claims = false := by rw [takesSafety, hfull, hnone]; rfl
    rw [he, h]
    refine .inl ⟨?_, fun old => ?_, rfl⟩
    · rw [victimAt, Option.bind_some, victimOf_of_not_takes hnot]
      rfl
    · rw [passedAt, Option.any_some, passesSafety, hnot]
      rfl
  · refine .inr ⟨e, he, by rw [takesSafety, hvictim]; simp, .inr ⟨v, by rw [victimOf, if_pos hfull, hvictim], ?_⟩⟩
    rw [h]

/-! ## A slot of either kind -/

/-- What the zones of a request do to one slot is the same for a clip and for a message. -/
structure SlotKind (α : Type) where
  get : State → α
  who : Claimant
  working : α → Bool
  preempt : α → α
  unheld : ZoneMask → α → α
  ended : Frame → α → α

/-- A slot after a report of lost zones. -/
def SlotKind.lost {α : Type} (K : SlotKind α) (frame : Frame) (m : ZoneMask) (holds : Bool) (x : α) : α :=
  if K.working x then (if holds then K.unheld m x else K.ended frame (K.unheld m x)) else x

structure SlotKind.Lawful {α : Type} (K : SlotKind α) : Prop where
  preempt_idle : ∀ x, K.working x = false → K.preempt x = x
  preempt_preempt : ∀ x, K.preempt (K.preempt x) = K.preempt x
  working_preempt : ∀ x, K.working (K.preempt x) = K.working x
  working_unheld : ∀ m x, K.working (K.unheld m x) = K.working x
  working_ended : ∀ f x, K.working (K.ended f x) = false
  unheld_zero : ∀ x, K.unheld 0 x = x
  unheld_unheld : ∀ m n x, K.unheld m (K.unheld n x) = K.unheld (n ||| m) x
  unheld_preempt : ∀ m x, K.unheld m (K.preempt x) = K.preempt (K.unheld m x)
  ended_unheld : ∀ f m x, K.working x = true → K.ended f (K.unheld m x) = K.ended f x
  zar : ∀ f u, K.get (u.onZar f) = K.get u
  place : ∀ (z : Fin 16) (c : Claim) (e : ZoneEntry) (u : State), u.zar.table[z] = some e →
    K.get (placeClaim z c u) = if passesHead c e.claims K.who then K.preempt (K.get u) else K.get u
  lose : ∀ (w : Claimant) (m : ZoneMask) (u : State), K.get (reportLost .evicted w m u) =
    if w = K.who then K.lost u.ftu.frame m (holdsAny u.zar K.who) (K.get u) else K.get u

theorem unheld_bits (a m n : ZoneMask) : a &&& ~~~n &&& ~~~m = a &&& ~~~(n ||| m) := by
  rw [BitVec.not_or, BitVec.and_assoc]

theorem unheld_none (a : ZoneMask) : a &&& ~~~0 = a := by
  rw [show ~~~(0 : ZoneMask) = BitVec.allOnes 16 from rfl, BitVec.and_allOnes]

def ClipSlot.unheld (m : ZoneMask) (x : ClipSlot) : ClipSlot := { x with holdings := x.holdings &&& ~~~m }

theorem clip_unheld_preempt (m : ZoneMask) (x : ClipSlot) : x.preempt.unheld m = (x.unheld m).preempt := by
  cases h : x.working with
  | true =>
    have hold : x.preempt = { x with preempted := true } := if_pos h
    have hnew : (x.unheld m).preempt = { x.unheld m with preempted := true } := if_pos h
    rw [hold, hnew]
    rfl
  | false =>
    have hold : x.preempt = x := if_neg (by rw [h]; decide)
    have hnew : (x.unheld m).preempt = x.unheld m :=
      if_neg (by rw [show (x.unheld m).working = false from h]; decide)
    rw [hold, hnew]

theorem clip_ended_unheld {m : ZoneMask} {x : ClipSlot} (f : Frame) (h : x.working = true) :
    (x.unheld m).ended f .evicted = x.ended f .evicted := by
  have hnew : (x.unheld m).ended f .evicted =
      if x.outstanding = none then ClipSlot.cleared else (x.unheld m).endedAt f .evicted := if_pos h
  have hold : x.ended f .evicted = if x.outstanding = none then ClipSlot.cleared else x.endedAt f .evicted := if_pos h
  rw [hnew, hold]
  rfl

def clipKind (j : Fin 8) : SlotKind ClipSlot where
  get s := s.cle.slots[j]
  who := .clip j
  working := ClipSlot.working
  preempt := ClipSlot.preempt
  unheld := ClipSlot.unheld
  ended f x := x.ended f .evicted

theorem clipKind_lawful (j : Fin 8) : (clipKind j).Lawful where
  preempt_idle x h := if_neg (by rw [show x.working = false from h]; decide)
  preempt_preempt := clip_preempt_idem
  working_preempt x := by
    show ClipSlot.working x.preempt = x.working
    unfold ClipSlot.working
    rw [(clip_preempt_shape x).1]
  working_unheld _ _ := rfl
  working_ended f x := ended_not_working f .evicted x
  unheld_zero x := show ({ x with holdings := x.holdings &&& ~~~0 } : ClipSlot) = x by rw [unheld_none]
  unheld_unheld m n x :=
    show ({ x with holdings := x.holdings &&& ~~~n &&& ~~~m } : ClipSlot) = _ by rw [unheld_bits]; rfl
  unheld_preempt := clip_unheld_preempt
  ended_unheld f _ _ h := clip_ended_unheld f h
  zar _ _ := rfl
  place z c e u he := (placeClaim_slots z c he j).1
  lose w m u := reportLost_clipSlot .evicted w m u j

def MessageSlot.unheld (m : ZoneMask) (x : MessageSlot) : MessageSlot := { x with holdings := x.holdings &&& ~~~m }

theorem message_unheld_preempt (m : ZoneMask) (x : MessageSlot) : x.preempt.unheld m = (x.unheld m).preempt := by
  cases h : x.working with
  | true =>
    have hold : x.preempt = { x with preempted := true } := if_pos h
    have hnew : (x.unheld m).preempt = { x.unheld m with preempted := true } := if_pos h
    rw [hold, hnew]
    rfl
  | false =>
    have hold : x.preempt = x := if_neg (by rw [h]; decide)
    have hnew : (x.unheld m).preempt = x.unheld m :=
      if_neg (by rw [show (x.unheld m).working = false from h]; decide)
    rw [hold, hnew]

theorem message_ended_unheld {m : ZoneMask} {x : MessageSlot} (f : Frame) (h : x.working = true) :
    (x.unheld m).ended f .evicted = x.ended f .evicted := by
  have hnew : (x.unheld m).ended f .evicted =
      if x.outstanding = none then MessageSlot.cleared else (x.unheld m).endedAt f .evicted := if_pos h
  have hold : x.ended f .evicted = if x.outstanding = none then MessageSlot.cleared else x.endedAt f .evicted := if_pos h
  rw [hnew, hold]
  rfl

def messageKind (j : Fin 8) : SlotKind MessageSlot where
  get s := s.msu.slots[j]
  who := .message j
  working := MessageSlot.working
  preempt := MessageSlot.preempt
  unheld := MessageSlot.unheld
  ended f x := x.ended f .evicted

theorem messageKind_lawful (j : Fin 8) : (messageKind j).Lawful where
  preempt_idle x h := if_neg (by rw [show x.working = false from h]; decide)
  preempt_preempt := message_preempt_idem
  working_preempt x := by
    show MessageSlot.working x.preempt = x.working
    unfold MessageSlot.working
    rw [(message_preempt_shape x).1]
  working_unheld _ _ := rfl
  working_ended f x := messageEnded_not_working f .evicted x
  unheld_zero x := show ({ x with holdings := x.holdings &&& ~~~0 } : MessageSlot) = x by rw [unheld_none]
  unheld_unheld m n x :=
    show ({ x with holdings := x.holdings &&& ~~~n &&& ~~~m } : MessageSlot) = _ by rw [unheld_bits]; rfl
  unheld_preempt := message_unheld_preempt
  ended_unheld f _ _ h := message_ended_unheld f h
  zar _ _ := rfl
  place z c e u he := (placeClaim_slots z c he j).2
  lose w m u := reportLost_messageSlot .evicted w m u j

/-! ## One slot in one zone -/

/-- Who stands in which zone after a safety newcomer's request of one zone. -/
theorem claimZone_holdsIn {z : Fin 16} (hlive : s.smp.dev.live = true) (hnew : holdsIn c.who (claimsAt s.zar z) = false)
    {w : Claimant} (hw : w ≠ c.who) (y : Fin 16) : holdsIn w (claimsAt (claimZone c true z s).2.zar y) =
      (holdsIn w (claimsAt s.zar y) && !(decide (y = z) && victimAt s.zar.table[z] == some w)) := by
  rw [(claimZone_zar c true z hlive).1]
  cases he : s.zar.table[z] with
  | none =>
    rw [Zar.onClaims_of_fixed fun e h => by rw [he] at h; cases h]
    simp [victimAt]
  | some e =>
    have hclaims : claimsAt s.zar z = e.claims := claimsAt_eq he
    rw [hclaims] at hnew
    rw [claimsAt_onClaims _ _ _ _ e he]
    by_cases hy : y = z
    · subst hy
      rw [if_pos rfl, holdsIn_claimedList hnew hw, hclaims]
      simp [victimAt, bne]
    · rw [if_neg hy]
      simp [hy]

theorem SlotKind.Lawful.step {α : Type} {K : SlotKind α} (h : K.Lawful) {z : Fin 16} (hlive : s.smp.dev.live = true)
    (hnew : holdsIn c.who (claimsAt s.zar z) = false) : K.get (claimZone c true z s).2 =
      if victimAt s.zar.table[z] = some K.who then
        K.lost s.ftu.frame (zoneBit z) (holdsAny (claimZone c true z s).2.zar K.who) (K.get s)
      else if passedAt c s.zar.table[z] K.who then K.preempt (K.get s) else K.get s := by
  obtain ⟨hvictim, hpass, heq⟩ | ⟨e, he, htakes, ⟨hvictim, heq⟩ | ⟨v, hvictim, heq⟩⟩ := claimZone_safety z hlive hnew
  · rw [heq, hvictim, if_neg nofun, hpass, if_neg (by decide)]
  · have hpassed : passedAt c (some e) K.who = passesHead c e.claims K.who := by
      rw [passedAt, Option.any_some, passesSafety, htakes, clearedFor_of_none hvictim, Bool.true_and]
    rw [heq, he, victimAt, Option.bind_some, hvictim, if_neg nofun, hpassed]
    exact h.place z c e s he
  · have hplaced : passedAt c (some e) K.who = passesHead c (removeClaim v.who e.claims) K.who := by
      rw [passedAt, Option.any_some, passesSafety, htakes, clearedFor_of_victim hvictim, Bool.true_and]
    generalize hs₁ : s.onZar (fun a => a.onClaims z (removeClaim v.who)) = s₁
    have he₁ : s₁.zar.table[z] = some { e with claims := removeClaim v.who e.claims } := by
      rw [← hs₁, State.onZar_zar, Zar.onClaims_get, if_pos rfl, he]
      rfl
    have hget : K.get s₁ = K.get s := by rw [← hs₁, h.zar]
    have hframe : (placeClaim z c s₁).ftu = s.ftu :=
      Eq.trans (placeClaim_frame z c s₁ .ftu rfl) (by rw [← hs₁]; rfl)
    have hevict : evictAndPlace z v c s = reportLost .evicted v.who (zoneBit z) (placeClaim z c s₁) := by rw [← hs₁]; rfl
    have hzar : (claimZone c true z s).2.zar = (placeClaim z c s₁).zar := by rw [heq, hevict, reportLost_zar_eq]
    have hcond : victimAt (some e) = some K.who ↔ v.who = K.who := by
      rw [victimAt, Option.bind_some, hvictim]
      exact Option.some_inj
    rw [hzar, heq, hevict, h.lose, h.place z c _ s₁ he₁, hget, hframe, he, hplaced]
    simp only [hcond]
    split
    · next hwho =>
      have hgone : passesHead c (removeClaim v.who e.claims) K.who = false := by
        rw [← Bool.not_eq_true]
        intro hpass
        rw [← hplaced, passedAt, Option.any_some] at hpass
        have hnew' : holdsIn c.who e.claims = false := by
          rw [claimsAt_eq he] at hnew
          exact hnew
        exact (held_of_passesSafety hnew' hpass).2.2 (by rw [hvictim, ← hwho]; rfl)
      rw [hgone, if_neg (by decide)]
    · rfl

/-! ## One slot in all the zones -/

/-- The zones of the list that the request takes from the claimant. -/
def lostMask (s : State) (zs : List (Fin 16)) (w : Claimant) : ZoneMask :=
  maskOf fun z => decide (z ∈ zs) && victimAt s.zar.table[z] == some w

def LosesIn (s : State) (zs : List (Fin 16)) (w : Claimant) : Prop := ∃ z ∈ zs, victimAt s.zar.table[z] = some w

def passesIn (c : Claim) (s : State) (zs : List (Fin 16)) (w : Claimant) : Bool :=
  zs.any fun z => passedAt c s.zar.table[z] w

/-- A slot that goes on, without the zones that it has lost. -/
def SlotKind.kept {α : Type} (K : SlotKind α) (c : Claim) (zs : List (Fin 16)) (s : State) : α :=
  if passesIn c s zs K.who then K.preempt (K.unheld (lostMask s zs K.who) (K.get s))
  else K.unheld (lostMask s zs K.who) (K.get s)

/-- What the zones make of a slot that works: it goes on with what is left to it, or it ends. -/
def SlotKind.After {α : Type} (K : SlotKind α) (c : Claim) (zs : List (Fin 16)) (s t : State) : Prop :=
  ((¬LosesIn s zs K.who ∨ holdsAny t.zar K.who = true) ∧ K.get t = K.kept c zs s) ∨
    (LosesIn s zs K.who ∧ holdsAny t.zar K.who = false ∧ passesIn c s zs K.who = false ∧
      K.get t = K.ended s.ftu.frame (K.get s))

variable {zs : List (Fin 16)} {z : Fin 16} {w : Claimant}

theorem lostMask_append (s : State) (zs : List (Fin 16)) (z : Fin 16) (w : Claimant) : lostMask s (zs ++ [z]) w =
    lostMask s zs w ||| (if victimAt s.zar.table[z] = some w then zoneBit z else 0) := by
  refine zoneMask_ext fun y => ?_
  rw [BitVec.getLsbD_or, lostMask, lostMask, maskOf_getLsbD, maskOf_getLsbD]
  by_cases hy : y = z
  · subst hy
    by_cases h : victimAt s.zar.table[y] = some w
    · rw [if_pos h, zoneBit_getLsbD]
      simp [-Fin.getElem_fin, h]
    · rw [if_neg h]
      simp [-Fin.getElem_fin, h]
  · have hbit : (if victimAt s.zar.table[z] = some w then zoneBit z else 0).getLsbD y.val = false := by
      split
      · rw [zoneBit_getLsbD]
        exact beq_false_of_ne (Ne.symm hy)
      · exact BitVec.getLsbD_zero
    rw [hbit]
    simp [hy]

theorem losesIn_append : LosesIn s (zs ++ [z]) w ↔ LosesIn s zs w ∨ victimAt s.zar.table[z] = some w := by
  simp only [LosesIn, List.mem_append, List.mem_singleton, or_and_right, exists_or, exists_eq_left]

theorem passesIn_append (c : Claim) (s : State) (zs : List (Fin 16)) (z : Fin 16) (w : Claimant) :
    passesIn c s (zs ++ [z]) w = (passesIn c s zs w || passedAt c s.zar.table[z] w) := by
  simp [passesIn]

/-- A safety newcomer's request of some of the zones of its mask. -/
structure Requested (c : Claim) (zs : List (Fin 16)) (s u : State) : Prop where
  live : u.smp.dev.live = true
  frame : u.ftu = s.ftu
  table : ∀ y : Fin 16, y ∉ zs → u.zar.table[y] = s.zar.table[y]
  held : ∀ w, w ≠ c.who → ∀ y : Fin 16, holdsIn w (claimsAt u.zar y) =
    (holdsIn w (claimsAt s.zar y) && !(decide (y ∈ zs) && victimAt s.zar.table[y] == some w))

theorem holdsAny_iff {a : Zar} : holdsAny a w = true ↔ ∃ y : Fin 16, holdsIn w (claimsAt a y) = true := by
  simp [holdsAny]

theorem claimsAt_of_table {a b : Zar} {y : Fin 16} (h : a.table[y] = b.table[y]) : claimsAt a y = claimsAt b y := by
  rw [claimsAt, claimsAt, h]

theorem requested_nil (hlive : s.smp.dev.live = true) : Requested c [] s s :=
  ⟨hlive, rfl, fun _ _ => rfl, fun w _ y => by simp⟩

theorem Requested.next (h : Requested c zs s u) (hz : z ∉ zs) (hnew : Newcomer c s) :
    Requested c (zs ++ [z]) s (claimZone c true z u).2 := by
  have hzone : u.zar.table[z] = s.zar.table[z] := h.table z hz
  have hnew' : holdsIn c.who (claimsAt u.zar z) = false := by rw [claimsAt_of_table hzone]; exact hnew z
  have hframe := claimZone_frame c true z u
  refine ⟨(congrArg DevState.live (hframe.dev rfl)).trans h.live, Eq.trans (hframe .ftu rfl) h.frame, fun y hy => ?_,
    fun w hw y => ?_⟩
  · rw [List.mem_append, List.mem_singleton, not_or] at hy
    rw [(claimZone_zar c true z h.live).1, Zar.onClaims_get, if_neg hy.2, h.table y hy.1]
  · rw [claimZone_holdsIn h.live hnew' hw y, h.held w hw y, hzone]
    by_cases hy : y = z
    · subst hy
      simp [-Fin.getElem_fin, hz]
    · simp [hy]

theorem Requested.holdsAny_of_passes (h : Requested c zs s u) (hnew : Newcomer c s) (hpass : passesIn c s zs w = true) :
    holdsAny u.zar w = true := by
  obtain ⟨z, hz, hpassed⟩ := List.any_eq_true.1 hpass
  cases he : s.zar.table[z] with
  | none =>
    rw [he] at hpassed
    cases hpassed
  | some e =>
    have hclaims : claimsAt s.zar z = e.claims := claimsAt_eq he
    rw [he, passedAt, Option.any_some] at hpassed
    obtain ⟨hheld, hw, hvictim⟩ := held_of_passesSafety (by rw [← hclaims]; exact hnew z) hpassed
    refine holdsAny_iff.2 ⟨z, ?_⟩
    rw [h.held w hw z, hclaims, hheld, he, victimAt, Option.bind_some]
    simp [hvictim]

/-- Nobody is passed in the zone that he is evicted from. -/
theorem not_passed_of_victim (hnew : Newcomer c s) (hvictim : victimAt s.zar.table[z] = some w) :
    passedAt c s.zar.table[z] w = false := by
  cases he : s.zar.table[z] with
  | none => rfl
  | some e =>
    have hclaims : claimsAt s.zar z = e.claims := claimsAt_eq he
    rw [he, victimAt, Option.bind_some] at hvictim
    rw [← Bool.not_eq_true, passedAt, Option.any_some]
    exact fun hpass => (held_of_passesSafety (by rw [← hclaims]; exact hnew z) hpass).2.2 hvictim

theorem Requested.holdsAny_iff (h : Requested c zs s u) (hw : w ≠ c.who) : holdsAny u.zar w = true ↔
    ∃ y : Fin 16, holdsIn w (claimsAt s.zar y) = true ∧ ¬(y ∈ zs ∧ victimAt s.zar.table[y] = some w) := by
  rw [Machine.holdsAny_iff]
  refine exists_congr fun y => ?_
  rw [h.held w hw y]
  simp [imp_iff_not_or]

section
variable {α : Type} {K : SlotKind α}

theorem SlotKind.Lawful.working_kept (h : K.Lawful) : K.working (K.kept c zs s) = K.working (K.get s) := by
  unfold SlotKind.kept
  split
  · rw [h.working_preempt, h.working_unheld]
  · exact h.working_unheld _ _

/-- A slot that does not work is not reached. -/
theorem SlotKind.Lawful.idle_step (h : K.Lawful) (hlive : u.smp.dev.live = true)
    (hnew : holdsIn c.who (claimsAt u.zar z) = false) (hidle : K.working (K.get u) = false) :
    K.get (claimZone c true z u).2 = K.get u := by
  rw [h.step hlive hnew]
  split
  · exact if_neg (by rw [hidle]; decide)
  · split
    · exact h.preempt_idle _ hidle
    · rfl

theorem SlotKind.Lawful.kept_of_victim (h : K.Lawful) (hnew : Newcomer c s) (hvictim : victimAt s.zar.table[z] = some K.who) :
    K.kept c (zs ++ [z]) s = K.unheld (zoneBit z) (K.kept c zs s) := by
  unfold SlotKind.kept
  rw [passesIn_append, not_passed_of_victim hnew hvictim, Bool.or_false, lostMask_append, if_pos hvictim]
  split
  · rw [h.unheld_preempt, h.unheld_unheld]
  · rw [h.unheld_unheld]

theorem SlotKind.Lawful.kept_of_not_victim (h : K.Lawful) (hvictim : victimAt s.zar.table[z] ≠ some K.who) :
    K.kept c (zs ++ [z]) s = if passedAt c s.zar.table[z] K.who then K.preempt (K.kept c zs s) else K.kept c zs s := by
  unfold SlotKind.kept
  rw [passesIn_append, lostMask_append, if_neg hvictim,
    show lostMask s zs K.who ||| 0 = lostMask s zs K.who from BitVec.or_zero]
  cases passedAt c s.zar.table[z] K.who <;> cases passesIn c s zs K.who <;> simp [h.preempt_preempt]

/-- A claimant that loses no zone at this one goes on holding what it held. -/
theorem Requested.holdsAny_next (h : Requested c zs s u) (hz : z ∉ zs) (hnew : Newcomer c s) (hw : w ≠ c.who)
    (hvictim : victimAt s.zar.table[z] ≠ some w) : holdsAny (claimZone c true z u).2.zar w = holdsAny u.zar w := by
  rw [Bool.eq_iff_iff, (h.next hz hnew).holdsAny_iff hw, h.holdsAny_iff hw]
  refine exists_congr fun y => and_congr_right fun _ => not_congr (and_congr_left fun hy => ?_)
  rw [List.mem_append, List.mem_singleton]
  exact or_iff_left fun heq => hvictim (heq ▸ hy)

/-- A claimant that holds no zone any more is neither evicted nor passed at the next one. -/
theorem Requested.untouched_of_gone (h : Requested c zs s u) (hz : z ∉ zs) (hnew : Newcomer c s) (hw : w ≠ c.who)
    (hgone : holdsAny u.zar w = false) :
    victimAt s.zar.table[z] ≠ some w ∧ passedAt c s.zar.table[z] w = false := by
  cases he : s.zar.table[z] with
  | none => exact ⟨nofun, rfl⟩
  | some e =>
    have hclaims : claimsAt s.zar z = e.claims := claimsAt_eq he
    have hnone : ¬holdsIn w e.claims = true := fun hheld => by
      rw [← Bool.not_eq_true, h.holdsAny_iff hw] at hgone
      exact hgone ⟨z, by rw [hclaims, hheld], fun hin => hz hin.1⟩
    refine ⟨fun hvictim => ?_, ?_⟩
    · rw [victimAt, Option.bind_some, Option.map_eq_some_iff] at hvictim
      obtain ⟨v, hv, rfl⟩ := hvictim
      refine hnone (holdsIn_iff.2 (List.mem_map.2 ⟨v, ?_, rfl⟩))
      unfold victimOf at hv
      split at hv
      · exact (List.mem_filter.1 (evictable_mem hv)).1
      · cases hv
    · rw [← Bool.not_eq_true, passedAt, Option.any_some]
      exact fun hpass => hnone (held_of_passesSafety (by rw [← hclaims]; exact hnew z) hpass).1

theorem SlotKind.Lawful.after_step (h : K.Lawful) (hreq : Requested c zs s u) (hz : z ∉ zs) (hnew : Newcomer c s)
    (hw : K.who ≠ c.who) (hworking : K.working (K.get s) = true) (hafter : K.After c zs s u) :
    K.After c (zs ++ [z]) s (claimZone c true z u).2 := by
  have hzone : u.zar.table[z] = s.zar.table[z] := hreq.table z hz
  have hnew' : holdsIn c.who (claimsAt u.zar z) = false := by rw [claimsAt_of_table hzone]; exact hnew z
  have hstep := h.step hreq.live hnew'
  rw [hzone, hreq.frame] at hstep
  have hpasses := (hreq.next hz hnew).holdsAny_of_passes (w := K.who) hnew
  have hsame := hreq.holdsAny_next (w := K.who) hz hnew hw
  generalize (claimZone c true z u).2 = t at *
  obtain ⟨hgoes, hget⟩ | ⟨hloses, hgone, hpass, hget⟩ := hafter
  · by_cases hvictim : victimAt s.zar.table[z] = some K.who
    · have hworks : K.working (K.get u) = true := by rw [hget, h.working_kept, hworking]
      rw [if_pos hvictim, SlotKind.lost, if_pos hworks, hget, ← h.kept_of_victim hnew hvictim] at hstep
      cases hstill : holdsAny t.zar K.who with
      | true => exact .inl ⟨.inr hstill, by rw [hstep, hstill, if_pos rfl]⟩
      | false =>
        have hpassed : passesIn c s (zs ++ [z]) K.who = false := by
          rw [← Bool.not_eq_true]
          exact fun hp => by rw [hpasses hp] at hstill; cases hstill
        refine .inr ⟨losesIn_append.2 (.inr hvictim), hstill, hpassed, ?_⟩
        rw [hstep, hstill, if_neg (by decide), SlotKind.kept, if_neg (by rw [hpassed]; decide),
          h.ended_unheld _ _ _ hworking]
    · refine .inl ⟨?_, by rw [hstep, if_neg hvictim, h.kept_of_not_victim hvictim, hget]⟩
      rw [hsame hvictim, losesIn_append, or_iff_left hvictim]
      exact hgoes
  · obtain ⟨hvictim, hpassed⟩ := hreq.untouched_of_gone hz hnew hw hgone
    refine .inr ⟨losesIn_append.2 (.inl hloses), by rw [hsame hvictim, hgone],
      by rw [passesIn_append, hpass, hpassed]; rfl, ?_⟩
    rw [hstep, if_neg hvictim, if_neg (by rw [hpassed]; decide), hget]

/-- What the zones of a safety newcomer's request make of a slot. -/
theorem SlotKind.Lawful.after (h : K.Lawful) (hlive : s.smp.dev.live = true) (hnew : Newcomer c s) (hw : K.who ≠ c.who)
    (a : ClaimAnswer) (zs : List (Fin 16)) (hzs : zs.Nodup) :
    Requested c zs s (zs.foldl (claimStep c true) (a, s)).2 ∧
      (K.working (K.get s) = true → K.After c zs s (zs.foldl (claimStep c true) (a, s)).2) ∧
      (K.working (K.get s) = false → K.get (zs.foldl (claimStep c true) (a, s)).2 = K.get s) := by
  induction zs using List.reverseRecOn with
  | nil =>
    refine ⟨requested_nil hlive, fun _ => .inl ⟨.inl (by simp [LosesIn]), ?_⟩, fun _ => rfl⟩
    have hmask : lostMask s [] K.who = 0 := zoneMask_ext fun y => by
      rw [lostMask, maskOf_getLsbD]
      exact BitVec.getLsbD_zero.symm
    rw [SlotKind.kept, passesIn, List.any_nil, if_neg (by decide), hmask, h.unheld_zero]
    rfl
  | append_singleton zs z ih =>
    obtain ⟨hzs, -, hdisj⟩ := List.nodup_append.1 hzs
    have hz : z ∉ zs := fun hz => hdisj z hz z (by simp) rfl
    obtain ⟨hreq, hafter, hidle⟩ := ih hzs
    rw [List.foldl_append]
    generalize zs.foldl (claimStep c true) (a, s) = acc at *
    have hnew' : holdsIn c.who (claimsAt acc.2.zar z) = false := by
      rw [claimsAt_of_table (hreq.table z hz)]
      exact hnew z
    refine ⟨hreq.next hz hnew, fun hworking => h.after_step hreq hz hnew hw hworking (hafter hworking),
      fun hidle' => ?_⟩
    exact (h.idle_step hreq.live hnew' (by rw [hidle hidle']; exact hidle')).trans (hidle hidle')

end

end Sys2Proof.Machine
end

section
/-! SUPPORT. The completions that the evictions of a SAFETY request bring about, and the records that they leave (R101,
R119). -/

namespace Sys2Proof.Machine

variable {s t u v : State} {c : Claim}

/-! ## One completion -/

/-- What a completion hands over: to which origin, under which anchor, with which results, and the end event. -/
structure Handback where
  origin : Origin
  epoch : Nat
  result : CueResult
  event : TriggerSource

/-- The completion is all that happens but for claims and slots. -/
def Completing (h : Handback) (u t : State) : Prop :=
  ∃ v, ChangesOnly [.zar, .cle, .msu] u v ∧
    ChangesOnly [.zar, .cle, .msu] (sourceEvent h.event (originCompleted h.origin h.epoch h.result v)) t

/-- The bytes of record `i` are as they were. -/
def RecordKept (s : State) (i : Nat) (u t : State) : Prop :=
  ∀ a, cueOffset s i ≤ a → a < cueOffset s i + 64 → t.mem.get a = u.mem.get a

theorem RecordKept.of_mem {i : Nat} (h : t.mem = u.mem) : RecordKept s i u t := fun a _ _ => by rw [h]

theorem RecordKept.trans {i : Nat} (h : RecordKept s i u v) (k : RecordKept s i v t) : RecordKept s i u t :=
  fun a hlo hhi => (k a hlo hhi).trans (h a hlo hhi)

theorem cueOffset_congr (h : t.ciu = s.ciu) (i : Nat) : cueOffset t i = cueOffset s i := by
  rw [cueOffset, cueOffset, h]

/-- A completion leaves every record that is not its origin's. -/
theorem originCompleted_recordKept {o : Origin} {epoch i : Nat} {r : CueResult} (hinside : CueListInside s)
    (hapart : ListApart s) (hi : i < s.ciu.listLength) (ho : o ≠ .cue i) :
    RecordKept s i s (originCompleted o epoch r s) := by
  intro a hlo hhi
  cases o with
  | trigger e =>
    exact writeReport_get_outside (s := onTrigger e _ s) e (record_apart_anchor hapart hi (by decide) hlo hhi)
  | cue j =>
    have hne : j ≠ i := fun h => ho (by rw [h])
    unfold originCompleted completeCue
    dsimp only
    split
    · have hwritten := writeDone_recordWritten (i := j) hinside r
      unfold RecordWritten at hwritten
      split at hwritten
      · refine hwritten.2.1 a fun hin => ?_
        unfold ResultByte cueOffset at hin
        unfold cueOffset at hlo hhi
        omega
      · rw [hwritten.1]
    · rfl

theorem sourceEvent_recordKept {i : Nat} (ev : TriggerSource) (hapart : ListApart s) (hi : i < s.ciu.listLength) :
    RecordKept s i s (sourceEvent ev s) := fun _ hlo hhi =>
  sourceEvent_get_outside ev (record_apart_anchor hapart hi (by decide) hlo hhi)

/-- The list and the anchor stand where they stood. -/
structure ListKept (s t : State) : Prop where
  ciu : t.ciu = s.ciu
  anchor : t.smp.anchor = s.smp.anchor
  inForce : t.smp.inForce = s.smp.inForce
  epoch : t.smp.anchorEpoch = s.smp.anchorEpoch

theorem ListKept.of_frame {ps : List Part} (h : ChangesOnly ps s t)
    (hps : sub ps [.zar, .cle, .msu, .mem, .events, .etu] = true) : ListKept s t :=
  have h := h.mono hps
  ⟨h .ciu rfl, h.anchor rfl, h.inForce rfl, h.epoch rfl⟩

theorem ListKept.apart (h : ListKept s t) (hapart : ListApart s) : ListApart t := by
  rw [ListApart, h.ciu, h.anchor]
  exact hapart

theorem ListKept.inside (h : ListKept s t) (hinside : CueListInside s) : CueListInside t := by
  rw [CueListInside, h.ciu]
  exact hinside

theorem RecordKept.of_list {i : Nat} (h : ListKept s v) (hkept : RecordKept v i u t) : RecordKept s i u t := fun a hlo hhi =>
  hkept a (by rw [cueOffset_congr h.ciu]; exact hlo) (by rw [cueOffset_congr h.ciu]; exact hhi)

theorem originCompleted_frame (o : Origin) (epoch : Nat) (r : CueResult) (s : State) :
    ChangesOnly [.mem, .events, .etu] s (originCompleted o epoch r s) := by
  cases o with
  | cue i => exact completeCue_then _ _ _ (.refl _ _) rfl
  | trigger e => exact triggerResult_then _ _ _ _ (.refl _ _) rfl

theorem Completing.recordKept {h : Handback} {i : Nat} (hc : Completing h u t) (hinside : CueListInside u)
    (hapart : ListApart u) (hi : i < u.ciu.listLength) (ho : h.origin ≠ .cue i) : RecordKept u i u t := by
  obtain ⟨v, huv, hvt⟩ := hc
  have hv : ListKept u v := .of_frame huv rfl
  have hlen : i < v.ciu.listLength := by rw [hv.ciu]; exact hi
  have horigin := originCompleted_frame h.origin h.epoch h.result v
  have hdone := originCompleted_recordKept (epoch := h.epoch) (r := h.result) (hv.inside hinside) (hv.apart hapart) hlen ho
  generalize originCompleted h.origin h.epoch h.result v = x at *
  have hx : ListKept v x := .of_frame horigin rfl
  have hsource := sourceEvent_recordKept h.event (hx.apart (hv.apart hapart))
    (show i < x.ciu.listLength by rw [hx.ciu]; exact hlen)
  refine RecordKept.trans (.of_mem (huv .mem rfl)) (RecordKept.of_list hv ?_)
  exact (hdone.trans (.of_list hx hsource)).trans (.of_mem (hvt .mem rfl))

/-- The flag CUE_DONE stays up. -/
def FlagKept (s t : State) : Prop := pendingFlag s .cueDone = true → pendingFlag t .cueDone = true

theorem FlagKept.of_events (h : t.smp.events = s.smp.events) : FlagKept s t := fun hs => by
  rw [pendingFlag, h]
  exact hs

theorem flag_or (e : BitVec 10) : (e ||| 1#10).getLsbD 0 = true := by simp

theorem flagKept_stable : TakingStable FlagKept where
  trans h k := fun hs => k (h hs)
  slots h := .of_events (h .events rfl)
  source ev s := .of_events (sourceEvent_then (ps := [.etu, .mem]) ev (.refl _ s) rfl .events rfl)
  origin o epoch r s := by
    cases o with
    | trigger e => exact .of_events (triggerResult_then (ps := [.etu, .mem]) _ _ _ _ (.refl _ s) rfl .events rfl)
    | cue j =>
      unfold originCompleted completeCue
      dsimp only
      split
      · unfold writeDone
        split
        · intro hs
          have hbit : s.smp.events.getLsbD 0 = true := hs
          rw [pendingFlag, raise_smp, writeCue_smp]
          refine (BitVec.getLsbD_or ..).trans ?_
          exact (congrArg (· || _) hbit).trans (Bool.true_or _)
        · exact .of_events rfl
      · exact .of_events rfl

theorem Completing.reads {h : Handback} {i : Nat} (hc : Completing h u t) (hinside : CueListInside u)
    (hapart : ListApart u) (hi : i < u.ciu.listLength) (ho : h.origin = .cue i) (hepoch : h.epoch = u.smp.anchorEpoch)
    (hforce : u.smp.inForce = true) : pendingFlag t .cueDone = true ∧ RecordReads u t i h.result 3 := by
  obtain ⟨v, huv, hvt⟩ := hc
  have hv : ListKept u v := .of_frame huv rfl
  have hlen : i < v.ciu.listLength := by rw [hv.ciu]; exact hi
  rw [ho, show originCompleted (.cue i) h.epoch h.result v = writeDone i h.result v from
    completeCue_of_epoch (hepoch.trans hv.epoch.symm) i h.result] at hvt
  obtain ⟨hreads, -, hevents⟩ := (if_pos (⟨hv.inForce.trans hforce, hlen⟩ :
    v.smp.inForce = true ∧ i < v.ciu.listLength)).mp (writeDone_recordWritten (hv.inside hinside) h.result)
  have hframe := writeDone_then i h.result (ChangesOnly.refl [.mem, .events] v) rfl
  generalize writeDone i h.result v = x at *
  have hx : ListKept v x := .of_frame hframe rfl
  have hsource := sourceEvent_recordKept h.event (hx.apart (hv.apart hapart))
    (show i < x.ciu.listLength by rw [hx.ciu]; exact hlen)
  have hlast : RecordKept v i x t := (RecordKept.of_list hx hsource).trans (.of_mem (hvt .mem rfl))
  refine ⟨?_, ?_⟩
  · have hsame : t.smp.events = x.smp.events :=
      Eq.trans (hvt .events rfl) (sourceEvent_then (ps := [.etu, .mem]) h.event (.refl _ x) rfl .events rfl)
    rw [pendingFlag, hsame, hevents]
    exact flag_or _
  · have hread := hreads.of_get fun a hlo hhi => hlast a hlo hhi
    rw [RecordReads, cueOffset_congr hv.ciu] at hread
    exact hread

/-! ## What the loss of a zone completes -/

/-- What an evicted clip that completes hands back. -/
def ClipSlot.handback (frame : Frame) (c : ClipSlot) : Handback where
  origin := c.origin
  epoch := c.epoch
  result := { status := .evicted, late := c.late, preempted := c.preempted, refused := c.refused,
              takeFrame := c.takeFrame, firstShown := c.firstShown.getD 0, endFrame := frame,
              framesShown := c.framesShown, litFrames := c.litFrames }
  event := .clipEnd c.tag

def MessageSlot.handback (frame : Frame) (m : MessageSlot) : Handback where
  origin := m.origin
  epoch := m.epoch
  result := { status := .evicted, late := m.late, preempted := m.preempted, refused := m.refused,
              takeFrame := m.takeFrame, firstShown := m.firstShown.getD 0, endFrame := frame,
              framesShown := m.framesShown, litFrames := m.litFrames }
  event := .messageEnd m.tag

theorem loseClip_effect (j : Fin 8) (m : ZoneMask) (s : State) :
    if s.cle.slots[j].working = true ∧ holdsAny s.zar (.clip j) = false ∧ s.cle.slots[j].outstanding = none then
      Completing (s.cle.slots[j].handback s.ftu.frame) s (loseClip .evicted j m s)
    else ChangesOnly [.zar, .cle, .msu] s (loseClip .evicted j m s) := by
  unfold loseClip
  cases hw : s.cle.slots[j].working with
  | false =>
    rw [if_neg (fun h => by cases h.1), if_neg (by decide)]
    exact .refl _ s
  | true =>
    rw [if_pos rfl]
    dsimp only
    generalize hs₁ : onClip j (fun c => { c with holdings := c.holdings &&& ~~~m }) s = s₁
    have hframe : ChangesOnly [.zar, .cle, .msu] s s₁ := by rw [← hs₁]; exact onClip_then _ _ (.refl _ s) rfl
    have hslot : s₁.cle.slots[j] = s.cle.slots[j].unheld m := by rw [← hs₁, onClip_get, if_pos rfl]; rfl
    have hzar : s₁.zar = s.zar := by rw [← hs₁]; rfl
    have hftu : s₁.ftu = s.ftu := hframe .ftu rfl
    rw [hzar]
    cases hholds : holdsAny s.zar (.clip j) with
    | true =>
      rw [if_neg (fun h => by cases h.2.1), if_pos rfl]
      exact hframe
    | false =>
      rw [if_neg Bool.false_ne_true]
      have hending : ChangesOnly [.zar, .cle, .msu] s (clipEnding .evicted j s₁) := clipEnding_frame .evicted j hframe rfl
      obtain ⟨hidle, -⟩ | ⟨-, f, hout, heq⟩ | ⟨-, hout, heq⟩ := endClip_cases .evicted j s₁
      · rw [hslot] at hidle
        exact absurd (hw.symm.trans hidle) (by decide)
      · rw [hslot] at hout
        rw [if_neg (fun h => by cases h.2.2.symm.trans hout), heq]
        exact hending
      · rw [hslot] at hout
        rw [if_pos ⟨rfl, rfl, hout⟩, heq, completeClip_eq, clipCompleted_eq]
        refine ⟨clipEnding .evicted j s₁, hending, onClip_then _ _ ?_ rfl⟩
        have hended : (clipEnding .evicted j s₁).cle.slots[j] = (s.cle.slots[j].unheld m).endedAt s.ftu.frame .evicted := by
          rw [clipEnding_cle]
          refine (upd_same _ _ _).trans ?_
          rw [hslot, hftu]
        rw [hended]
        exact .refl _ _

theorem loseMessage_effect (j : Fin 8) (m : ZoneMask) (s : State) :
    if s.msu.slots[j].working = true ∧ holdsAny s.zar (.message j) = false ∧ s.msu.slots[j].outstanding = none then
      Completing (s.msu.slots[j].handback s.ftu.frame) s (loseMessage .evicted j m s)
    else ChangesOnly [.zar, .cle, .msu] s (loseMessage .evicted j m s) := by
  unfold loseMessage endMessage
  cases hw : s.msu.slots[j].working with
  | false =>
    rw [if_neg (fun h => by cases h.1), if_neg (by decide)]
    exact .refl _ s
  | true =>
    rw [if_pos rfl]
    dsimp only
    generalize hs₁ : onMessage j (fun c => { c with holdings := c.holdings &&& ~~~m }) s = s₁
    have hframe : ChangesOnly [.zar, .cle, .msu] s s₁ := by rw [← hs₁]; exact onMessage_then _ _ (.refl _ s) rfl
    have hslot : s₁.msu.slots[j] = s.msu.slots[j].unheld m := by rw [← hs₁, onMessage_get, if_pos rfl]; rfl
    have hzar : s₁.zar = s.zar := by rw [← hs₁]; rfl
    have hftu : s₁.ftu = s.ftu := hframe .ftu rfl
    rw [hzar]
    cases hholds : holdsAny s.zar (.message j) with
    | true =>
      rw [if_neg (fun h => by cases h.2.1), if_pos rfl]
      exact hframe
    | false =>
      rw [if_neg Bool.false_ne_true]
      have hending : ChangesOnly [.zar, .cle, .msu] s (messageEnding .evicted s₁.ftu.frame j s₁) :=
        onMessage_then _ _ (releaseClaims_then _ hframe rfl) rfl
      obtain ⟨hidle, -⟩ | ⟨-, f, hout, heq⟩ | ⟨-, hout, heq⟩ := endMessageAt_cases .evicted s₁.ftu.frame j s₁
      · rw [hslot] at hidle
        exact absurd (hw.symm.trans hidle) (by decide)
      · rw [hslot] at hout
        rw [if_neg (fun h => by cases h.2.2.symm.trans hout), heq]
        exact hending
      · rw [hslot] at hout
        rw [if_pos ⟨rfl, rfl, hout⟩, heq, completeMessage_eq, messageCompleted_eq]
        refine ⟨messageEnding .evicted s₁.ftu.frame j s₁, hending, onMessage_then _ _ ?_ rfl⟩
        have hended : (messageEnding .evicted s₁.ftu.frame j s₁).msu.slots[j] =
            (s.msu.slots[j].unheld m).endedAt s.ftu.frame .evicted := by
          rw [messageEnding, onMessage_get, if_pos rfl, hftu, ← hslot]
          rfl
        rw [hended]
        exact .refl _ _

/-! ## What one zone completes -/

/-- How a slot of one kind ends: with no outstanding frame it completes and hands back. -/
structure SlotKind.Ends {α : Type} (K : SlotKind α) (shown : α → Prop) (handback : Frame → α → Handback) : Prop where
  effect : ∀ m s, (K.working (K.get s) = true ∧ holdsAny s.zar K.who = false ∧ shown (K.get s) →
      Completing (handback s.ftu.frame (K.get s)) s (reportLost .evicted K.who m s)) ∧
    (¬(K.working (K.get s) = true ∧ holdsAny s.zar K.who = false ∧ shown (K.get s)) →
      ChangesOnly [.zar, .cle, .msu] s (reportLost .evicted K.who m s))
  shown_unheld : ∀ m x, shown (K.unheld m x) ↔ shown x
  shown_preempt : ∀ x, shown (K.preempt x) ↔ shown x
  handback_unheld : ∀ f m x, handback f (K.unheld m x) = handback f x
  origin_preempt : ∀ f x, (handback f (K.preempt x)).origin = (handback f x).origin

theorem clip_preempt_kept (c : ClipSlot) : c.preempt.outstanding = c.outstanding ∧ c.preempt.origin = c.origin := by
  unfold ClipSlot.preempt
  split <;> exact ⟨rfl, rfl⟩

theorem message_preempt_kept (m : MessageSlot) : m.preempt.outstanding = m.outstanding ∧ m.preempt.origin = m.origin := by
  unfold MessageSlot.preempt
  split <;> exact ⟨rfl, rfl⟩

theorem clipKind_ends (j : Fin 8) : (clipKind j).Ends (fun c => c.outstanding = none) ClipSlot.handback where
  effect m s :=
    ⟨fun h => (if_pos h).mp (loseClip_effect j m s), fun h => (if_neg h).mp (loseClip_effect j m s)⟩
  shown_unheld _ _ := Iff.rfl
  shown_preempt x := iff_of_eq (congrArg (· = none) (clip_preempt_kept x).1)
  handback_unheld _ _ _ := rfl
  origin_preempt _ x := (clip_preempt_kept x).2

theorem messageKind_ends (j : Fin 8) : (messageKind j).Ends (fun m => m.outstanding = none) MessageSlot.handback where
  effect m s :=
    ⟨fun h => (if_pos h).mp (loseMessage_effect j m s), fun h => (if_neg h).mp (loseMessage_effect j m s)⟩
  shown_unheld _ _ := Iff.rfl
  shown_preempt x := iff_of_eq (congrArg (· = none) (message_preempt_kept x).1)
  handback_unheld _ _ _ := rfl
  origin_preempt _ x := (message_preempt_kept x).2

variable {z : Fin 16} {zs : List (Fin 16)} {w : Claimant}

/-- What a zone does to others than the claimant that it evicts. -/
theorem claimZone_evicts (hlive : s.smp.dev.live = true) (hnew : holdsIn c.who (claimsAt s.zar z) = false) :
    (victimAt s.zar.table[z] = none ∧ ChangesOnly [.zar, .cle, .msu] s (claimZone c true z s).2) ∨
    ∃ w v, victimAt s.zar.table[z] = some w ∧ ChangesOnly [.zar, .cle, .msu] s v ∧
      (claimZone c true z s).2 = reportLost .evicted w (zoneBit z) v ∧
      ∀ {α : Type} {K : SlotKind α}, K.Lawful → K.who = w → K.get v = K.get s := by
  obtain ⟨hvictim, -, heq⟩ | ⟨e, he, -, ⟨hvictim, heq⟩ | ⟨v, hvictim, heq⟩⟩ := claimZone_safety z hlive hnew
  · exact .inl ⟨hvictim, by rw [heq]; exact .refl _ s⟩
  · refine .inl ⟨by rw [he, victimAt, Option.bind_some, hvictim]; rfl, ?_⟩
    rw [heq]
    exact placeClaim_frame z c s
  · refine .inr ⟨v.who, placeClaim z c (s.onZar fun a => a.onClaims z (removeClaim v.who)),
      by rw [he, victimAt, Option.bind_some, hvictim]; rfl, placeClaim_then z c (onZar_then _ (.refl _ s) rfl) rfl, heq,
      fun {α K} hK hwho => ?_⟩
    have he₁ : (s.onZar fun a => a.onClaims z (removeClaim v.who)).zar.table[z] =
        some { e with claims := removeClaim v.who e.claims } := by
      rw [State.onZar_zar, Zar.onClaims_get, if_pos rfl, he]
      rfl
    have hgone : passesHead c (removeClaim v.who e.claims) K.who = false := by
      rw [← Bool.not_eq_true, hwho]
      intro hpass
      unfold passesHead at hpass
      simp only [Bool.and_eq_true, beq_iff_eq] at hpass
      have hheld := holdsIn_of_headOf hpass.2
      rw [holdsIn_removeClaim] at hheld
      simp at hheld
    rw [hK.place z c _ _ he₁, hgone, if_neg Bool.false_ne_true, hK.zar]

theorem SlotKind.Ends.zone {α : Type} {K : SlotKind α} {shown : α → Prop} {handback : Frame → α → Handback}
    (h : K.Ends shown handback) (hK : K.Lawful) (hlive : s.smp.dev.live = true)
    (hnew : holdsIn c.who (claimsAt s.zar z) = false) (hvictim : victimAt s.zar.table[z] = some K.who) :
    (K.working (K.get s) = true ∧ holdsAny (claimZone c true z s).2.zar K.who = false ∧ shown (K.get s) →
      Completing (handback s.ftu.frame (K.get s)) s (claimZone c true z s).2) ∧
    (¬(K.working (K.get s) = true ∧ holdsAny (claimZone c true z s).2.zar K.who = false ∧ shown (K.get s)) →
      ChangesOnly [.zar, .cle, .msu] s (claimZone c true z s).2) := by
  obtain ⟨hnone, -⟩ | ⟨w, v, hw, hframe, heq, hget⟩ := claimZone_evicts hlive hnew
  · rw [hnone] at hvictim
    cases hvictim
  obtain rfl : w = K.who := Option.some.inj (hw.symm.trans hvictim)
  have hsame : K.get v = K.get s := hget hK rfl
  have hftu : v.ftu = s.ftu := hframe .ftu rfl
  obtain ⟨hcompletes, hquiet⟩ := h.effect (zoneBit z) v
  rw [hsame, hftu] at hcompletes
  rw [hsame] at hquiet
  rw [heq, reportLost_zar_eq]
  refine ⟨fun hcond => ?_, fun hcond => hframe.trans (hquiet hcond)⟩
  obtain ⟨x, hx, ht⟩ := hcompletes hcond
  exact ⟨x, hframe.trans hx, ht⟩

/-- A zone whose eviction completes nothing. -/
theorem claimZone_quiet (hlive : s.smp.dev.live = true) (hnew : holdsIn c.who (claimsAt s.zar z) = false)
    (hclip : ∀ j : Fin 8, victimAt s.zar.table[z] = some (.clip j) → s.cle.slots[j].working = true →
      s.cle.slots[j].outstanding ≠ none)
    (hmessage : ∀ j : Fin 8, victimAt s.zar.table[z] = some (.message j) → s.msu.slots[j].working = true →
      s.msu.slots[j].outstanding ≠ none) : ChangesOnly [.zar, .cle, .msu] s (claimZone c true z s).2 := by
  obtain ⟨-, hquiet⟩ | ⟨w, v, hw, hframe, heq, -⟩ := claimZone_evicts hlive hnew
  · exact hquiet
  · cases w with
    | clip j => exact ((clipKind_ends j).zone (clipKind_lawful j) hlive hnew hw).2 fun h => hclip j hw h.1 h.2.2
    | message j => exact ((messageKind_ends j).zone (messageKind_lawful j) hlive hnew hw).2 fun h => hmessage j hw h.1 h.2.2
    | group g =>
      rw [heq]
      exact hframe

/-- A zone leaves a record that no slot which it ends has as its origin. -/
theorem claimZone_recordKept {r : Nat} (hlive : s.smp.dev.live = true) (hnew : holdsIn c.who (claimsAt s.zar z) = false)
    (hinside : CueListInside s) (hapart : ListApart s) (hr : r < s.ciu.listLength)
    (hclip : ∀ j : Fin 8, victimAt s.zar.table[z] = some (.clip j) → s.cle.slots[j].working = true →
      s.cle.slots[j].origin ≠ .cue r)
    (hmessage : ∀ j : Fin 8, victimAt s.zar.table[z] = some (.message j) → s.msu.slots[j].working = true →
      s.msu.slots[j].origin ≠ .cue r) : RecordKept s r s (claimZone c true z s).2 := by
  obtain ⟨-, hquiet⟩ | ⟨w, v, hw, hframe, heq, -⟩ := claimZone_evicts hlive hnew
  · exact .of_mem (hquiet .mem rfl)
  · cases w with
    | clip j =>
      obtain ⟨hdone, hquiet⟩ := (clipKind_ends j).zone (clipKind_lawful j) hlive hnew hw
      by_cases hcond : s.cle.slots[j].working = true ∧ holdsAny (claimZone c true z s).2.zar (.clip j) = false ∧
          s.cle.slots[j].outstanding = none
      · exact (hdone hcond).recordKept hinside hapart hr (hclip j hw hcond.1)
      · exact .of_mem (hquiet hcond .mem rfl)
    | message j =>
      obtain ⟨hdone, hquiet⟩ := (messageKind_ends j).zone (messageKind_lawful j) hlive hnew hw
      by_cases hcond : s.msu.slots[j].working = true ∧ holdsAny (claimZone c true z s).2.zar (.message j) = false ∧
          s.msu.slots[j].outstanding = none
      · exact (hdone hcond).recordKept hinside hapart hr (hmessage j hw hcond.1)
      · exact .of_mem (hquiet hcond .mem rfl)
    | group g =>
      rw [heq]
      exact .of_mem (hframe .mem rfl)

end Sys2Proof.Machine
end

section
/-! SUPPORT. O23: a POST_MESSAGE of class SAFETY, with its evictions and the records that these complete (R66 to R70, R101,
R109, R119). -/

namespace Sys2Proof.Machine

variable {s t u v : State} {c : Claim} {zs : List (Fin 16)} {z : Fin 16} {w : Claimant}

/-! ## The records of the evicted -/

/-- The record of a claimant under the anchor in force that no other slot has as its origin. -/
structure OwnRecord (s : State) (w : Claimant) (r : Nat) : Prop where
  inForce : s.smp.inForce = true
  apart : ListApart s
  inside : CueListInside s
  inList : r < s.ciu.listLength
  clips : ∀ j : Fin 8, Claimant.clip j ≠ w → s.cle.slots[j].origin ≠ .cue r
  messages : ∀ j : Fin 8, Claimant.message j ≠ w → s.msu.slots[j].origin ≠ .cue r

/-- A slot that works in between works as it was handed over. -/
theorem SlotKind.Lawful.kept_of_working {α : Type} {K : SlotKind α} (h : K.Lawful)
    (hworks : K.working (K.get s) = true → K.After c zs s u) (hidle : K.working (K.get s) = false → K.get u = K.get s)
    (hworking : K.working (K.get u) = true) : K.working (K.get s) = true ∧ K.get u = K.kept c zs s := by
  cases hw : K.working (K.get s) with
  | false =>
    rw [hidle hw, hw] at hworking
    cases hworking
  | true =>
    obtain ⟨-, hget⟩ | ⟨-, -, -, hget⟩ := hworks hw
    · exact ⟨rfl, hget⟩
    · rw [hget, h.working_ended] at hworking
      cases hworking

section
variable {α : Type} {K : SlotKind α} {shown : α → Prop} {handback : Frame → α → Handback}

theorem SlotKind.Ends.shown_kept (h : K.Ends shown handback) : shown (K.kept c zs s) ↔ shown (K.get s) := by
  unfold SlotKind.kept
  split
  · rw [h.shown_preempt, h.shown_unheld]
  · rw [h.shown_unheld]

theorem SlotKind.Ends.origin_kept (h : K.Ends shown handback) (f : Frame) :
    (handback f (K.kept c zs s)).origin = (handback f (K.get s)).origin := by
  unfold SlotKind.kept
  split
  · rw [h.origin_preempt, h.handback_unheld]
  · rw [h.handback_unheld]

end

/-- The zones of a safety newcomer's request. -/
def afterZones (c : Claim) (a : ClaimAnswer) (zs : List (Fin 16)) (s : State) : ClaimAnswer × State :=
  zs.foldl (claimStep c true) (a, s)

theorem afterZones_append (c : Claim) (a : ClaimAnswer) (zs : List (Fin 16)) (z : Fin 16) (s : State) :
    (afterZones c a (zs ++ [z]) s).2 = (claimZone c true z (afterZones c a zs s).2).2 := by
  rw [afterZones, List.foldl_append]
  rfl

section
variable {a : ClaimAnswer}

theorem afterZones_clip (hlive : s.smp.dev.live = true) (hnew : Newcomer c s) (hzs : zs.Nodup) {j : Fin 8}
    (hj : Claimant.clip j ≠ c.who) (hworking : (afterZones c a zs s).2.cle.slots[j].working = true) :
    s.cle.slots[j].working = true ∧ (afterZones c a zs s).2.cle.slots[j] = (clipKind j).kept c zs s :=
  have h := (clipKind_lawful j).after hlive hnew hj a zs hzs
  (clipKind_lawful j).kept_of_working h.2.1 h.2.2 hworking

theorem afterZones_message (hlive : s.smp.dev.live = true) (hnew : Newcomer c s) (hzs : zs.Nodup) {j : Fin 8}
    (hj : Claimant.message j ≠ c.who) (hworking : (afterZones c a zs s).2.msu.slots[j].working = true) :
    s.msu.slots[j].working = true ∧ (afterZones c a zs s).2.msu.slots[j] = (messageKind j).kept c zs s :=
  have h := (messageKind_lawful j).after hlive hnew hj a zs hzs
  (messageKind_lawful j).kept_of_working h.2.1 h.2.2 hworking

theorem Newcomer.of_victim (hnew : Newcomer c s) (hvictim : victimAt s.zar.table[z] = some w) : w ≠ c.who := by
  rintro rfl
  cases he : s.zar.table[z] with
  | none =>
    rw [he] at hvictim
    cases hvictim
  | some e =>
    have hclaims : claimsAt s.zar z = e.claims := claimsAt_eq he
    rw [he, victimAt, Option.bind_some, Option.map_eq_some_iff] at hvictim
    obtain ⟨v, hv, hwho⟩ := hvictim
    have hheld : holdsIn c.who e.claims = true := by
      refine holdsIn_iff.2 (List.mem_map.2 ⟨v, ?_, hwho⟩)
      unfold victimOf at hv
      split at hv
      · exact (List.mem_filter.1 (evictable_mem hv)).1
      · cases hv
    rw [← hclaims, hnew z] at hheld
    cases hheld

theorem afterZones_requested (hlive : s.smp.dev.live = true) (hnew : Newcomer c s) (hzs : zs.Nodup) :
    Requested c zs s (afterZones c a zs s).2 := by
  induction zs using List.reverseRecOn with
  | nil => exact requested_nil hlive
  | append_singleton zs z ih =>
    obtain ⟨hzs, -, hdisj⟩ := List.nodup_append.1 hzs
    rw [afterZones_append]
    exact (ih hzs).next (fun hz => hdisj z hz z (by simp) rfl) hnew

theorem Requested.newcomer (h : Requested c zs s u) (hz : z ∉ zs) (hnew : Newcomer c s) :
    holdsIn c.who (claimsAt u.zar z) = false := by
  rw [claimsAt_of_table (h.table z hz)]
  exact hnew z

theorem nodup_of_append (h : (zs ++ [z]).Nodup) : zs.Nodup ∧ z ∉ zs := by
  obtain ⟨hzs, -, hdisj⟩ := List.nodup_append.1 h
  exact ⟨hzs, fun hz => hdisj z hz z (by simp) rfl⟩

/-- Where no evicted slot completes, the zones change claims and slots alone. -/
theorem afterZones_quiet (hlive : s.smp.dev.live = true) (hnew : Newcomer c s) (hzs : zs.Nodup)
    (hclip : ∀ j : Fin 8, LosesIn s zs (.clip j) → s.cle.slots[j].outstanding ≠ none)
    (hmessage : ∀ j : Fin 8, LosesIn s zs (.message j) → s.msu.slots[j].outstanding ≠ none) :
    ChangesOnly [.zar, .cle, .msu] s (afterZones c a zs s).2 := by
  induction zs using List.reverseRecOn with
  | nil => exact .refl _ s
  | append_singleton zs z ih =>
    obtain ⟨hzs, hz⟩ := nodup_of_append hzs
    have hreq := afterZones_requested (a := a) hlive hnew hzs
    have hclips := fun j => afterZones_clip (a := a) (j := j) hlive hnew hzs
    have hmessages := fun j => afterZones_message (a := a) (j := j) hlive hnew hzs
    have hprefix := ih hzs (fun j h => hclip j (losesIn_append.2 (.inl h))) fun j h => hmessage j (losesIn_append.2 (.inl h))
    rw [afterZones_append]
    generalize (afterZones c a zs s).2 = u at *
    refine hprefix.trans (claimZone_quiet hreq.live (hreq.newcomer hz hnew) (fun j hvictim hworking => ?_)
      fun j hvictim hworking => ?_)
    · rw [hreq.table z hz] at hvictim
      rw [(hclips j (hnew.of_victim hvictim) hworking).2]
      exact mt (clipKind_ends j).shown_kept.1 (hclip j (losesIn_append.2 (.inr hvictim)))
    · rw [hreq.table z hz] at hvictim
      rw [(hmessages j (hnew.of_victim hvictim) hworking).2]
      exact mt (messageKind_ends j).shown_kept.1 (hmessage j (losesIn_append.2 (.inr hvictim)))

theorem afterZones_frame (c : Claim) (a : ClaimAnswer) (zs : List (Fin 16)) (s : State) :
    ChangesOnly [.cle, .msu, .zar, .mem, .events, .etu] s (afterZones c a zs s).2 := by
  induction zs using List.reverseRecOn with
  | nil => exact .refl _ s
  | append_singleton zs z ih =>
    rw [afterZones_append]
    exact ChangesOnly.trans ih (claimZone_frame c true z _)

theorem afterZones_list (c : Claim) (a : ClaimAnswer) (zs : List (Fin 16)) (s : State) :
    ListKept s (afterZones c a zs s).2 := .of_frame (afterZones_frame c a zs s) rfl

/-- A slot that a zone evicts and that completes leaves its results in its own record, and nothing overwrites them. -/
theorem afterZones_record {α : Type} {K : SlotKind α} {shown : α → Prop} {handback : Frame → α → Handback}
    (hK : K.Lawful) (hends : K.Ends shown handback) (hlive : s.smp.dev.live = true) (hnew : Newcomer c s)
    (hwho : K.who ≠ c.who) {r : Nat} (hown : OwnRecord s K.who r)
    (horigin : (handback s.ftu.frame (K.get s)).origin = .cue r)
    (hepoch : (handback s.ftu.frame (K.get s)).epoch = s.smp.anchorEpoch) (hworking : K.working (K.get s) = true)
    (hshown : shown (K.get s)) (hzs : zs.Nodup) (hloses : LosesIn s zs K.who)
    (hgone : holdsAny (afterZones c a zs s).2.zar K.who = false) :
    pendingFlag (afterZones c a zs s).2 .cueDone = true ∧
      RecordReads s (afterZones c a zs s).2 r (handback s.ftu.frame (K.get s)).result 3 := by
  induction zs using List.reverseRecOn with
  | nil =>
    obtain ⟨z, hz, -⟩ := hloses
    cases hz
  | append_singleton zs z ih =>
    obtain ⟨hzs, hz⟩ := nodup_of_append hzs
    have hreq := afterZones_requested (a := a) hlive hnew hzs
    have hclips := fun j => afterZones_clip (a := a) (j := j) hlive hnew hzs
    have hmessages := fun j => afterZones_message (a := a) (j := j) hlive hnew hzs
    have hlist := afterZones_list c a zs s
    have hafter : K.After c zs s (afterZones c a zs s).2 := (hK.after hlive hnew hwho a zs hzs).2.1 hworking
    rw [afterZones_append] at hgone ⊢
    specialize ih hzs
    generalize (afterZones c a zs s).2 = u at *
    have hnewz := hreq.newcomer hz hnew
    have hinside := hlist.inside hown.inside
    have hapart := hlist.apart hown.apart
    have hr : r < u.ciu.listLength := by rw [hlist.ciu]; exact hown.inList
    by_cases hvictim : victimAt s.zar.table[z] = some K.who
    · have hheld : holdsAny u.zar K.who = true := by
        by_contra hnone
        exact (hreq.untouched_of_gone hz hnew hwho (Bool.eq_false_of_not_eq_true hnone)).1 hvictim
      have hpass : passesIn c s zs K.who = false := by
        rw [← Bool.not_eq_true]
        intro hpass
        have hstill := (hreq.next hz hnew).holdsAny_of_passes (w := K.who) hnew
          (by rw [passesIn_append, hpass, Bool.true_or])
        rw [hgone] at hstill
        cases hstill
      obtain ⟨-, hget⟩ | ⟨-, hnone, -, -⟩ := hafter
      · have hslot : K.get u = K.unheld (lostMask s zs K.who) (K.get s) := by
          rw [hget, SlotKind.kept, if_neg (by rw [hpass]; decide)]
        have hdone := (hends.zone hK hreq.live hnewz (by rw [hreq.table z hz]; exact hvictim)).1
          ⟨by rw [hslot, hK.working_unheld, hworking], hgone, by rw [hslot, hends.shown_unheld]; exact hshown⟩
        rw [hslot, hends.handback_unheld, hreq.frame] at hdone
        obtain ⟨hflag, hreads⟩ := hdone.reads hinside hapart hr horigin (hepoch.trans hlist.epoch.symm)
          (hlist.inForce.trans hown.inForce)
        rw [RecordReads, cueOffset_congr hlist.ciu] at hreads
        exact ⟨hflag, hreads⟩
      · rw [hheld] at hnone
        cases hnone
    · rw [hreq.holdsAny_next hz hnew hwho hvictim] at hgone
      have hlost : LosesIn s zs K.who := (losesIn_append.1 hloses).resolve_right hvictim
      obtain ⟨hflag, hreads⟩ := ih hlost hgone
      refine ⟨flagKept_stable.claimZone c true z u hflag, ?_⟩
      have hkept : RecordKept u r u (claimZone c true z u).2 :=
        claimZone_recordKept hreq.live hnewz hinside hapart hr (fun j hvj hwj => ?_) fun j hvj hwj => ?_
      · exact hreads.of_get fun x hlo hhi => RecordKept.of_list hlist hkept x hlo hhi
      · rw [hreq.table z hz] at hvj
        rw [(hclips j (hnew.of_victim hvj) hwj).2]
        intro ho
        refine hown.clips j (fun heq => hvictim (heq ▸ hvj)) ?_
        rw [← ho]
        exact ((clipKind_ends j).origin_kept 0).symm
      · rw [hreq.table z hz] at hvj
        rw [(hmessages j (hnew.of_victim hvj) hwj).2]
        intro ho
        refine hown.messages j (fun heq => hvictim (heq ▸ hvj)) ?_
        rw [← ho]
        exact ((messageKind_ends j).origin_kept 0).symm

end

/-! ## What the statements say of an eviction -/

theorem victimOf_eq_some_iff {cs : List Claim} {v : Claim} : victimOf cs = some v ↔
    5 ≤ (nonGroup cs).length ∧ (nonGroup cs).getLast? = some v ∧ v.level ≠ 0 := by
  have hevict : evictable cs = some v ↔ (nonGroup cs).getLast? = some v ∧ v.level ≠ 0 := by
    cases hlast : (nonGroup cs).getLast? with
    | none => rw [evictable, hlast]; simp
    | some x =>
      rw [evictable_of_last hlast]
      split
      · next hzero =>
        refine iff_of_false nofun ?_
        rintro ⟨heq, hlevel⟩
        exact hlevel (Option.some.inj heq ▸ hzero)
      · next hlevel => exact ⟨fun h => ⟨h, Option.some.inj h ▸ hlevel⟩, fun h => h.1⟩
  unfold victimOf
  split
  · next hfull => rw [hevict, and_iff_right ((fullList_iff cs).1 hfull)]
  · next hroom => exact iff_of_false nofun fun h => hroom ((fullList_iff cs).2 h.1)

theorem evictedFrom_iff {e : ZoneEntry} {v : Claim} (he : s.zar.table[z] = some e) :
    EvictedFrom s z v ↔ victimOf e.claims = some v := by
  rw [victimOf_eq_some_iff, EvictedFrom, he]
  exact ⟨fun ⟨x, hx, h⟩ => by cases hx; exact h, fun h => ⟨e, rfl, h⟩⟩

theorem victimAt_iff : victimAt s.zar.table[z] = some w ↔ ∃ v, EvictedFrom s z v ∧ v.who = w := by
  cases he : s.zar.table[z] with
  | none =>
    refine iff_of_false nofun ?_
    rintro ⟨v, ⟨e, hx, -⟩, -⟩
    rw [he] at hx
    cases hx
  | some e =>
    simp only [evictedFrom_iff he]
    rw [victimAt, Option.bind_some, Option.map_eq_some_iff]

theorem loses_iff {zones : ZoneMask} : Loses s zones w z ↔ z ∈ zonesOf zones ∧ victimAt s.zar.table[z] = some w := by
  rw [Loses, mem_zonesOf, victimAt_iff]

theorem losesIn_iff {zones : ZoneMask} : LosesIn s (zonesOf zones) w ↔ ∃ z, Loses s zones w z :=
  exists_congr fun _ => loses_iff.symm

theorem lostMask_iff {zones : ZoneMask} : (lostMask s (zonesOf zones) w).getLsbD z.val = true ↔ Loses s zones w z := by
  rw [lostMask, maskOf_getLsbD, Bool.and_eq_true, decide_eq_true_iff, beq_iff_eq, loses_iff]

theorem unheld_iff {zones : ZoneMask} {m : ZoneMask} : (m &&& ~~~lostMask s (zonesOf zones) w).getLsbD z.val = true ↔
    m.getLsbD z.val = true ∧ ¬Loses s zones w z := by
  rw [BitVec.getLsbD_and, BitVec.getLsbD_not, ← lostMask_iff]
  have := z.isLt
  simp [this]

theorem clip_kept_shape {zones : ZoneMask} {j : Fin 8} {d : ClipSlot} (h : d = (clipKind j).kept c (zonesOf zones) s) :
    d = { s.cle.slots[j] with holdings := d.holdings, preempted := d.preempted } ∧
      ∀ z : Fin 16, d.holdings.getLsbD z.val = true ↔
        s.cle.slots[j].holdings.getLsbD z.val = true ∧ ¬Loses s zones (.clip j) z := by
  have hshape : ∃ b, d = { s.cle.slots[j].unheld (lostMask s (zonesOf zones) (.clip j)) with preempted := b } := by
    rw [h, SlotKind.kept]
    split
    · show ∃ b, ClipSlot.preempt _ = _
      unfold ClipSlot.preempt
      split
      · exact ⟨true, rfl⟩
      · exact ⟨_, rfl⟩
    · exact ⟨_, rfl⟩
  obtain ⟨b, rfl⟩ := hshape
  exact ⟨rfl, fun z => unheld_iff⟩

theorem message_kept_shape {zones : ZoneMask} {j : Fin 8} {d : MessageSlot}
    (h : d = (messageKind j).kept c (zonesOf zones) s) :
    d = { s.msu.slots[j] with holdings := d.holdings, preempted := d.preempted } ∧
      ∀ z : Fin 16, d.holdings.getLsbD z.val = true ↔
        s.msu.slots[j].holdings.getLsbD z.val = true ∧ ¬Loses s zones (.message j) z := by
  have hshape : ∃ b, d = { s.msu.slots[j].unheld (lostMask s (zonesOf zones) (.message j)) with preempted := b } := by
    rw [h, SlotKind.kept]
    split
    · show ∃ b, MessageSlot.preempt _ = _
      unfold MessageSlot.preempt
      split
      · exact ⟨true, rfl⟩
      · exact ⟨_, rfl⟩
    · exact ⟨_, rfl⟩
  obtain ⟨b, rfl⟩ := hshape
  exact ⟨rfl, fun z => unheld_iff⟩

/-- What stands between the zones of the request and the state that the statement speaks of. -/
structure AfterRequest (i : Nat) (u t : State) : Prop where
  zar : t.zar = u.zar
  flag : FlagKept u t
  record : ∀ r, r ≠ i → RecordKept u r u t

section
variable {zones : ZoneMask} {a : ClaimAnswer} {i : Nat} {j : Fin 8}

theorem afterZones_clipEvicted (hlive : s.smp.dev.live = true) (hnew : Newcomer c s) (hj : Claimant.clip j ≠ c.who)
    (hinside : CueListInside s) (hrest : AfterRequest i (afterZones c a (zonesOf zones) s).2 t)
    (hslot : t.cle.slots[j] = (afterZones c a (zonesOf zones) s).2.cle.slots[j]) : ClipEvicted s t zones i j := by
  obtain ⟨-, hafter, hidle⟩ := (clipKind_lawful j).after hlive hnew hj a (zonesOf zones) (zonesOf_nodup zones)
  have hrecord := fun r => afterZones_record (a := a) (r := r) (zs := zonesOf zones) (clipKind_lawful j) (clipKind_ends j) hlive hnew hj
  have hlist := afterZones_list c a (zonesOf zones) s
  unfold afterZones at *
  generalize ((zonesOf zones).foldl (claimStep c true) (a, s)).2 = u at *
  unfold ClipEvicted
  dsimp only
  rw [hrest.zar, hslot]
  refine ⟨hidle, fun hw hkeeps => ?_, fun hw hloses hgone => ?_⟩
  · obtain ⟨-, hget⟩ | ⟨hloses, hgone, -, -⟩ := hafter hw
    · exact clip_kept_shape hget
    · obtain ⟨z, hz⟩ := losesIn_iff.1 hloses
      obtain hnone | hholds := hkeeps
      · exact absurd hz (hnone z)
      · exact absurd (hholds.symm.trans hgone) (by decide)
  · have hlost : LosesIn s (zonesOf zones) (.clip j) := losesIn_iff.2 hloses
    obtain ⟨hnot | hholds, -⟩ | ⟨-, -, -, hget⟩ := hafter hw
    · exact absurd hlost hnot
    · exact absurd (hholds.symm.trans hgone) (by decide)
    have hended : u.cle.slots[j] = if s.cle.slots[j].outstanding = none then ClipSlot.cleared
        else s.cle.slots[j].endedAt s.ftu.frame .evicted := Eq.trans hget (if_pos hw)
    rw [hended]
    refine ⟨fun f hout => if_neg (by rw [hout]; nofun), fun hout => ⟨if_pos hout, fun r hown => ?_⟩⟩
    obtain ⟨horigin, hepoch, hforce, hapart, hr, hri, hclips, hmessages⟩ := hown
    have hownRecord : OwnRecord s (.clip j) r := ⟨hforce, hapart, hinside, hr,
      fun l hl => hclips l fun heq => hl (by rw [heq]), fun l _ => hmessages l⟩
    obtain ⟨hflag, hreads⟩ := hrecord r hownRecord horigin hepoch hw hout (zonesOf_nodup zones) hlost hgone
    exact ⟨hrest.flag hflag, hreads.of_get fun x hlo hhi =>
      RecordKept.of_list hlist (hrest.record r hri) x hlo hhi⟩

theorem afterZones_messageEvicted (hlive : s.smp.dev.live = true) (hnew : Newcomer c s) (hj : Claimant.message j ≠ c.who)
    (hinside : CueListInside s) (hrest : AfterRequest i (afterZones c a (zonesOf zones) s).2 t)
    (hslot : t.msu.slots[j] = (afterZones c a (zonesOf zones) s).2.msu.slots[j]) : MessageEvicted s t zones i j := by
  obtain ⟨-, hafter, hidle⟩ := (messageKind_lawful j).after hlive hnew hj a (zonesOf zones) (zonesOf_nodup zones)
  have hrecord := fun r => afterZones_record (a := a) (r := r) (zs := zonesOf zones) (messageKind_lawful j) (messageKind_ends j) hlive hnew hj
  have hlist := afterZones_list c a (zonesOf zones) s
  unfold afterZones at *
  generalize ((zonesOf zones).foldl (claimStep c true) (a, s)).2 = u at *
  unfold MessageEvicted
  dsimp only
  rw [hrest.zar, hslot]
  refine ⟨hidle, fun hw hkeeps => ?_, fun hw hloses hgone => ?_⟩
  · obtain ⟨-, hget⟩ | ⟨hloses, hgone, -, -⟩ := hafter hw
    · exact message_kept_shape hget
    · obtain ⟨z, hz⟩ := losesIn_iff.1 hloses
      obtain hnone | hholds := hkeeps
      · exact absurd hz (hnone z)
      · exact absurd (hholds.symm.trans hgone) (by decide)
  · have hlost : LosesIn s (zonesOf zones) (.message j) := losesIn_iff.2 hloses
    obtain ⟨hnot | hholds, -⟩ | ⟨-, -, -, hget⟩ := hafter hw
    · exact absurd hlost hnot
    · exact absurd (hholds.symm.trans hgone) (by decide)
    have hended : u.msu.slots[j] = if s.msu.slots[j].outstanding = none then MessageSlot.cleared
        else s.msu.slots[j].endedAt s.ftu.frame .evicted := Eq.trans hget (if_pos hw)
    rw [hended]
    refine ⟨fun f hout => if_neg (by rw [hout]; nofun), fun hout => ⟨if_pos hout, fun r hown => ?_⟩⟩
    obtain ⟨horigin, hepoch, hforce, hapart, hr, hri, hmessages, hclips⟩ := hown
    have hownRecord : OwnRecord s (.message j) r := ⟨hforce, hapart, hinside, hr, fun l _ => hclips l,
      fun l hl => hmessages l fun heq => hl (by rw [heq])⟩
    obtain ⟨hflag, hreads⟩ := hrecord r hownRecord horigin hepoch hw hout (zonesOf_nodup zones) hlost hgone
    exact ⟨hrest.flag hflag, hreads.of_get fun x hlo hhi =>
      RecordKept.of_list hlist (hrest.record r hri) x hlo hhi⟩

end

end Sys2Proof.Machine
end

section
/-! SUPPORT. O23: an accepted POST_MESSAGE, ORDINARY or SAFETY (R66 to R70, R109, R110, R115, R116). -/

namespace Sys2Proof.Machine

variable {s t u v : State} {c : Claim} {zones : ZoneMask} {z : Fin 16} {w : Claimant}

/-! ## The heads that a SAFETY request passes -/

theorem eq_of_who_eq {cs : List Claim} (hnodup : (cs.map Claim.who).Nodup) {a b : Claim} (ha : a ∈ cs) (hb : b ∈ cs)
    (h : a.who = b.who) : a = b := List.inj_on_of_nodup_map hnodup ha hb h

/-- The last of five non-group claims heads no list. -/
theorem headOf_ne_victim {cs : List Claim} {x : Claim} (hwf : claimsWf cs) (h : victimOf cs = some x) :
    headOf cs ≠ some x.who := by
  obtain ⟨-, -, -, hnodup, -⟩ := hwf
  obtain ⟨hlength, hlast, -⟩ := victimOf_eq_some_iff.1 h
  cases cs with
  | nil => exact nofun
  | cons y ys =>
    intro hhead
    have hwho : y.who = x.who := Option.some.inj hhead
    have hmem : x ∈ y :: ys := (List.mem_filter.1 (List.mem_of_getLast? hlast)).1
    obtain rfl : y = x := eq_of_who_eq hnodup List.mem_cons_self hmem hwho
    have hgroup : (!y.who.isGroup) = true := (List.mem_filter.1 (List.mem_of_getLast? hlast)).2
    have hsplit : nonGroup (y :: ys) = y :: nonGroup ys := List.filter_cons_of_pos hgroup
    rw [hsplit] at hlength hlast
    have hnotin : y ∉ ys := fun hin => (List.nodup_cons.1 hnodup).1 (List.mem_map.2 ⟨y, hin, rfl⟩)
    cases hrest : nonGroup ys with
    | nil =>
      rw [hrest] at hlength
      simp at hlength
    | cons b bs =>
      rw [hrest, List.getLast?_cons_cons, ← hrest] at hlast
      exact hnotin (List.mem_filter.1 (List.mem_of_getLast? hlast)).1

theorem headOf_removeClaim {cs : List Claim} {x : Claimant} (h : headOf cs ≠ some x) :
    headOf (removeClaim x cs) = headOf cs := by
  cases cs with
  | nil => rfl
  | cons y ys =>
    have hne : (y.who != x) = true := bne_iff_ne.2 fun heq => h (congrArg some heq)
    have hcons : removeClaim x (y :: ys) = y :: removeClaim x ys := List.filter_cons_of_pos hne
    rw [hcons]
    rfl

theorem headOf_clearedFor {cs : List Claim} (hwf : claimsWf cs) : headOf (clearedFor cs) = headOf cs := by
  cases h : victimOf cs with
  | none => rw [clearedFor_of_none h]
  | some x => rw [clearedFor_of_victim h, headOf_removeClaim (headOf_ne_victim hwf h)]

/-- A safety newcomer passes the heads that it takes. -/
theorem takesHead_iff {r : ClaimAnswer × State} (hformed : ClaimListsFormed s) (hnew : Newcomer c s)
    (hmade : ClaimsMade c true (zonesOf zones) (⟨0, 0⟩, s) r) (hzar : t.zar = r.2.zar) (old : Claimant) :
    TakesHead s t c.who old ↔ passesIn c s (zonesOf zones) old = true := by
  have hpassed (z : Fin 16) : (headOf (claimsAt r.2.zar z) = some c.who ∧ headOf (claimsAt s.zar z) = some old) ↔
      z ∈ zonesOf zones ∧ passedAt c s.zar.table[z] old = true := by
    have htable := hmade.table z
    have hnewz := hnew z
    by_cases hz : z ∈ zonesOf zones
    · rw [if_pos hz] at htable
      cases he : s.zar.table[z] with
      | none =>
        rw [claimsAt_eq he]
        exact iff_of_false (fun h => by cases h.2) fun h => by cases h.2
      | some e =>
        have hclaims : claimsAt s.zar z = e.claims := claimsAt_eq he
        rw [hclaims] at hnewz ⊢
        have hlist : claimsAt r.2.zar z = claimedList c true e.claims :=
          claimsAt_eq (o := some { e with claims := claimedList c true e.claims }) (htable.trans (by rw [he]; rfl))
        rw [hlist, claimedList_safety hnewz, passedAt, Option.any_some, passesSafety]
        cases htakes : takesSafety e.claims with
        | false =>
          rw [if_neg (by decide)]
          exact iff_of_false (fun h => headOf_of_newcomer hnewz h.1) fun h => by cases h.2
        | true =>
          rw [if_pos rfl, Bool.true_and, passesHead, headOf_clearedFor (hformed.1 z e he).1]
          simp [hz]
    · rw [if_neg hz] at htable
      rw [claimsAt_of_table htable]
      exact iff_of_false (fun h => headOf_of_newcomer hnewz h.1) fun h => hz h.1
  rw [passesIn, List.any_eq_true, TakesHead, hzar]
  exact exists_congr hpassed

/-- What a safety newcomer's request pre-empts, as the statements say it. -/
theorem safety_preemptsHeads {a : ClaimAnswer} (hnew : Newcomer c s)
    (hlive : s.smp.dev.live = true)
    (htakes : ∀ old, TakesHead s t c.who old ↔ passesIn c s (zonesOf zones) old = true)
    (hclips : ∀ j : Fin 8, Claimant.clip j ≠ c.who →
      t.cle.slots[j] = (afterZones c a (zonesOf zones) s).2.cle.slots[j])
    (hmessages : ∀ j : Fin 8, Claimant.message j ≠ c.who →
      t.msu.slots[j] = (afterZones c a (zonesOf zones) s).2.msu.slots[j]) : PreemptsHeads s t c.who := by
  refine ⟨fun j hj hidle hending => ?_, fun j hj hshowing => ?_⟩
  · rw [hclips j hj] at hidle hending ⊢
    have hworking : (afterZones c a (zonesOf zones) s).2.cle.slots[j].working = true := by
      rw [clip_working_iff]
      cases hstate : (afterZones c a (zonesOf zones) s).2.cle.slots[j].state with
      | idle => exact absurd hstate hidle
      | ending => exact absurd hstate hending
      | playing => exact .inl rfl
      | held => exact .inr rfl
    obtain ⟨hw, hget⟩ := afterZones_clip hlive hnew (zonesOf_nodup zones) hj hworking
    rw [hget, htakes, SlotKind.kept]
    cases hpass : passesIn c s (zonesOf zones) (.clip j) with
    | false =>
      rw [if_neg (by rw [show passesIn c s (zonesOf zones) (clipKind j).who = false from hpass]; decide)]
      exact (or_iff_left (by decide)).symm
    | true =>
      rw [if_pos (show passesIn c s (zonesOf zones) (clipKind j).who = true from hpass)]
      refine iff_of_true ?_ (.inr rfl)
      exact congrArg ClipSlot.preempted (if_pos hw :
        ClipSlot.preempt (s.cle.slots[j].unheld (lostMask s (zonesOf zones) (.clip j))) = _)
  · rw [hmessages j hj] at hshowing ⊢
    obtain ⟨hw, hget⟩ := afterZones_message hlive hnew (zonesOf_nodup zones) hj (working_of_showing hshowing)
    rw [hget, htakes, SlotKind.kept]
    cases hpass : passesIn c s (zonesOf zones) (.message j) with
    | false =>
      rw [if_neg (by rw [show passesIn c s (zonesOf zones) (messageKind j).who = false from hpass]; decide)]
      exact (or_iff_left (by decide)).symm
    | true =>
      rw [if_pos (show passesIn c s (zonesOf zones) (messageKind j).who = true from hpass)]
      refine iff_of_true ?_ (.inr rfl)
      exact congrArg MessageSlot.preempted (if_pos hw :
        MessageSlot.preempt (s.msu.slots[j].unheld (lostMask s (zonesOf zones) (.message j))) = _)

/-! ## The zones and the record of a SAFETY request -/

/-- The lists that a safety newcomer leaves. -/
theorem safety_claims {r : ClaimAnswer × State} (hnew : Newcomer c s)
    (hmade : ClaimsMade c true (zonesOf zones) (⟨0, 0⟩, s) r) (z : Fin 16) :
    (r.1.taken.getLsbD z.val = false → claimsAt r.2.zar z = claimsAt s.zar z) ∧
    (r.1.taken.getLsbD z.val = true → ZoneTakes s z → claimsAt r.2.zar z = withClaim c (claimsAt s.zar z)) ∧
    ∀ v, r.1.taken.getLsbD z.val = true → EvictedFrom s z v →
      claimsAt r.2.zar z = withClaim c ((claimsAt s.zar z).filter fun d => d.who != v.who) := by
  have hlist := hmade.claimsAt z
  refine ⟨fun h => ?_, fun h hroom => ?_, fun v h hevict => ?_⟩
  · rw [hlist, h, if_neg (by decide)]
  · obtain ⟨e, he, hlength⟩ := hroom
    have hclaims : claimsAt s.zar z = e.claims := claimsAt_eq he
    rw [hlist, h, if_pos rfl]
    exact claimedList_of_room (hnew z) (by rw [hclaims]; exact (fullList_eq_false_iff _).2 hlength)
  · obtain ⟨e, he, -⟩ := id hevict
    have hclaims : claimsAt s.zar z = e.claims := claimsAt_eq he
    have hvictim : victimOf (claimsAt s.zar z) = some v := by rw [hclaims]; exact (evictedFrom_iff he).1 hevict
    rw [hlist, h, if_pos rfl, claimedList_safety (hnew z), if_pos (takesSafety_of_victim hvictim),
      clearedFor_of_victim hvictim]
    rfl

/-- The record of a taken action leaves every other record, and reads as it should. -/
theorem writeCue_taken {i : Nat} (r : CueResult) (hinside : CueListInside u) :
    (∀ j, j ≠ i → RecordKept u j u (writeCue i r 2 u)) ∧
      (u.smp.inForce = true → i < u.ciu.listLength → RecordReads u (writeCue i r 2 u) i r 2) := by
  have hwritten := writeCue_recordWritten (i := i) hinside r (code := 2) (by decide)
  refine ⟨fun j hj a hlo hhi => ?_, fun hforce hlt => ?_⟩
  · unfold RecordWritten at hwritten
    split at hwritten
    · refine hwritten.2.1 a fun hin => ?_
      unfold ResultByte cueOffset at hin
      unfold cueOffset at hlo hhi
      omega
    · rw [hwritten.1]
  · exact ((if_pos (⟨hforce, hlt⟩ : u.smp.inForce = true ∧ i < u.ciu.listLength)).mp hwritten).1

theorem noneCompletes_clip (h : NoneCompletes s zones) (j : Fin 8) (hloses : LosesIn s (zonesOf zones) (.clip j)) :
    s.cle.slots[j].outstanding ≠ none := by
  obtain ⟨z, hz⟩ := losesIn_iff.1 hloses
  exact (h z j).1 hz

theorem noneCompletes_message (h : NoneCompletes s zones) (j : Fin 8) (hloses : LosesIn s (zonesOf zones) (.message j)) :
    s.msu.slots[j].outstanding ≠ none := by
  obtain ⟨z, hz⟩ := losesIn_iff.1 hloses
  exact (h z j).2 hz

theorem postMessage_safety (i : Nat) (late : Bool) (p : MessagePayload) (k : Fin 8) (s : State)
    (hinside : CueListInside s) (hformed : ClaimListsFormed s) (hhalt : s.msu.afterHalt = false) (hz : p.zones ≠ 0)
    (hcls : p.cls = 1) (hmode : p.mode.toNat ≤ 1) (hlength1 : 1 ≤ p.textLength.toNat)
    (hlength2 : p.textLength.toNat ≤ 120) (hregion : p.textOffset.toNat + p.textLength.toNat ≤ 2 ^ 32)
    (htag : ∀ j : Fin 8, s.msu.slots[j].state = .showing → s.msu.slots[j].tag ≠ p.tag)
    (hidle : s.msu.slots[k].state = .idle) (hfirst : ∀ j : Fin 8, j < k → s.msu.slots[j].state ≠ .idle)
    (hlive : s.smp.dev.live = true) (hfree : ∀ z : Fin 16, holdsIn (.message k) (claimsAt s.zar z) = false)
    (hsome : ∃ z : Fin 16, p.zones.getLsbD z.val = true ∧ (ZoneTakes s z ∨ ∃ v, EvictedFrom s z v)) :
    ∃ t, exec (.postMessage ⟨.cue i, late⟩ p) s = .next t ∧
      (let m := t.msu.slots[k]
       let posted := postedMessage s p (.cue i) late 0 m.holdings m.refused
       m = { posted with textWidth := m.textWidth, textHeight := m.textHeight, crawlSpan := m.crawlSpan } ∧
       (∀ z : Fin 16,
         (m.holdings.getLsbD z.val = true ↔
           p.zones.getLsbD z.val = true ∧ (ZoneTakes s z ∨ ∃ v, EvictedFrom s z v)) ∧
         (m.refused.getLsbD z.val = true ↔
           p.zones.getLsbD z.val = true ∧ ¬(ZoneTakes s z ∨ ∃ v, EvictedFrom s z v)) ∧
         (m.holdings.getLsbD z.val = false → claimsAt t.zar z = claimsAt s.zar z) ∧
         (m.holdings.getLsbD z.val = true → ZoneTakes s z →
           claimsAt t.zar z = withClaim ⟨.message k, 0⟩ (claimsAt s.zar z)) ∧
         ∀ v, m.holdings.getLsbD z.val = true → EvictedFrom s z v →
           claimsAt t.zar z = withClaim ⟨.message k, 0⟩ ((claimsAt s.zar z).filter fun d => d.who != v.who)) ∧
       (s.smp.inForce = true → i < s.ciu.listLength →
         RecordReads s t i (acceptedResult s.ftu.frame late m.refused) 2) ∧
       (NoneCompletes s p.zones → m = posted ∧ RecordWritten s t i (acceptedResult s.ftu.frame late m.refused) 2 ∧
         t.etu = s.etu)) ∧
      PreemptsHeads s t (.message k) ∧ (∀ j : Fin 8, ClipEvicted s t p.zones i j) ∧
      (∀ j : Fin 8, j ≠ k → MessageEvicted s t p.zones i j) ∧
      ChangesOnly [.mem, .events, .zar, .cle, .msu, .etu] s t := by
  have hvalues : messageValuesOk p = true :=
    (messageValuesOk_iff p).mpr ⟨hz, by rw [hcls]; decide, hmode, hlength1, hlength2⟩
  have hsafety : (p.cls == 1) = true := by rw [hcls]; decide
  have hclaim : messageClaim k p = ⟨.message k, 0⟩ := by rw [messageClaim, hsafety]; rfl
  have hnew : Newcomer (messageClaim k p) s := newcomer_of_message rfl hfree
  have htake := takeMessage_of_slot (h := ⟨.cue i, late⟩) (kept := RunSlots.none) hhalt hvalues
    ((messageRegionOk_iff p).mpr hregion) (messageWithTag_of_none fun j hw => htag j ((message_working_iff _).mp hw))
    (idleMessage_of_first hidle hfirst)
  rw [show messageClaims k p s = claimZones (messageClaim k p) true (zonesOf p.zones) s by
    rw [messageClaims, hsafety]] at htake
  rw [hclaim] at htake hnew
  have htaken := fun z => claims_taken_iff (safety := true) (zones := p.zones) hnew hlive z
  simp only [true_and] at htaken
  have hmade := claimZones_made ⟨.message k, 0⟩ true p.zones hlive
  have hzones : claimZones ⟨.message k, 0⟩ true (zonesOf p.zones) s = afterZones ⟨.message k, 0⟩ ⟨0, 0⟩ (zonesOf p.zones) s :=
    claimZones_eq _ _ _ _
  have hframe := afterZones_frame ⟨.message k, 0⟩ ⟨0, 0⟩ (zonesOf p.zones) s
  have hquiet := fun h : NoneCompletes s p.zones => afterZones_quiet (a := ⟨0, 0⟩) hlive hnew (zonesOf_nodup p.zones)
    (noneCompletes_clip h) (noneCompletes_message h)
  have hclip := fun i t j => afterZones_clipEvicted (a := ⟨0, 0⟩) (zones := p.zones) (i := i) (t := t) (j := j) hlive hnew
  have hmessage := fun i t j =>
    afterZones_messageEvicted (a := ⟨0, 0⟩) (zones := p.zones) (i := i) (t := t) (j := j) hlive hnew
  have hheads := fun t => safety_preemptsHeads (a := ⟨0, 0⟩) (zones := p.zones) (t := t) hnew hlive
  rw [hzones] at htake hmade
  simp only [hzones] at htaken
  obtain ⟨z0, hz0⟩ := hsome
  rw [if_neg (mask_ne_zero z0 ((htaken z0).1.mpr hz0))] at htake
  refine ⟨_, exec_postMessage _ _ _, ?_⟩
  rw [htake]
  clear htake hzones
  generalize afterZones ⟨.message k, 0⟩ ⟨0, 0⟩ (zonesOf p.zones) s = r at *
  have hshape := newMessage_shape (u := r.2) (s := s) p ⟨.cue i, late⟩ r.1 (hframe .ftu rfl) (hframe.epoch rfl) (hframe .clo rfl)
  have hposted := fun h => newMessage_posted (u := r.2) (s := s) p ⟨.cue i, late⟩ r.1 (hframe .ftu rfl)
    (hframe.epoch rfl) (hframe .clo rfl) (hquiet h .mem rfl) hmade.defn
  generalize hm : ((newMessage p r.1).withContent p r.2).withOrigin ⟨.cue i, late⟩ r.1.refused r.2 = m at hshape hposted ⊢
  have hlevel : (messageClaim 0 p).level = 0 := by rw [messageClaim, hsafety]; rfl
  rw [hlevel] at hshape hposted
  have hholdings : m.holdings = r.1.taken := by rw [hshape]; rfl
  have hrefused : m.refused = r.1.refused := by rw [hshape]; rfl
  have hslotFrame : ChangesOnly [.cle, .msu, .zar, .mem, .events, .etu] s (onMessage k (fun _ => m) r.2) :=
    onMessage_then _ _ hframe rfl
  have hlist : ListKept s (onMessage k (fun _ => m) r.2) := .of_frame hslotFrame rfl
  have heq : writeHandover ⟨.cue i, late⟩ (.accepted r.1.refused, onMessage k (fun _ => m) r.2) =
      writeCue i (acceptedResult s.ftu.frame late r.1.refused) 2 (onMessage k (fun _ => m) r.2) := by
    rw [← show (onMessage k (fun _ => m) r.2).ftu = s.ftu from hslotFrame .ftu rfl]
    rfl
  have hrecord := fun h => writeHandover_accepted (zones := r.1.refused) hinside i late
    (onMessage_then k (fun _ => m) (hquiet h) rfl)
  obtain ⟨hkept, hreads⟩ := writeCue_taken (i := i) (acceptedResult s.ftu.frame late r.1.refused) (hlist.inside hinside)
  rw [← heq] at hkept hreads
  have hwritten := writeHandover_accepted_frame (h := ⟨.cue i, late⟩) (zones := r.1.refused) rfl (onMessage k (fun _ => m) r.2)
  clear heq
  generalize writeHandover ⟨.cue i, late⟩ (Taking.accepted r.1.refused, onMessage k (fun _ => m) r.2) = t at *
  have hmsu : t.msu = (onMessage k (fun _ => m) r.2).msu := hwritten .msu rfl
  have hzar : t.zar = r.2.zar := hwritten .zar rfl
  have hcle : t.cle = r.2.cle := hwritten .cle rfl
  have hslot : t.msu.slots[k] = m := by rw [hmsu, onMessage_get, if_pos rfl]
  have hother : ∀ j : Fin 8, j ≠ k → t.msu.slots[j] = r.2.msu.slots[j] := fun j hj => by
    rw [hmsu, onMessage_get, if_neg hj]
  have hrest : AfterRequest i r.2 t :=
    ⟨hzar, .of_events (hwritten .events rfl), fun j hj x hlo hhi => hkept j hj x hlo hhi⟩
  rw [hslot]
  dsimp only
  rw [hholdings, hrefused]
  refine ⟨⟨?_, fun z => ⟨(htaken z).1, (htaken z).2, ?_⟩, fun hforce hlt => ?_, fun hnone => ⟨?_, ?_, ?_⟩⟩, ?_,
    fun j => hclip i t j nofun hinside hrest (by rw [hcle]),
    fun j hj => hmessage i t j (fun h => hj (Claimant.message.inj h)) hinside hrest (hother j hj),
    (hslotFrame.mono rfl).trans (hwritten.mono rfl)⟩
  · rw [hshape]
  · rw [hzar]
    exact safety_claims hnew hmade z
  · have h := hreads (hlist.inForce.trans hforce) (by rw [hlist.ciu]; exact hlt)
    rw [RecordReads, cueOffset_congr hlist.ciu] at h
    exact h
  · exact hposted hnone
  · exact hrecord hnone
  · exact Eq.trans (hwritten .etu rfl) (hquiet hnone .etu rfl)
  · exact hheads t (takesHead_iff hformed hnew hmade hzar) (fun j _ => by rw [hcle])
      fun j hj => hother j fun h => hj (by rw [h])

/-- Settles O23. -/
theorem postMessageAcceptedShows : Obligations.PostMessageAcceptedShows := ⟨postMessage_ordinary, postMessage_safety⟩

end Sys2Proof.Machine
end

section
/-! SUPPORT. The records of the cue list as the scan reads them, and what the actions that it takes keep (R34 to R36,
R40 to R42). -/

namespace Sys2Proof.Machine

variable {s t u : State}

/-! ## What an action keeps of the log and the levels -/

/-- Neither the place of the play log nor the levels of the pins. -/
structure LogKept (s t : State) : Prop where
  offset : t.plw.logOffset = s.plw.logOffset
  levels : t.ccu.levels = s.ccu.levels

theorem LogKept.refl (s : State) : LogKept s s := ⟨rfl, rfl⟩

theorem LogKept.trans (h : LogKept s t) (k : LogKept t u) : LogKept s u :=
  ⟨k.offset.trans h.offset, k.levels.trans h.levels⟩

theorem LogKept.of_frame {ps : List Part} (h : ChangesOnly ps s t) (hps : ps.contains .plw = false)
    (hcs : ps.contains .ccu = false) : LogKept s t :=
  ⟨congrArg Plw.logOffset (h .plw hps), congrArg Ccu.levels (h .ccu hcs)⟩

theorem cutSlot_logKept (g : Fin 8) (s : State) : LogKept s (cutSlot g s) :=
  ⟨cutSlot_plw_field (F := Plw.logOffset) (fun _ _ _ _ _ => rfl) g s,
    congrArg Ccu.levels (cutSlot_then g (ChangesOnly.refl [.sru, .plw, .events, .mem, .free] s) rfl .ccu rfl)⟩

theorem disableGroup_logKept (g : Fin 8) (s : State) : LogKept s (disableGroup g s) := by
  unfold disableGroup
  split
  · refine LogKept.trans (t := cutSlot g (releaseClaims (.group g) (onGroup g (fun r => { r with enabled := false }) s)))
      (LogKept.trans ?_ (cutSlot_logKept g _)) (.of_frame (writeGroupStatus_then (ps := [.mem]) (.refl _ _) rfl) rfl rfl)
    exact ⟨rfl, rfl⟩
  · exact .refl s

theorem retireEntry_logKept (i : Fin 64) (s : State) : LogKept s (retireEntry i s) := by
  unfold retireEntry
  split
  · exact inFreeOrder_induct (P := LogKept s) ⟨rfl, rfl⟩ fun g _ _ h => h.trans (cutSlot_logKept g _)
  · exact .refl s

theorem clearGroup_logKept (g : Fin 8) (s : State) : LogKept s (clearGroup g s) := by
  unfold clearGroup
  dsimp only
  have hstatus : ∀ u : State, LogKept u (writeGroupStatus u) := fun u =>
    .of_frame (writeGroupStatus_then (ps := [.mem]) (.refl _ u) rfl) rfl rfl
  have hsnapshot : ∀ (as : Vector Account 64) (u : State), LogKept u (writeSnapshot g as u) := fun as u =>
    .of_frame (writeSnapshot_then (ps := [.mem, .sru]) g as (.refl _ u) rfl) rfl rfl
  have hmark : ∀ u : State, LogKept u (markHold g u) := fun _ => ⟨rfl, rfl⟩
  refine ((LogKept.trans ?_ (cutSlot_logKept g _)).trans (hmark _)).trans (hsnapshot _ _)
  split
  · exact ⟨(hstatus _).offset, (hstatus _).levels⟩
  · exact ⟨rfl, rfl⟩

theorem switchLayout_logKept (b : Fin 4) (s : State) : LogKept s (switchLayout b s) := by
  have hframe := switchLayout_then b (ChangesOnly.refl [.cle, .msu, .zar, .mem, .events, .etu, .sru, .plw, .free] s) rfl
  refine ⟨?_, congrArg Ccu.levels (hframe .ccu rfl)⟩
  unfold switchLayout
  split
  · rfl
  · dsimp only
    refine (reportZoneSets_kept _ _).logOffset.trans ?_
    exact inFreeOrder_induct (P := fun t => t.plw.logOffset = s.plw.logOffset) rfl fun w _ t h =>
      (congrArg Plw.logOffset (reportLost_then (ps := [.cle, .msu, .zar, .mem, .events, .etu]) .noZone w _ (.refl _ t) rfl
        .plw rfl)).trans h

theorem takeChecked_logKept {α : Type} {check : Except Status α} {success : Status} {act : α → State → State}
    (h : ∀ a, LogKept s (act a s)) : LogKept s (takeChecked check success act s).2 := by
  unfold takeChecked
  split
  · exact .refl s
  · exact h _

theorem onChannel_logKept (c : Fin 4) (f : Channel → Channel) (s : State) : LogKept s (onChannel c f s) := ⟨rfl, rfl⟩

theorem setClock_logKept (p : ClockSetPayload) (s : State) : LogKept s (setClock p s).2 := by
  unfold setClock
  split
  · repeat' split
    all_goals exact ⟨rfl, rfl⟩
  · exact .refl s

theorem runClock_logKept (channel action : BitVec 8) (delta : Word) (s : State) :
    LogKept s (runClock channel action delta s).2 := by
  unfold runClock runStart runAdjust
  split
  · exact .refl s
  · repeat' split
    all_goals exact ⟨rfl, rfl⟩

theorem setConsole_logKept (p : ConsolePayload) (s : State) : LogKept s (setConsole p s).2 := by
  unfold setConsole
  split
  · exact ⟨rfl, rfl⟩
  · exact .refl s

theorem actMember_logKept (m : Member) (kept : RunSlots) (s : State) : LogKept s (actMember m kept s).2.2 := by
  unfold actMember
  cases m.work with
  | none => exact .refl s
  | some w =>
    have hs : ∀ ps, ChangesOnly ps s s := fun ps => .refl ps s
    cases w with
    | playClip p => exact .of_frame (takeClip_then _ _ p (hs [.cle, .msu, .zar, .mem, .events, .etu]) rfl) rfl rfl
    | postMessage p => exact .of_frame (takeMessage_then _ _ p (hs [.cle, .msu, .zar, .mem, .events, .etu]) rfl) rfl rfl
    | withdraw target entry tag =>
      exact .of_frame (takeWithdraw_then _ _ _ _ (hs [.cle, .msu, .zar, .mem, .events, .etu]) rfl) rfl rfl
    | loadLayout bank offset => exact .of_frame (takeLoadLayout_then _ _ (hs [.zar]) rfl) rfl rfl
    | selectLayout bank => exact takeChecked_logKept fun b => switchLayout_logKept b s
    | sponsorWrite entry offset => exact .of_frame (takeSponsorWrite_then _ _ (hs [.sru]) rfl) rfl rfl
    | sponsorState entry action =>
      show LogKept s (takeSponsorState entry action s).2
      unfold takeSponsorState
      split
      · exact .of_frame (takeActivate_then _ (hs [.sru]) rfl) rfl rfl
      · exact takeChecked_logKept fun i => retireEntry_logKept i s
      · exact .refl s
    | groupSet group action =>
      show LogKept s (takeGroupSet group action s).2
      unfold takeGroupSet
      split
      · exact .of_frame (takeEnable_then _ (hs [.sru, .zar, .mem]) rfl) rfl rfl
      · exact takeChecked_logKept fun g => disableGroup_logKept g s
      · exact .refl s
    | groupClear group => exact takeChecked_logKept fun g => clearGroup_logKept g s
    | clockSet p => exact setClock_logKept p s
    | clockRun channel action delta => exact runClock_logKept channel action delta s
    | consoleSet p => exact setConsole_logKept p s
    | triggerArm p => exact .of_frame (takeTriggerArm_then _ (hs [.etu, .mem]) rfl) rfl rfl
    | triggerDisarm entry => exact .of_frame (takeTriggerDisarm_then _ (hs [.etu]) rfl) rfl rfl

theorem writeTaking_logKept (i : Nat) (late : Bool) (tk : Taking) (s : State) : LogKept s (writeTaking i late tk s) :=
  .of_frame (writeTaking_then (ps := [.mem, .events]) i late tk (.refl _ s) rfl) rfl rfl

theorem takeSingle_logKept (m : Member) (s : State) : LogKept s (takeSingle m s) :=
  (actMember_logKept m RunSlots.none s).trans (writeTaking_logKept _ _ _ _)

/-- A member that its owner does not refuse: the run goes on behind it. -/
theorem actRun_cons (m : Member) (ms : List Member) (kept : RunSlots) (s : State) : actRun (m :: ms) kept s =
    match (actMember m kept s).1 with
    | .refused st z => .error (m.index, .refused st z)
    | tk => actRun ms (actMember m kept s).2.1 (writeTaking m.index m.late tk (actMember m kept s).2.2) := rfl

theorem actRun_logKept (ms : List Member) (kept : RunSlots) {s u : State} (h : actRun ms kept s = .ok u) : LogKept s u := by
  induction ms generalizing kept s with
  | nil =>
    cases h
    exact .refl _
  | cons m ms ih =>
    rw [actRun_cons] at h
    split at h
    · cases h
    · exact ((actMember_logKept m kept s).trans (writeTaking_logKept _ _ _ _)).trans (ih _ h)

theorem handleRun_logKept (ms : List Member) (s : State) : LogKept s (handleRun ms s) := by
  unfold handleRun
  split
  · next h => exact actRun_logKept ms _ h
  · exact .of_frame (writeRefusedRun_then (ps := [.mem, .events]) ms _ _ (.refl _ s) rfl) rfl rfl

end Sys2Proof.Machine
end

section
/-! SUPPORT. The scan of the cue list: its readings, its steps and the index that it moves (R34 to R37, R40, R44 to R46). -/

namespace Sys2Proof.Machine

variable {s t u : State}

/-! ## The readings -/

theorem posted_iff (w : Word) : cueStateOf w = .posted ↔ w = 1 := by
  unfold cueStateOf
  split
  · next h => exact iff_of_false nofun (by rw [h]; decide)
  · split
    · next h => exact iff_of_true rfl h
    · next h =>
      refine iff_of_false ?_ h
      split
      · exact nofun
      · split <;> exact nofun

theorem recordAt_posted_iff (s : State) (i : Nat) :
    (recordAt s i).state = .posted ↔ s.mem.word (cueOffset s i) = 1 := posted_iff _

theorem passed_iff (f n : Frame) : passed f n = true ↔ (f - n).toInt < 0 := by
  rw [passed, BitVec.msb_eq_toInt, decide_eq_true_iff]

theorem reached_iff (f n : Frame) : reached f n = true ↔ (f - n).toInt ≤ 0 := by
  have hzero : f = n ↔ (f - n).toInt = 0 := by
    rw [show (0 : Int) = (0#32 : BitVec 32).toInt from rfl, BitVec.toInt_inj]
    exact sub_eq_zero.symm
  rw [reached, Bool.or_eq_true, beq_iff_eq, show (f - n).msb = passed f n from rfl, passed_iff, hzero]
  omega

theorem ready_iff (r : CueRecord) (f : Frame) : r.ready f = true ↔ RecordReady r f := by
  rw [CueRecord.ready, Bool.or_eq_true, Bool.not_eq_true', reached_iff, RecordReady]
  generalize (r.notBefore - f).toInt = d
  cases r.timed <;> simp

theorem isLate_eq (r : CueRecord) (f : Frame) : r.isLate f = lateAt r f := by
  rw [CueRecord.isLate, lateAt, Bool.eq_iff_iff, Bool.and_eq_true, Bool.and_eq_true, passed_iff, decide_eq_true_iff]

theorem memberOf_eq (s : State) (i : Nat) : memberOf s.ftu.frame (i, recordAt s i) = memberAt s i := by
  rw [memberOf, memberAt, isLate_eq]

theorem scanned_zero (h : s.ciu.scan < s.ciu.listLength) : scanned s 0 = s.ciu.scan := Nat.mod_eq_of_lt h

theorem scanned_lt (h : 0 < s.ciu.listLength) (j : Nat) : scanned s j < s.ciu.listLength := Nat.mod_lt _ h

/-- The records of a list with more than `n` of them that the scan reads in turn are `n` different ones. -/
theorem scanned_ne {j k : Nat} (hjk : j < k) (hk : k - j < s.ciu.listLength) : scanned s j ≠ scanned s k := by
  intro h
  have hmod : s.ciu.scan + j ≡ s.ciu.scan + k [MOD s.ciu.listLength] := h
  have hdvd := (Nat.modEq_iff_dvd' (Nat.add_le_add_left hjk.le _)).1 hmod
  have := Nat.le_of_dvd (by omega) hdvd
  omega

/-! ## The steps of a scan -/

theorem scanFuel_stop {b : Nat} (h : scanStep b s = none) (k : Nat) : scanFuel k b s = (b, s) := by
  cases k with
  | zero => rfl
  | succ k => rw [scanFuel, h]

theorem scanFuel_next {b : Nat} {r : Nat × State} (h : scanStep b s = some r) (k : Nat) :
    scanFuel (k + 1) b s = scanFuel k r.1 r.2 := by
  rw [scanFuel, h]

theorem scanStep_of_not_posted {b : Nat} (h : (recordAt s s.ciu.scan).state ≠ .posted) : scanStep b s = none :=
  if_pos (.inr h)

theorem scanStep_of_refusing {b : Nat} (hb : 0 < b) (h : (recordAt s s.ciu.scan).state = .posted)
    (hrefusing : s.ciu.refusing = true) :
    scanStep b s = some (b - 1, refuseTooLong s.ciu.scan (recordAt s s.ciu.scan) s) := by
  rw [scanStep, if_neg (by rintro (h0 | h0); exacts [absurd h0 hb.ne', h0 h]), if_pos hrefusing]

theorem scanStep_of_early {b : Nat} (hrefusing : s.ciu.refusing = false)
    (hready : (recordAt s s.ciu.scan).ready s.ftu.frame = false) : scanStep b s = none := by
  unfold scanStep
  dsimp only
  rw [hrefusing, hready]
  split
  · rfl
  · rfl

/-- What a scan makes of the records in front of it, as they stand. -/
theorem scanStep_assembles {b : Nat} (hb : 0 < b) (h : (recordAt s s.ciu.scan).state = .posted)
    (hrefusing : s.ciu.refusing = false) (hready : (recordAt s s.ciu.scan).ready s.ftu.frame = true) : scanStep b s =
      match assemble s 8 s.ciu.scan [] with
      | .incomplete => none
      | .overLong => some (b, setRefusing true s)
      | .run ms =>
        if b < ms.length ∨ ms.all (fun x => x.2.ready s.ftu.frame) = false then none
        else some (b - ms.length, moveScan ms.length (if (recordAt s s.ciu.scan).linked
          then handleRun (ms.map (memberOf s.ftu.frame)) s
          else takeSingle (memberOf s.ftu.frame (s.ciu.scan, recordAt s s.ciu.scan)) s)) := by
  unfold scanStep
  dsimp only
  rw [if_neg (by rintro (h0 | h0); exacts [absurd h0 hb.ne', h0 h]), hrefusing, if_neg Bool.false_ne_true, hready]
  rfl

theorem scan_of_stop (h : scanStep 16 s = none) : scan s = s := by
  rw [scan, scanBudget, scanFuel_stop h]
  exact if_neg (Nat.lt_irrefl 16)

/-- The scan index as the anchor shows it. -/
def writeScan (s : State) : State := anchorWrite 0x108 [BitVec.ofNat 32 s.ciu.scan] s

theorem scan_of_end {b : Nat} (h : scanFuel 40 16 s = (b, t)) (hb : b < 16) : scan s = writeScan t := by
  rw [scan, scanBudget, h, if_pos hb]
  rfl

/-! ## Where the index goes -/

/-- A scan so far: the index has moved on by what it has taken, and the list stands where it stood. -/
structure Moved (n : Nat) (s t : State) : Prop where
  index : t.ciu.scan = (s.ciu.scan + n) % s.ciu.listLength
  offset : t.ciu.listOffset = s.ciu.listOffset
  length : t.ciu.listLength = s.ciu.listLength
  due : t.ciu.frameDue = s.ciu.frameDue
  log : LogKept s t

theorem Moved.refl (h : s.ciu.scan < s.ciu.listLength) : Moved 0 s s :=
  ⟨(Nat.mod_eq_of_lt h).symm, rfl, rfl, rfl, .refl s⟩

theorem Moved.trans {m n : Nat} (h : Moved m s t) (k : Moved n t u) : Moved (m + n) s u := by
  refine ⟨?_, k.offset.trans h.offset, k.length.trans h.length, k.due.trans h.due, h.log.trans k.log⟩
  rw [k.index, h.index, h.length, Nat.mod_add_mod, Nat.add_assoc]

/-- An action, and the step of the index behind it. -/
theorem moved_of_act {n : Nat} (hciu : t.ciu = s.ciu) (hlog : LogKept s t) : Moved n s (moveScan n t) := by
  refine ⟨?_, ?_, ?_, ?_, ⟨hlog.offset, hlog.levels⟩⟩ <;> rw [moveScan, State.onCiu_ciu, hciu]

theorem refuseTooLong_moved (i : Nat) (r : CueRecord) (s : State) : Moved 1 s (refuseTooLong i r s) := by
  have hciu : (writeTaking i false (.refused .groupTooLong 0) s).ciu = s.ciu :=
    writeTaking_then (ps := [.mem, .events]) i false _ (.refl _ s) rfl .ciu rfl
  have hlog := writeTaking_logKept i false (.refused .groupTooLong 0) s
  unfold refuseTooLong
  dsimp only
  split
  · exact moved_of_act hciu hlog
  · have h := moved_of_act (n := 1) hciu hlog
    exact ⟨h.index, h.offset, h.length, h.due, ⟨h.log.offset, h.log.levels⟩⟩

theorem scanStep_moved {b : Nat} {r : Nat × State} (hscan : s.ciu.scan < s.ciu.listLength) (h : scanStep b s = some r) :
    r.1 ≤ b ∧ Moved (b - r.1) s r.2 := by
  have hlinked (ms : List Member) : (handleRun ms s).ciu = s.ciu :=
    handleRun_then (ps := [.cle, .msu, .zar, .mem, .events, .etu, .sru, .plw, .ccu, .free]) ms (.refl _ s) rfl .ciu rfl
  have hsingle (m : Member) : (takeSingle m s).ciu = s.ciu :=
    takeSingle_then (ps := [.cle, .msu, .zar, .mem, .events, .etu, .sru, .plw, .ccu, .free]) m (.refl _ s) rfl .ciu rfl
  unfold scanStep at h
  dsimp only at h
  split at h
  · cases h
  next hb =>
  split at h
  · cases h
    have hb : b - (b - 1) = 1 := by omega
    exact ⟨Nat.sub_le _ _, by rw [hb]; exact refuseTooLong_moved _ _ _⟩
  split at h
  · cases h
  split at h
  · cases h
  · cases h
    refine ⟨Nat.le_refl b, ?_⟩
    rw [Nat.sub_self]
    exact ⟨(Nat.mod_eq_of_lt hscan).symm, rfl, rfl, rfl, ⟨rfl, rfl⟩⟩
  · next ms _ =>
    split at h
    · cases h
    next hfits =>
    cases h
    have hlen : b - (b - ms.length) = ms.length := by omega
    refine ⟨Nat.sub_le _ _, ?_⟩
    rw [hlen]
    split
    · exact moved_of_act (hlinked _) (handleRun_logKept _ s)
    · exact moved_of_act (hsingle _) (takeSingle_logKept _ s)

theorem scanFuel_moved (k : Nat) {b : Nat} (hscan : s.ciu.scan < s.ciu.listLength) :
    (scanFuel k b s).1 ≤ b ∧ Moved (b - (scanFuel k b s).1) s (scanFuel k b s).2 := by
  induction k generalizing b s with
  | zero =>
    refine ⟨Nat.le_refl b, ?_⟩
    rw [scanFuel, Nat.sub_self]
    exact Moved.refl hscan
  | succ k ih =>
    cases h : scanStep b s with
    | none =>
      rw [scanFuel_stop h]
      refine ⟨Nat.le_refl b, ?_⟩
      rw [Nat.sub_self]
      exact Moved.refl hscan
    | some r =>
      obtain ⟨hle, hmoved⟩ := scanStep_moved hscan h
      rw [scanFuel_next h]
      obtain ⟨hle', hmoved'⟩ := ih (b := r.1) (s := r.2) (by
        rw [hmoved.index, hmoved.length]
        exact Nat.mod_lt _ (by omega))
      refine ⟨hle'.trans hle, ?_⟩
      have hsum := hmoved.trans hmoved'
      rwa [show b - r.1 + (r.1 - (scanFuel k r.1 r.2).1) = b - (scanFuel k r.1 r.2).1 by omega] at hsum

theorem scan_moved (hscan : s.ciu.scan < s.ciu.listLength) : ∃ n, n ≤ 16 ∧ Moved n s (scan s) := by
  obtain ⟨-, h⟩ := scanFuel_moved 40 (b := 16) hscan
  refine ⟨_, Nat.sub_le 16 (scanFuel 40 16 s).1, ?_⟩
  unfold scan scanBudget
  dsimp only
  split
  · have hframe := anchorWrite_then (ps := [.mem]) 0x108 [BitVec.ofNat 32 (scanFuel 40 16 s).2.ciu.scan]
      (.refl _ (scanFuel 40 16 s).2) rfl
    have hciu := hframe .ciu rfl
    refine ⟨?_, ?_, ?_, ?_, h.log.trans (.of_frame hframe rfl rfl)⟩ <;>
      rw [show (anchorWrite 0x108 _ (scanFuel 40 16 s).2).ciu = _ from hciu]
    exacts [h.index, h.offset, h.length, h.due]
  · exact h

end Sys2Proof.Machine
end

section
/-! SUPPORT. O19: the bound of a scan, where it stops, and the runs that it refuses as too long (R36, R37, R40, R44, R46). -/

namespace Sys2Proof.Machine

variable {s t u v : State} {levels : BitVec 8}

/-! ## A scan as a command -/

theorem scanBegins_frame (levels : BitVec 8) (s : State) : ChangesOnly [.ciu, .ccu] s (scanBegins levels s) :=
  onCcu_then (fun c => { c with levels := levels }) (onCiu_then (fun c => { c with frameDue := false }) (.refl _ s) rfl) rfl

theorem ciuScan_of_running (hdue : s.ciu.frameDue = true) (hdev : s.smp.dev = .running) :
    exec (.ciuScan levels) s = .next (scan (scanBegins levels s)) := by
  have h : ciuHandling levels s = scan (scanBegins levels s) := by
    rw [ciuHandling, hdue, if_pos rfl, ciuFrameStart]
    exact if_pos hdev
  exact congrArg Host.Outcome.next h

theorem ciuScan_of_not_running (hdue : s.ciu.frameDue = true) (hdev : s.smp.dev ≠ .running) :
    exec (.ciuScan levels) s = .next (scanBegins levels s) := by
  have h : ciuHandling levels s = scanBegins levels s := by
    rw [ciuHandling, hdue, if_pos rfl, ciuFrameStart]
    exact if_neg hdev
  exact congrArg Host.Outcome.next h

theorem ciuScan_of_not_due (hdue : s.ciu.frameDue = false) :
    exec (.ciuScan levels) s = .next (setLevels levels s) := by
  have h : ciuHandling levels s = setLevels levels s := by
    rw [ciuHandling, hdue]
    rfl
  exact congrArg Host.Outcome.next h

theorem ciuScan_of_stop (hdue : s.ciu.frameDue = true) (h : scanStep 16 (scanBegins levels s) = none) :
    exec (.ciuScan levels) s = .next (scanBegins levels s) := by
  by_cases hdev : s.smp.dev = .running
  · rw [ciuScan_of_running hdue hdev, scan_of_stop h]
  · exact ciuScan_of_not_running hdue hdev

/-! ## Refused records -/

theorem recordAt_of_kept {i : Nat} (hciu : t.ciu.listOffset = s.ciu.listOffset) (h : RecordKept s i s t) :
    recordAt t i = recordAt s i := by
  have hoffset : cueOffset t i = cueOffset s i := by rw [cueOffset, cueOffset, hciu]
  have hword : ∀ d, d + 4 ≤ 64 → t.mem.word (cueOffset s i + d) = s.mem.word (cueOffset s i + d) := fun d hd =>
    Memory.word_congr fun a hlo hhi => h a (by omega) (by omega)
  unfold recordAt readCue
  rw [hoffset, hword 4 (by decide), hword 8 (by decide), hword 12 (by decide), hword 16 (by decide), hword 20 (by decide),
    hword 24 (by decide), hword 28 (by decide), hword 32 (by decide), hword 36 (by decide),
    show t.mem.word (cueOffset s i) = s.mem.word (cueOffset s i) from hword 0 (by decide)]

/-- The bytes of two records of the list are apart. -/
theorem not_resultByte {i j a : Nat} (hij : i ≠ j) (hlo : cueOffset s j ≤ a) (hhi : a < cueOffset s j + 64) :
    ¬ResultByte s i a := by
  unfold ResultByte cueOffset at *
  omega

/-- The first `n` records of a scan have been refused, and nothing else has happened. -/
structure RefusedSo (s u : State) (n : Nat) (late : Bool) (status : Status) (refusing : Bool) : Prop where
  ciu : u.ciu = { s.ciu with scan := scanned s n, refusing := refusing }
  reads : ∀ j, j < n → RecordReads s u (scanned s j) (takenResult s.ftu.frame late status 0) 3
  events : u.smp.events = if n = 0 then s.smp.events else s.smp.events ||| 0x001#10
  frame : ChangesOnly [.mem, .events, .ciu] s u
  outside : ∀ a, (∀ j, j < n → ¬ResultByte s (scanned s j) a) → u.mem.get a = s.mem.get a

theorem refusedSo_zero {b : Bool} (hscan : s.ciu.scan < s.ciu.listLength) (late : Bool) (status : Status) :
    RefusedSo s (setRefusing b s) 0 late status b where
  ciu := by
    rw [scanned_zero hscan]
    rfl
  reads _ h := absurd h (Nat.not_lt_zero _)
  events := rfl
  frame := setRefusing_then b (.refl _ s) rfl
  outside _ _ := rfl

theorem refusedSo_refl {b : Bool} (hscan : s.ciu.scan < s.ciu.listLength) (h : s.ciu.refusing = b) (late : Bool)
    (status : Status) : RefusedSo s s 0 late status b where
  ciu := by rw [scanned_zero hscan, ← h]
  reads _ hj := absurd hj (Nat.not_lt_zero _)
  events := rfl
  frame := .refl _ s
  outside _ _ := rfl

section
variable {n : Nat} {late : Bool} {status : Status} {b : Bool}

/-- A scan that has refused records stops before one that is not POSTED. -/
theorem RefusedSo.stops (h : RefusedSo s u n late status b) (hnext : (Machine.recordAt s (scanned s n)).state ≠ .posted)
    (hkept : Machine.recordAt u (scanned s n) = Machine.recordAt s (scanned s n)) (x : Nat) : scanStep x u = none := by
  refine scanStep_of_not_posted ?_
  rw [h.ciu, hkept]
  exact hnext

/-- The records that the scan has not reached stand as they stood. -/
theorem RefusedSo.recordAt (h : RefusedSo s u n late status b) {j : Nat} (hnj : n ≤ j) (hj : j < s.ciu.listLength) :
    Machine.recordAt u (scanned s j) = Machine.recordAt s (scanned s j) := by
  refine recordAt_of_kept (by rw [h.ciu]) fun a hlo hhi => h.outside a fun k hk => ?_
  exact not_resultByte (scanned_ne (by omega) (by omega)) hlo hhi

theorem takenResult_writeTaking (i : Nat) (late : Bool) (status : Status) (s : State) :
    writeTaking i late (.refused status 0) s = writeDone i (takenResult s.ftu.frame late status 0) s := rfl

/-- One more record refused. -/
theorem RefusedSo.next {b' : Bool} (h : RefusedSo s u n late status b) (hforce : s.smp.inForce = true)
    (hinside : CueListInside s) (hn : n < s.ciu.listLength)
    (hciu : v.ciu = { u.ciu with scan := (u.ciu.scan + 1) % u.ciu.listLength, refusing := b' })
    (hsame : ChangesOnly [.ciu] (writeTaking (scanned s n) late (.refused status 0) u) v) :
    RefusedSo s v (n + 1) late status b' := by
  have hlength : u.ciu.listLength = s.ciu.listLength := by rw [h.ciu]
  have hoffset : u.ciu.listOffset = s.ciu.listOffset := by rw [h.ciu]
  have hframe : u.ftu = s.ftu := h.frame .ftu rfl
  have hcue : ∀ i, cueOffset u i = cueOffset s i := fun i => by rw [cueOffset, cueOffset, hoffset]
  have hresult : ∀ i a, ResultByte u i a ↔ ResultByte s i a := fun i a => by rw [ResultByte, ResultByte, hcue]
  have hin : u.smp.inForce = true ∧ scanned s n < u.ciu.listLength :=
    ⟨(h.frame.inForce rfl).trans hforce, by rw [hlength]; exact scanned_lt (by omega) n⟩
  have hwritten := writeDone_recordWritten (s := u) (i := scanned s n)
    (by rw [CueListInside, hlength, hoffset]; exact hinside) (takenResult u.ftu.frame late status 0)
  obtain ⟨hreads, houtside, hevents⟩ := (if_pos hin).mp hwritten
  rw [takenResult_writeTaking] at hsame
  have hdone : ChangesOnly [.mem, .events] u (writeDone (scanned s n) (takenResult u.ftu.frame late status 0) u) :=
    writeDone_then _ _ (.refl _ u) rfl
  generalize writeDone (scanned s n) (takenResult u.ftu.frame late status 0) u = w at *
  have hmem : v.mem = w.mem := hsame .mem rfl
  simp only [hresult] at houtside
  refine ⟨?_, fun j hj => ?_, ?_, h.frame.trans ((hdone.mono rfl).trans (hsame.mono rfl)), fun a ha => ?_⟩
  · rw [hciu, h.ciu]
    simp only [scanned, Nat.mod_add_mod, Nat.add_assoc]
  · rcases Nat.lt_succ_iff_lt_or_eq.1 hj with hj | rfl
    · refine (h.reads j hj).of_get fun a hlo hhi => ?_
      rw [hmem]
      exact houtside a (not_resultByte (scanned_ne hj (by omega)).symm hlo hhi)
    · rw [RecordReads, hcue, hframe] at hreads
      rw [RecordReads, hmem]
      exact hreads
  · rw [show v.smp.events = w.smp.events from hsame .events rfl, hevents, h.events, if_neg (Nat.succ_ne_zero n)]
    split
    · rfl
    · rw [BitVec.or_assoc]
      rfl
  · rw [hmem, houtside a (ha n (Nat.lt_succ_self n)), h.outside a fun j hj => ha j (hj.trans (Nat.lt_succ_self n))]

/-- The refusal of a record of a run that is too long. -/
theorem RefusedSo.tooLong (h : RefusedSo s u n false .groupTooLong b) (hforce : s.smp.inForce = true)
    (hinside : CueListInside s) (hn : n < s.ciu.listLength) (r : CueRecord) :
    RefusedSo s (refuseTooLong (scanned s n) r u) (n + 1) false .groupTooLong (r.linked && b) := by
  have hciu : (writeTaking (scanned s n) false (.refused .groupTooLong 0) u).ciu = u.ciu :=
    writeTaking_then (ps := [.mem, .events]) _ false _ (.refl _ u) rfl .ciu rfl
  have hb : u.ciu.refusing = b := by rw [h.ciu]
  refine h.next hforce hinside hn ?_ ?_
  · unfold refuseTooLong
    dsimp only
    cases r.linked with
    | true =>
      rw [if_pos rfl, Bool.true_and, moveScan, State.onCiu_ciu, hciu, ← hb]
    | false =>
      rw [if_neg (by decide), Bool.false_and, moveScan, State.onCiu_ciu, setRefusing, State.onCiu_ciu, hciu]
  · unfold refuseTooLong
    dsimp only
    refine moveScan_then _ ?_ rfl
    split
    · exact .refl _ _
    · exact setRefusing_then false (.refl _ _) rfl

/-- What a scan leaves that has refused the first records and stopped. -/
theorem scanRefused_of (h : RefusedSo (scanBegins levels s) u n late status b) (hpos : 0 < n)
    (hforce : s.smp.inForce = true) (haligned : s.smp.anchor.toNat % 4096 = 0) (hapart : ListApart s)
    (hlength : 0 < s.ciu.listLength) : ScanRefused levels s (writeScan u) n late status b := by
  have hanchor : u.smp.anchor = s.smp.anchor := h.frame.anchor rfl
  have hin : u.smp.inForce = true := (h.frame.inForce rfl).trans hforce
  have hwritten : ChangesOnly [.mem] u (writeScan u) := anchorWrite_then _ _ (.refl _ u) rfl
  have hciu : (writeScan u).ciu = u.ciu := hwritten .ciu rfl
  have hkeeps : ∀ a, ¬AnchorByte s 0x108 0x10C a → (writeScan u).mem.get a = u.mem.get a := fun a ha =>
    anchorWrite_get_outside (hi := 0x10C) (by simp) (by rw [AnchorByte, hanchor]; exact ha)
  refine ⟨fun j hj => ?_, hciu.trans h.ciu, ?_, ?_, ?_, ?_, fun a hresult hout => ?_⟩
  · exact (h.reads j hj).of_get fun a hlo hhi =>
      hkeeps a (record_apart_anchor hapart (scanned_lt hlength j) (by decide) hlo hhi)
  · rw [hciu, ← hanchor]
    exact anchorWrite_word_at (by rw [hanchor]; exact haligned) hin (by simp) 0x108 0 rfl rfl
  · rw [show (writeScan u).smp.events = u.smp.events from hwritten .events rfl, h.events, if_neg hpos.ne']
    rfl
  · exact Eq.trans (hwritten .ccu rfl) (h.frame .ccu rfl)
  · exact ((scanBegins_frame levels s).mono rfl).trans ((h.frame.mono rfl).trans (hwritten.mono rfl))
  · rw [hkeeps a hout, h.outside a hresult]
    rfl

/-- A scan under the refusing flag refuses the linked records in front of it one by one. -/
theorem refusals {k : Nat} (h : RefusedSo s u 0 false .groupTooLong true) (hforce : s.smp.inForce = true)
    (hinside : CueListInside s) (hn : n < s.ciu.listLength) {x : Nat} (hx : n ≤ x)
    (hposted : ∀ j, j < n → (Machine.recordAt s (scanned s j)).state = .posted ∧
      (Machine.recordAt s (scanned s j)).linked = true) :
    ∃ v, scanFuel (k + n) x u = scanFuel k (x - n) v ∧ RefusedSo s v n false .groupTooLong true := by
  induction n generalizing k with
  | zero => exact ⟨u, rfl, h⟩
  | succ n ih =>
    obtain ⟨v, hfuel, hv⟩ := ih (k := k + 1) (by omega) (by omega) fun j hj => hposted j (by omega)
    have hindex : v.ciu.scan = scanned s n := by rw [hv.ciu]
    have hrecord : Machine.recordAt v (scanned s n) = Machine.recordAt s (scanned s n) :=
      hv.recordAt (Nat.le_refl n) (by omega)
    obtain ⟨hstate, hlinked⟩ := hposted n (Nat.lt_succ_self n)
    have hstep := scanStep_of_refusing (b := x - n) (s := v) (by omega) (by rw [hindex, hrecord]; exact hstate)
      (by rw [hv.ciu])
    rw [hindex, hrecord] at hstep
    have hnext := hv.tooLong hforce hinside (by omega) (Machine.recordAt s (scanned s n))
    rw [hlinked, Bool.true_and] at hnext
    refine ⟨_, ?_, hnext⟩
    rw [show k + (n + 1) = k + 1 + n by omega, hfuel, scanFuel_next hstep]
    rfl

end

/-! ## Runs as they are assembled -/

/-- The records that the scan reads from an index on, in turn. -/
def turnOf (s : State) (i j : Nat) : Nat := (i + j) % s.ciu.listLength

theorem turnOf_succ (s : State) (i j : Nat) : turnOf s ((i + 1) % s.ciu.listLength) j = turnOf s i (j + 1) := by
  rw [turnOf, turnOf, Nat.mod_add_mod, Nat.add_right_comm, Nat.add_assoc]

theorem assemble_of_link {i : Nat} (h : (recordAt s i).state = .posted) (hlinked : (recordAt s i).linked = true) (k : Nat)
    (acc : List (Nat × CueRecord)) : assemble s (k + 1) i acc =
      assemble s k ((i + 1) % s.ciu.listLength) (acc ++ [(i, recordAt s i)]) := by
  rw [assemble, if_neg (not_not.2 h), if_pos hlinked]

/-- A run of eight linked records is too long. -/
theorem assemble_overLong (n : Nat) : ∀ (i : Nat) (acc : List (Nat × CueRecord)), i < s.ciu.listLength →
    (∀ j, j < n → (recordAt s (turnOf s i j)).state = .posted ∧ (recordAt s (turnOf s i j)).linked = true) →
    assemble s n i acc = .overLong := by
  induction n with
  | zero => exact fun _ _ _ _ => rfl
  | succ n ih =>
    intro i acc hi h
    obtain ⟨hposted, hlinked⟩ := h 0 (Nat.succ_pos n)
    rw [turnOf, Nat.add_zero, Nat.mod_eq_of_lt hi] at hposted hlinked
    rw [assemble_of_link hposted hlinked]
    exact ih _ _ (Nat.mod_lt _ (by omega)) fun j hj => by rw [turnOf_succ]; exact h (j + 1) (by omega)

/-- A run that stops before it ends is not complete. -/
theorem assemble_incomplete (n : Nat) : ∀ (k i : Nat) (acc : List (Nat × CueRecord)), i < s.ciu.listLength → n < k →
    (∀ j, j < n → (recordAt s (turnOf s i j)).state = .posted ∧ (recordAt s (turnOf s i j)).linked = true) →
    (recordAt s (turnOf s i n)).state ≠ .posted → assemble s k i acc = .incomplete := by
  induction n with
  | zero =>
    intro k i acc hi hk _ hend
    obtain ⟨k, rfl⟩ := Nat.exists_eq_succ_of_ne_zero (Nat.ne_of_gt hk)
    rw [turnOf, Nat.add_zero, Nat.mod_eq_of_lt hi] at hend
    exact if_pos hend
  | succ n ih =>
    intro k i acc hi hk h hend
    obtain ⟨k, rfl⟩ := Nat.exists_eq_succ_of_ne_zero (show k ≠ 0 by omega)
    obtain ⟨hposted, hlinked⟩ := h 0 (Nat.succ_pos n)
    rw [turnOf, Nat.add_zero, Nat.mod_eq_of_lt hi] at hposted hlinked
    rw [assemble_of_link hposted hlinked]
    exact ih _ _ _ (Nat.mod_lt _ (by omega)) (by omega) (fun j hj => by rw [turnOf_succ]; exact h (j + 1) (by omega))
      (by rw [turnOf_succ]; exact hend)

/-- A run of records that all but the last carry LINK. -/
theorem assemble_run (n : Nat) : ∀ (k i : Nat) (acc : List (Nat × CueRecord)), i < s.ciu.listLength → n < k →
    (∀ j, j ≤ n → (recordAt s (turnOf s i j)).state = .posted ∧
      (recordAt s (turnOf s i j)).linked = decide (j < n)) →
    assemble s k i acc =
      .run (acc ++ (List.range (n + 1)).map fun j => (turnOf s i j, recordAt s (turnOf s i j))) := by
  induction n with
  | zero =>
    intro k i acc hi hk h
    obtain ⟨k, rfl⟩ := Nat.exists_eq_succ_of_ne_zero (Nat.ne_of_gt hk)
    obtain ⟨hposted, hlinked⟩ := h 0 (Nat.le_refl 0)
    have hturn : turnOf s i 0 = i := by rw [turnOf, Nat.add_zero, Nat.mod_eq_of_lt hi]
    rw [hturn] at hposted hlinked
    rw [assemble, if_neg (not_not.2 hposted), hlinked, List.range_one, List.map_singleton, hturn]
    rfl
  | succ n ih =>
    intro k i acc hi hk h
    obtain ⟨k, rfl⟩ := Nat.exists_eq_succ_of_ne_zero (show k ≠ 0 by omega)
    obtain ⟨hposted, hlinked⟩ := h 0 (Nat.zero_le _)
    have hturn : turnOf s i 0 = i := by rw [turnOf, Nat.add_zero, Nat.mod_eq_of_lt hi]
    rw [hturn] at hposted hlinked
    rw [assemble_of_link hposted (hlinked.trans (decide_eq_true (Nat.succ_pos n))),
      ih _ _ _ (Nat.mod_lt _ (by omega)) (by omega) fun j hj => by
        rw [turnOf_succ]
        obtain ⟨hp, hl⟩ := h (j + 1) (by omega)
        exact ⟨hp, hl.trans (by simp)⟩]
    rw [List.range_succ_eq_map (n := n + 1), List.map_cons, List.map_map, hturn, List.append_assoc, List.singleton_append]
    simp only [turnOf_succ]
    rfl

/-- Settles O19. -/
theorem scanBoundedAndStops : Obligations.ScanBoundedAndStops := by
  refine ⟨fun levels s hscan => ?_, fun levels s hdue hstop => ?_, fun levels s hmade hposted hnext => ?_,
    fun levels s hmade hready hlinked hnext => ?_⟩
  · have hframe := ciuHandling_then levels
      (ChangesOnly.refl [.cle, .msu, .zar, .mem, .events, .etu, .sru, .plw, .ccu, .free, .ciu] s) rfl
    have hmoved : ∃ n, n ≤ 16 ∧ (ciuHandling levels s).ciu.scan = (s.ciu.scan + n) % s.ciu.listLength ∧
        (ciuHandling levels s).ciu.listOffset = s.ciu.listOffset ∧
        (ciuHandling levels s).ciu.listLength = s.ciu.listLength ∧ (ciuHandling levels s).ciu.frameDue = false ∧
        (ciuHandling levels s).plw.logOffset = s.plw.logOffset := by
      have hstays : s.ciu.scan = (s.ciu.scan + 0) % s.ciu.listLength := (Nat.mod_eq_of_lt hscan).symm
      cases hdue : s.ciu.frameDue with
      | false =>
        rw [ciuHandling, hdue]
        exact ⟨0, by omega, hstays, rfl, rfl, hdue, rfl⟩
      | true =>
        by_cases hdev : s.smp.dev = .running
        · obtain ⟨n, hn, hmoved⟩ := scan_moved (s := scanBegins levels s) hscan
          have heq : ciuHandling levels s = scan (scanBegins levels s) :=
            Host.Outcome.next.inj (ciuScan_of_running hdue hdev)
          rw [heq]
          exact ⟨n, hn, hmoved.index, hmoved.offset, hmoved.length, hmoved.due, hmoved.log.offset⟩
        · have heq : ciuHandling levels s = scanBegins levels s :=
            Host.Outcome.next.inj (ciuScan_of_not_running hdue hdev)
          rw [heq]
          exact ⟨0, by omega, hstays, rfl, rfl, rfl, rfl⟩
    obtain ⟨n, hn, hindex, hoffset, hlength, hdone, hlog⟩ := hmoved
    exact ⟨_, rfl, ⟨n, hn, hindex⟩, hoffset, hlength, hdone, hframe .ftu rfl, hframe .smp rfl, hlog⟩
  · obtain hdev | hempty | ⟨hrefusing, htimed, hearly⟩ := hstop
    · exact ciuScan_of_not_running hdue hdev
    · exact ciuScan_of_stop hdue (scanStep_of_not_posted (mt (recordAt_posted_iff _ _).1 hempty))
    · refine ciuScan_of_stop hdue (scanStep_of_early hrefusing ?_)
      rw [← Bool.not_eq_true, ready_iff]
      exact fun h => absurd (h htimed) (Int.not_le.2 hearly)
  · obtain ⟨hdue, hdev, hforce, haligned, hrefusing, hscan, hlength, hinside, hapart⟩ := hmade
    have hfirst := (refusedSo_refl (s := scanBegins levels s) hscan hrefusing false .groupTooLong).tooLong hforce hinside
      (show 0 < s.ciu.listLength by omega) (recordAt s s.ciu.scan)
    rw [Bool.and_true, show scanned (scanBegins levels s) 0 = s.ciu.scan from scanned_zero hscan] at hfirst
    have hstep := scanStep_of_refusing (b := 16) (s := scanBegins levels s) (by decide) hposted hrefusing
    have hstop := hfirst.stops hnext (hfirst.recordAt (Nat.le_refl 1) (show 1 < s.ciu.listLength by omega)) 15
    have hend := (scanFuel_next hstep 39).trans (scanFuel_stop hstop 39)
    refine ⟨_, ciuScan_of_running hdue hdev, ?_⟩
    rw [scan_of_end hend (by decide)]
    exact scanRefused_of hfirst (by decide) hforce haligned hapart (by omega)
  · obtain ⟨hdue, hdev, hforce, haligned, hrefusing, hscan, hlength, hinside, hapart⟩ := hmade
    have hover : assemble (scanBegins levels s) 8 s.ciu.scan [] = .overLong :=
      assemble_overLong (s := scanBegins levels s) 8 s.ciu.scan [] hscan hlinked
    have hposted := (hlinked 0 (by decide)).1
    rw [scanned_zero hscan] at hposted
    have hstep := scanStep_assembles (b := 16) (s := scanBegins levels s) (by decide) hposted hrefusing
      ((ready_iff _ _).2 hready)
    rw [show assemble (scanBegins levels s) 8 (scanBegins levels s).ciu.scan [] = .overLong from hover] at hstep
    obtain ⟨v, hfuel, hv⟩ := refusals (k := 31) (x := 16) (n := 8)
      (refusedSo_zero (s := scanBegins levels s) (b := true) hscan false .groupTooLong) hforce hinside
      (show 8 < s.ciu.listLength by omega) (by decide) hlinked
    have hstop := hv.stops hnext (hv.recordAt (Nat.le_refl 8) (show 8 < s.ciu.listLength by omega)) 8
    have hend := (scanFuel_next hstep 39).trans (hfuel.trans (scanFuel_stop hstop 31))
    refine ⟨_, ciuScan_of_running hdue hdev, ?_⟩
    rw [scan_of_end hend (by decide)]
    exact scanRefused_of hv (by decide) hforce haligned hapart (by omega)

end Sys2Proof.Machine
end

section
/-! SUPPORT. O18: a single record taken by its kind, and a retract that meets the scan (R33 to R36, R40 to R42). -/

namespace Sys2Proof.Machine

variable {s t u v : State} {levels : BitVec 8}

/-! ## The command of a member -/

theorem setLevels_of_levels (h : s.ccu.levels = levels) : setLevels levels s = s := by
  rw [setLevels, State.onCcu, ← h]

/-- A member that is a command is taken as that command takes it. -/
theorem exec_of_command {m : Member} {c : Instr} (h : m.command levels = some c) (hlevels : s.ccu.levels = levels) :
    exec c s = .next (takeSingle m s) := by
  obtain ⟨i, late, work⟩ := m
  cases work with
  | none => cases h
  | some w =>
    have h : w.command levels ⟨i, late⟩ = some c := h
    cases w with
    | sponsorState entry action =>
      unfold Work.command at h
      dsimp only at h
      split at h
      · next ha => subst ha; cases h; rfl
      · split at h
        · next ha => subst ha; cases h; rfl
        · cases h
    | groupSet group action =>
      unfold Work.command at h
      dsimp only at h
      split at h
      · next ha => subst ha; cases h; rfl
      · split at h
        · next ha => subst ha; cases h; rfl
        · cases h
    | clockRun channel action delta =>
      unfold Work.command at h
      dsimp only at h
      split at h
      · next ha => subst ha; cases h; rfl
      · split at h
        · next ha => subst ha; cases h; rfl
        · split at h
          · next ha => subst ha; cases h; rfl
          · split at h
            · next ha => subst ha; cases h; rfl
            · cases h
    | consoleSet p =>
      cases h
      show Host.Outcome.next (takeAndWrite ⟨i, late⟩ (takeStatus (setConsole p)) (setLevels levels s)) = _
      rw [setLevels_of_levels hlevels]
      rfl
    | playClip p => cases h; rfl
    | postMessage p => cases h; rfl
    | withdraw target entry tag => cases h; rfl
    | loadLayout bank offset => cases h; rfl
    | selectLayout bank => cases h; rfl
    | sponsorWrite entry offset => cases h; rfl
    | groupClear group => cases h; rfl
    | clockSet p => cases h; rfl
    | triggerArm p => cases h; rfl
    | triggerDisarm entry => cases h; rfl

theorem toNat_ne {a : BitVec 8} {n : Nat} (h : a ≠ BitVec.ofNat 8 n) : a.toNat ≠ n := by
  intro heq
  apply h
  rw [← heq, BitVec.ofNat_toNat, BitVec.setWidth_eq]

theorem takeSponsorState_of_other {action : BitVec 8} (entry : BitVec 8) (h1 : action ≠ 1) (h2 : action ≠ 2) (s : State) :
    takeSponsorState entry action s = (.refused .badValue 0, s) := by
  unfold takeSponsorState
  split
  · next h => exact absurd h (toNat_ne h1)
  · next h => exact absurd h (toNat_ne h2)
  · rfl

theorem takeGroupSet_of_other {action : BitVec 8} (group : BitVec 8) (h1 : action ≠ 1) (h2 : action ≠ 2) (s : State) :
    takeGroupSet group action s = (.refused .badValue 0, s) := by
  unfold takeGroupSet
  split
  · next h => exact absurd h (toNat_ne h1)
  · next h => exact absurd h (toNat_ne h2)
  · rfl

theorem runClock_of_other {action : BitVec 8} (channel : BitVec 8) (delta : Word) (h1 : action ≠ 1) (h2 : action ≠ 2)
    (h3 : action ≠ 3) (h4 : action ≠ 4) (s : State) : runClock channel action delta s = (.badValue, s) := by
  unfold runClock
  split
  · rfl
  · split
    · next h => exact absurd h (toNat_ne h1)
    · next h => exact absurd h (toNat_ne h2)
    · next h => exact absurd h (toNat_ne h3)
    · next h => exact absurd h (toNat_ne h4)
    · rfl

/-- A member that no command is refused: it has an unknown kind, or an action code that its kind has not. -/
theorem actMember_of_no_command {m : Member} (h : m.command levels = none) (kept : RunSlots) (s : State) :
    actMember m kept s = (.refused (if m.work = none then .badKind else .badValue) 0, kept, s) := by
  obtain ⟨i, late, work⟩ := m
  cases work with
  | none => rfl
  | some w =>
    have h : w.command levels ⟨i, late⟩ = none := h
    cases w with
    | sponsorState entry action =>
      unfold Work.command at h
      dsimp only at h
      split at h
      · cases h
      split at h
      · cases h
      next h1 h2 =>
      have hrefused := takeSponsorState_of_other entry h1 h2 s
      simp only [actMember, hrefused]
      rfl
    | groupSet group action =>
      unfold Work.command at h
      dsimp only at h
      split at h
      · cases h
      split at h
      · cases h
      next h1 h2 =>
      have hrefused := takeGroupSet_of_other group h1 h2 s
      simp only [actMember, hrefused]
      rfl
    | clockRun channel action delta =>
      unfold Work.command at h
      dsimp only at h
      split at h
      · cases h
      split at h
      · cases h
      split at h
      · cases h
      split at h
      · cases h
      next h1 h2 h3 h4 =>
      have hrefused := runClock_of_other channel delta h1 h2 h3 h4 s
      simp only [actMember, takeStatus, hrefused]
      rfl
    | _ => cases h

theorem workOf_of_unknown {kind : BitVec 8} (p : Payload) (h : kind.toNat = 0 ∨ 0x0E < kind.toNat) : workOf kind p = none := by
  unfold workOf
  split <;> first | rfl | omega

theorem command_of_two_actions {a : BitVec 8} {x y : Instr} (h : a.toNat = 0 ∨ 2 < a.toNat) :
    (if a = 1 then some x else if a = 2 then some y else none) = none := by
  rw [if_neg (by rintro rfl; simp at h), if_neg (by rintro rfl; simp at h)]

theorem command_of_four_actions {a : BitVec 8} {w x y z : Instr} (h : a.toNat = 0 ∨ 4 < a.toNat) :
    (if a = 1 then some w else if a = 2 then some x else if a = 3 then some y else if a = 4 then some z else none) = none := by
  rw [if_neg (by rintro rfl; simp at h), if_neg (by rintro rfl; simp at h), if_neg (by rintro rfl; simp at h),
    if_neg (by rintro rfl; simp at h)]

/-- The records that no command takes, by kind and action code. -/
theorem memberAt_no_command {i : Nat} {status : Status}
    (h : let r := recordAt s i
      let action := (bits r.payload.w0 8 8).toNat
      (status = .badKind ∧ (r.kind.toNat = 0 ∨ 0x0E < r.kind.toNat)) ∨
      (status = .badValue ∧ ((r.kind = 0x07 ∨ r.kind = 0x08) ∧ (action = 0 ∨ 2 < action) ∨
        r.kind = 0x0B ∧ (action = 0 ∨ 4 < action)))) :
    (memberAt s i).command levels = none ∧ (if (memberAt s i).work = none then Status.badKind else .badValue) = status := by
  have hmember : (memberAt s i).work = workOf (recordAt s i).kind (recordAt s i).payload := rfl
  unfold Member.command
  rw [hmember]
  obtain ⟨rfl, hkind⟩ | ⟨rfl, ⟨hkind | hkind, haction⟩ | ⟨hkind, haction⟩⟩ := h
  · rw [workOf_of_unknown _ hkind]
    exact ⟨rfl, rfl⟩
  · rw [hkind]
    exact ⟨command_of_two_actions haction, if_neg nofun⟩
  · rw [hkind]
    exact ⟨command_of_two_actions haction, if_neg nofun⟩
  · rw [hkind]
    exact ⟨command_of_four_actions haction, if_neg nofun⟩

/-! ## A scan that takes what stands in front of it -/

/-- The index moves on behind what has been taken, and the anchor shows it. -/
theorem scanMoved_of (n : Nat) (u : State) : ScanMoved n u (writeScan (moveScan n u)) := by
  have hmoved : ChangesOnly [.ciu] u (moveScan n u) := moveScan_then n (.refl _ u) rfl
  have hwritten : ChangesOnly [.mem] (moveScan n u) (writeScan (moveScan n u)) := anchorWrite_then _ _ (.refl _ _) rfl
  have hciu : (writeScan (moveScan n u)).ciu = (moveScan n u).ciu := hwritten .ciu rfl
  refine ⟨hciu, (hmoved.mono rfl).trans (hwritten.mono rfl), fun hforce => ?_, fun hforce haligned => ?_, fun a ha => ?_⟩
  · exact anchorWrite_mem_of_not_inForce (s := moveScan n u) hforce _ _
  · rw [hciu]
    exact anchorWrite_word_at (s := moveScan n u) haligned hforce (by simp) 0x108 0 rfl rfl
  · exact anchorWrite_get_outside (s := moveScan n u) (hi := 0x10C) (by simp) ha

/-- A scan that takes `n` records and stops behind them. -/
theorem ciuScan_of_acts {n : Nat} (hdue : s.ciu.frameDue = true) (hdev : s.smp.dev = .running) (hpos : 1 ≤ n)
    (hstep : scanStep 16 (scanBegins levels s) = some (16 - n, moveScan n u)) (hciu : u.ciu = (scanBegins levels s).ciu)
    (hnext : (recordAt u (scanned s n)).state ≠ .posted) :
    ∃ t, exec (.ciuScan levels) s = .next t ∧ ScanMoved n u t := by
  have hindex : (moveScan n u).ciu.scan = scanned s n := by
    rw [moveScan, State.onCiu_ciu, hciu]
    rfl
  have hstop : scanStep (16 - n) (moveScan n u) = none := scanStep_of_not_posted (by rw [hindex]; exact hnext)
  have hend := (scanFuel_next hstep 39).trans (scanFuel_stop hstop 39)
  refine ⟨_, ciuScan_of_running hdue hdev, ?_⟩
  rw [scan_of_end hend (by omega)]
  exact scanMoved_of n u

/-- A single record in front of the scan. -/
theorem scanStep_of_single (hscan : s.ciu.scan < s.ciu.listLength) (hrefusing : s.ciu.refusing = false)
    (hposted : (recordAt s s.ciu.scan).state = .posted) (hlinked : (recordAt s s.ciu.scan).linked = false)
    (hready : RecordReady (recordAt s s.ciu.scan) s.ftu.frame) :
    scanStep 16 s = some (15, moveScan 1 (takeSingle (memberAt s s.ciu.scan) s)) := by
  have hfirst : ∀ j, j ≤ 0 → turnOf s s.ciu.scan j = s.ciu.scan := fun j hj => by
    rw [Nat.le_zero.1 hj, turnOf, Nat.add_zero, Nat.mod_eq_of_lt hscan]
  have hready' := (ready_iff _ _).2 hready
  have hrun : assemble s 8 s.ciu.scan [] = .run [(s.ciu.scan, recordAt s s.ciu.scan)] := by
    rw [assemble_run 0 8 s.ciu.scan [] hscan (by decide) fun j hj => by
      rw [hfirst j hj]
      exact ⟨hposted, hlinked.trans (by simp)⟩]
    rw [List.range_one, List.map_singleton, hfirst 0 (Nat.le_refl 0)]
    rfl
  rw [scanStep_assembles (by decide) hposted hrefusing hready', hrun]
  dsimp only
  rw [if_neg (by simp [hready']), hlinked, memberOf_eq]
  rfl

/-! ## A retract that meets the scan -/

theorem retract_word {i : Nat} (hinside : CueListInside s) (hi : i < s.ciu.listLength) :
    (s.hostWrite (cueOffset s i) [0, 0, 0, 0]).mem.word (cueOffset s i) = 0 := by
  have hfits : cueOffset s i + 4 ≤ Config.memorySize := by
    have h : s.ciu.listOffset.toNat + 64 * s.ciu.listLength ≤ Config.memorySize := hinside
    unfold cueOffset
    omega
  exact Memory.word_storeWords_first s.mem (cueOffset s i) 0 [] hfits

theorem ciuHandling_offset (levels : BitVec 8) (hscan : s.ciu.scan < s.ciu.listLength) (hdue : s.ciu.frameDue = true)
    (hdev : s.smp.dev = .running) (i : Nat) : cueOffset (ciuHandling levels s) i = cueOffset s i := by
  have heq : ciuHandling levels s = scan (scanBegins levels s) := Host.Outcome.next.inj (ciuScan_of_running hdue hdev)
  obtain ⟨n, -, h⟩ := scan_moved (s := scanBegins levels s) hscan
  rw [heq, cueOffset, cueOffset, h.offset]
  rfl

/-- Settles O18. -/
theorem singleRecordTakenByKind : Obligations.SingleRecordTakenByKind := by
  refine ⟨fun i s => ⟨recordAt_posted_iff s i, rfl, rfl, rfl, rfl, rfl⟩, fun levels s hmade => ?_⟩
  obtain ⟨hdue, hdev, hforce, haligned, hrefusing, hscan, hlength, hinside, hapart⟩ := hmade
  have hretracted : exec (.ciuScan levels) (s.hostWrite (cueOffset s s.ciu.scan) [0, 0, 0, 0]) =
      .next (scanBegins levels (s.hostWrite (cueOffset s s.ciu.scan) [0, 0, 0, 0])) := by
    refine ciuScan_of_stop hdue (scanStep_of_not_posted ?_)
    rw [Ne, recordAt_posted_iff]
    exact fun h => absurd (h.symm.trans (retract_word hinside hscan)) (by decide)
  refine ⟨fun hposted hlinked hready => ?_, fun hposted => ⟨hretracted, Host.Outcome.next.inj hretracted, _, rfl,
    fun hword => ?_, fun hword => ?_⟩⟩
  · have hstep := scanStep_of_single (s := scanBegins levels s) hscan hrefusing hposted hlinked hready
    refine ⟨fun status hnext hrefused => ?_, fun work c u hwork hcommand hexec hnext => ?_⟩
    · obtain ⟨hnone, hstatus⟩ := memberAt_no_command (levels := levels) hrefused
      have hact := actMember_of_no_command hnone RunSlots.none (scanBegins levels s)
      rw [hstatus] at hact
      have htake : takeSingle (memberAt s s.ciu.scan) (scanBegins levels s) = writeTaking s.ciu.scan
          (memberAt s s.ciu.scan).late (.refused status 0) (scanBegins levels s) := by
        rw [takeSingle, hact]
        rfl
      have hfirst : RefusedSo (scanBegins levels s) (moveScan 1 (takeSingle (memberAt s s.ciu.scan) (scanBegins levels s))) 1
          (memberAt s s.ciu.scan).late status false := by
        refine (refusedSo_refl (s := scanBegins levels s) hscan hrefusing _ status).next hforce hinside
          (show 0 < s.ciu.listLength by omega) ?_ ?_
        · rw [moveScan, State.onCiu_ciu, htake, ← show (scanBegins levels s).ciu.refusing = false from hrefusing,
            show (writeTaking s.ciu.scan (memberAt s s.ciu.scan).late (.refused status 0) (scanBegins levels s)).ciu =
              (scanBegins levels s).ciu from writeTaking_then (ps := [.mem, .events]) _ _ _ (.refl _ _) rfl .ciu rfl]
        · rw [show scanned (scanBegins levels s) 0 = s.ciu.scan from scanned_zero hscan, htake]
          exact moveScan_then 1 (.refl _ _) rfl
      have hstop := hfirst.stops hnext (hfirst.recordAt (Nat.le_refl 1) (show 1 < s.ciu.listLength by omega)) 15
      have hend := (scanFuel_next hstep 39).trans (scanFuel_stop hstop 39)
      refine ⟨_, ciuScan_of_running hdue hdev, ?_⟩
      rw [scan_of_end hend (by decide)]
      exact scanRefused_of hfirst (by decide) hforce haligned hapart (by omega)
    · have htaken := exec_of_command (s := scanBegins levels s) (m := memberAt s s.ciu.scan) (c := c) (levels := levels)
        (by
          unfold Member.command
          rw [show (memberAt s s.ciu.scan).work = some work from hwork]
          exact hcommand) rfl
      have hu : takeSingle (memberAt s s.ciu.scan) (scanBegins levels s) = u :=
        Host.Outcome.next.inj (htaken.symm.trans hexec)
      have hciu : u.ciu = (scanBegins levels s).ciu := by
        rw [← hu]
        exact takeSingle_then (ps := [.cle, .msu, .zar, .mem, .events, .etu, .sru, .plw, .ccu, .free]) _ (.refl _ _) rfl
          .ciu rfl
      exact ciuScan_of_acts hdue hdev (Nat.le_refl 1) (by rw [← hu]; exact hstep) hciu hnext
  · have hold := (recordAt_posted_iff s s.ciu.scan).1 hposted
    unfold scanMeetsRetract
    rw [if_neg Bool.false_ne_true]
    refine if_neg fun heq => ?_
    have hone : (ciuHandling levels s).mem.word (cueOffset s s.ciu.scan) = 1 := heq.trans hold
    obtain h | h := hword
    · exact absurd (hone.symm.trans h) (by decide)
    · exact absurd (hone.symm.trans h) (by decide)
  · have hold := (recordAt_posted_iff s s.ciu.scan).1 hposted
    have hoffset := ciuHandling_offset levels hscan hdue hdev s.ciu.scan
    unfold scanMeetsRetract
    rw [if_neg Bool.false_ne_true]
    refine (if_pos (hword.trans hold.symm)).trans ?_
    rw [State.hostRetract, hoffset]
    rfl

end Sys2Proof.Machine
end

section
/-! SUPPORT. The answers of the members of a linked run, and the slots that a run keeps for its later members (R44 to
R48). -/

namespace Sys2Proof.Machine

variable {s t u v : State} {levels : BitVec 8}

/-! ## An answer refuses by its status -/

/-- The answers that a record shows as refused are those that refuse. -/
def Taking.Formed : Taking → Prop
  | .refused st _ => st.refuses
  | .done st => ¬st.refuses
  | .accepted _ => True

theorem formed_ofStatus {st : Status} (h : st = .ok ∨ st.refuses) : (Taking.ofStatus st).Formed := by
  unfold Taking.ofStatus
  split
  · exact (by decide : ¬Status.ok.refuses)
  · next hne => exact h.resolve_left hne

theorem takeChecked_formed {α : Type} {check : Except Status α} {success : Status} {act : α → State → State}
    (hcheck : ∀ st, check = .error st → st.refuses) (hsuccess : ¬success.refuses) :
    (takeChecked check success act s).1.Formed := by
  unfold takeChecked
  split
  · exact hcheck _ rfl
  · exact hsuccess

theorem badValue_refuses : Status.badValue.refuses := by decide

theorem indexCheck_refuses {n : Nat} {v : BitVec 8} {st : Status} (h : indexCheck n v = .error st) : st.refuses := by
  unfold indexCheck at h
  split at h
  · cases h
  · cases h
    exact badValue_refuses

theorem takeIndexed_formed {n : Nat} {i : BitVec 8} {act : Fin n → State → State} :
    (takeChecked (indexCheck n i) .ok act s).1.Formed :=
  takeChecked_formed (fun _ => indexCheck_refuses) (by decide)

theorem layoutConflict_refuses {b0 zs : List ZoneDef} {st : Status} (h : layoutConflict b0 zs = some st) : st.refuses := by
  unfold layoutConflict at h
  split at h
  · cases h
    decide
  · split at h
    · cases h
      decide
    · cases h

theorem loadLayoutCheck_refuses {bank : BitVec 8} {offset : Word} {st : Status}
    (h : loadLayoutCheck s bank offset = .error st) : st.refuses := by
  unfold loadLayoutCheck at h
  split at h
  · cases h
    decide
  split at h
  · cases h
    decide
  split at h
  · cases h
    decide
  split at h
  · cases h
    decide
  split at h
  · cases h
    decide
  split at h
  · cases h
    decide
  split at h
  · next hconflict =>
    cases h
    exact layoutConflict_refuses hconflict
  · cases h

theorem selectLayoutCheck_refuses {bank : BitVec 8} {st : Status} (h : selectLayoutCheck s bank = .error st) :
    st.refuses := by
  unfold selectLayoutCheck at h
  split at h
  · cases h
    decide
  · repeat' split at h
    all_goals cases h
    all_goals decide

theorem sponsorWriteCheck_refuses {entry : BitVec 8} {offset : Word} {st : Status}
    (h : sponsorWriteCheck s entry offset = .error st) : st.refuses := by
  unfold sponsorWriteCheck at h
  split at h
  · cases h
    decide
  · repeat' split at h
    all_goals cases h
    all_goals decide

theorem triggerArmCheck_refuses {p : Payload} {st : Status} (h : triggerArmCheck s p = .error st) : st.refuses := by
  unfold triggerArmCheck at h
  split at h
  · split at h
    · cases h
      decide
    · cases h
  · cases h
    decide

theorem setClock_status (p : ClockSetPayload) (s : State) : (setClock p s).1 = .ok ∨ (setClock p s).1.refuses := by
  unfold setClock
  split
  · repeat' split
    all_goals
      dsimp only
      decide
  · dsimp only
    decide

theorem runClock_status (channel action : BitVec 8) (delta : Word) (s : State) :
    (runClock channel action delta s).1 = .ok ∨ (runClock channel action delta s).1.refuses := by
  unfold runClock runStart runAdjust
  split
  · dsimp only
    decide
  · repeat' split
    all_goals
      dsimp only
      decide

theorem setConsole_status (p : ConsolePayload) (s : State) : (setConsole p s).1 = .ok ∨ (setConsole p s).1.refuses := by
  unfold setConsole
  split
  · dsimp only
    decide
  · dsimp only
    decide

theorem foundTaking_formed (found : Bool) : (foundTaking found).Formed := by
  cases found with
  | true => exact (by decide : ¬Status.ok.refuses)
  | false => exact (by decide : Status.notFound.refuses)

theorem takeWithdraw_formed (target entry : BitVec 8) (tag : Tag) (kept : RunSlots) (s : State) :
    (takeWithdraw target entry tag kept s).1.Formed := by
  unfold takeWithdraw
  split
  · exact foundTaking_formed _
  · exact foundTaking_formed _
  · show (withdrawTrigger entry s).1.Formed
    unfold withdrawTrigger
    split
    · exact badValue_refuses
    · split
      · exact (by decide : ¬Status.ok.refuses)
      · exact (by decide : Status.notFound.refuses)
  · exact badValue_refuses

/-! ## The slots that a taking uses -/

/-- No clip and no message slot that works or waits has become idle. -/
structure SlotsStay (s t : State) : Prop where
  clips : ∀ k : Fin 8, s.cle.slots[k].state ≠ .idle → t.cle.slots[k].state ≠ .idle
  messages : ∀ k : Fin 8, s.msu.slots[k].state ≠ .idle → t.msu.slots[k].state ≠ .idle

theorem SlotsStay.refl (s : State) : SlotsStay s s := ⟨fun _ h => h, fun _ h => h⟩

theorem SlotsStay.trans (h : SlotsStay s t) (k : SlotsStay t u) : SlotsStay s u :=
  ⟨fun i hi => k.clips i (h.clips i hi), fun i hi => k.messages i (h.messages i hi)⟩

theorem SlotsStay.of_frame {ps : List Part} (h : ChangesOnly ps s t) (hc : ps.contains .cle = false)
    (hm : ps.contains .msu = false) : SlotsStay s t := by
  have hcle : t.cle = s.cle := h .cle hc
  have hmsu : t.msu = s.msu := h .msu hm
  exact ⟨fun k hk => by rw [hcle]; exact hk, fun k hk => by rw [hmsu]; exact hk⟩

theorem onClip_stays {k : Fin 8} {f : ClipSlot → ClipSlot} (hf : ∀ c, (f c).state ≠ .idle) (s : State) :
    SlotsStay s (onClip k f s) ∧ (onClip k f s).cle.slots[k].state ≠ .idle := by
  have hget : ∀ j : Fin 8, (onClip k f s).cle.slots[j] = if j = k then f s.cle.slots[k] else s.cle.slots[j] :=
    fun j => upd_get _ _ _ _
  refine ⟨⟨fun j hj => ?_, fun _ h => h⟩, ?_⟩
  · rw [hget]
    split
    · exact hf _
    · exact hj
  · rw [hget, if_pos rfl]
    exact hf _

theorem onMessage_stays {k : Fin 8} {f : MessageSlot → MessageSlot} (hf : (f s.msu.slots[k]).state ≠ .idle) :
    SlotsStay s (onMessage k f s) ∧ (onMessage k f s).msu.slots[k].state ≠ .idle := by
  have hget : ∀ j : Fin 8, (onMessage k f s).msu.slots[j] = if j = k then f s.msu.slots[k] else s.msu.slots[j] :=
    fun j => upd_get _ _ _ _
  refine ⟨⟨fun _ h => h, fun j hj => ?_⟩, ?_⟩
  · rw [hget]
    split
    · exact hf
    · exact hj
  · rw [hget, if_pos rfl]
    exact hf

theorem OrdinaryMade.stays {c : Claim} {zs : List (Fin 16)} (h : OrdinaryMade c zs s t) : SlotsStay s t := by
  have hclip : ∀ j : Fin 8, t.cle.slots[j].state = s.cle.slots[j].state := fun j => by
    have hstate := congrArg ClipSlot.state (h.clip_kept j)
    exact hstate
  have hmessage : ∀ j : Fin 8, t.msu.slots[j].state = s.msu.slots[j].state := fun j => by
    have hstate := congrArg MessageSlot.state (h.message_kept j)
    exact hstate
  exact ⟨fun k hk => by rw [hclip]; exact hk, fun k hk => by rw [hmessage]; exact hk⟩

theorem claimZones_stay (c : Claim) (zones : ZoneMask) (h : (claimZones c false (zonesOf zones) s).1.taken ≠ 0) :
    SlotsStay s (claimZones c false (zonesOf zones) s).2 := by
  cases hlive : s.smp.dev.live with
  | false => exact absurd (claimZones_of_not_live hlive _) h
  | true => exact (ordinary_made c zones hlive).stays

/-- A PLAY_CLIP is answered at once, or plays in an idle slot. -/
theorem takeClip_outcome (h : Handover) (kept : RunSlots) (p : ClipPayload) (s : State) :
    (∃ tk, takeClip h kept p s = (tk, s) ∧ tk.Formed ∧ ∀ z, tk ≠ .accepted z) ∨
    ∃ k z v, takeClip h kept p s = (.accepted z, v) ∧ idleClip s.cle kept.clips = some k ∧ SlotsStay s v ∧
      v.cle.slots[k].state ≠ .idle := by
  cases hgate : s.cle.gate with
  | halted => exact .inl ⟨_, takeClip_of_halted hgate, (by decide : ¬Status.halted.refuses), nofun⟩
  | fallback => exact .inl ⟨_, takeClip_of_fallback hgate, (by decide : ¬Status.abandoned.refuses), nofun⟩
  | open_ =>
    cases hvalues : clipValuesOk p with
    | false => exact .inl ⟨_, takeClip_badValue hgate hvalues, badValue_refuses, nofun⟩
    | true =>
    cases hregion : clipRegionOk p with
    | false => exact .inl ⟨_, takeClip_badRegion hgate hvalues hregion, (by decide : Status.badRegion.refuses), nofun⟩
    | true =>
    cases htag : clipWithTag s.cle p.tag with
    | some k =>
      exact .inl ⟨_, takeClip_tagInUse hgate hvalues hregion (by rw [htag]; rfl), (by decide : Status.tagInUse.refuses),
        nofun⟩
    | none =>
    cases hidle : idleClip s.cle kept.clips with
    | none =>
      exact .inl ⟨_, takeClip_noSlot hgate hvalues hregion htag hidle, (by decide : Status.noSlot.refuses), nofun⟩
    | some k =>
    have htake := takeClip_of_slot (h := h) (kept := kept) hgate hvalues hregion htag hidle
    by_cases htaken : (claimZones (clipClaim k p) false (zonesOf p.zones) s).1.taken = 0
    · exact .inl ⟨_, htake.trans (if_pos htaken), (by decide : Status.zoneFull.refuses), nofun⟩
    · obtain ⟨hstays, hplays⟩ := onClip_stays (k := k) (f := fun _ => newClip p h
        (claimZones (clipClaim k p) false (zonesOf p.zones) s).1 s.ftu.frame s.smp.anchorEpoch) (fun _ => nofun)
        (claimZones (clipClaim k p) false (zonesOf p.zones) s).2
      exact .inr ⟨k, _, _, htake.trans (if_neg htaken), rfl, (claimZones_stay _ _ htaken).trans hstays, hplays⟩

/-- A POST_MESSAGE is answered at once, replaces the message of its tag, or shows in an idle slot. -/
theorem takeMessage_outcome (h : Handover) (kept : RunSlots) (p : MessagePayload) (s : State) :
    (∃ tk, takeMessage h kept p s = (tk, s) ∧ tk.Formed ∧ ∀ z, tk ≠ .accepted z) ∨
    (∃ k v, takeMessage h kept p s = (.accepted 0, v) ∧ messageWithTag s.msu p.tag = some k ∧ SlotsStay s v) ∨
    ∃ k z v, takeMessage h kept p s = (.accepted z, v) ∧ messageWithTag s.msu p.tag = none ∧
      idleMessage s.msu kept.messages = some k ∧
      ((p.cls == 1) = false → SlotsStay s v ∧ v.msu.slots[k].state ≠ .idle) := by
  cases hhalt : s.msu.afterHalt with
  | true => exact .inl ⟨_, takeMessage_of_halted hhalt, (by decide : ¬Status.halted.refuses), nofun⟩
  | false =>
  cases hvalues : messageValuesOk p with
  | false => exact .inl ⟨_, takeMessage_badValue hhalt hvalues, badValue_refuses, nofun⟩
  | true =>
  cases hregion : messageRegionOk p with
  | false => exact .inl ⟨_, takeMessage_badRegion hhalt hvalues hregion, (by decide : Status.badRegion.refuses), nofun⟩
  | true =>
  cases htag : messageWithTag s.msu p.tag with
  | some k =>
    refine .inr (.inl ⟨k, _, takeMessage_of_repost hhalt hvalues hregion htag, rfl, ?_⟩)
    have hfound := List.find?_some htag
    have hworking : s.msu.slots[k].working = true := ((Bool.and_eq_true _ _).mp hfound).1
    have hcompleted : ChangesOnly [.mem, .events, .etu] s (completeOrigin s.msu.slots[k] .replaced s.ftu.frame s) :=
      completeOrigin_then _ _ _ (.refl _ s) rfl
    have hmsu : (completeOrigin s.msu.slots[k] .replaced s.ftu.frame s).msu = s.msu := hcompleted .msu rfl
    have hshowing : s.msu.slots[k].state ≠ .idle := by
      rw [beq_iff_eq.mp hworking]
      exact nofun
    refine (SlotsStay.of_frame hcompleted rfl rfl).trans (onMessage_stays ?_).1
    show (completeOrigin s.msu.slots[k] .replaced s.ftu.frame s).msu.slots[k].state ≠ .idle
    rw [hmsu]
    exact hshowing
  | none =>
  cases hidle : idleMessage s.msu kept.messages with
  | none =>
    exact .inl ⟨_, takeMessage_noSlot hhalt hvalues hregion htag hidle, (by decide : Status.noSlot.refuses), nofun⟩
  | some k =>
  have htake := takeMessage_of_slot (h := h) (kept := kept) hhalt hvalues hregion htag hidle
  by_cases htaken : (messageClaims k p s).1.taken = 0
  · exact .inl ⟨_, htake.trans (if_pos htaken), (by decide : Status.zoneFull.refuses), nofun⟩
  · refine .inr (.inr ⟨k, _, _, htake.trans (if_neg htaken), rfl, rfl, fun hordinary => ?_⟩)
    have hclaims : SlotsStay s (messageClaims k p s).2 := by
      rw [messageClaims, hordinary] at htaken ⊢
      exact claimZones_stay _ _ htaken
    obtain ⟨hstays, hshows⟩ := onMessage_stays (s := (messageClaims k p s).2) (k := k) (f := fun _ =>
      ((newMessage p (messageClaims k p s).1).withContent p (messageClaims k p s).2).withOrigin h
        (messageClaims k p s).1.refused (messageClaims k p s).2) nofun
    exact ⟨hclaims.trans hstays, hshows⟩

/-- What a member's owner answers shows in the record as refused exactly where it refuses. -/
theorem actMember_formed (m : Member) (kept : RunSlots) (s : State) : (actMember m kept s).1.Formed := by
  obtain ⟨i, late, work⟩ := m
  cases work with
  | none => exact (by decide : Status.badKind.refuses)
  | some w =>
    cases w with
    | playClip p =>
      show (takeClip ⟨.cue i, late⟩ kept p s).1.Formed
      obtain ⟨tk, htake, hformed, -⟩ | ⟨k, z, v, htake, -⟩ := takeClip_outcome ⟨.cue i, late⟩ kept p s <;> rw [htake]
      · exact hformed
      · trivial
    | postMessage p =>
      show (takeMessage ⟨.cue i, late⟩ kept p s).1.Formed
      obtain ⟨tk, htake, hformed, -⟩ | ⟨k, v, htake, -⟩ | ⟨k, z, v, htake, -⟩ :=
        takeMessage_outcome ⟨.cue i, late⟩ kept p s <;> rw [htake]
      · exact hformed
      · trivial
      · trivial
    | withdraw target entry tag => exact takeWithdraw_formed _ _ _ _ _
    | loadLayout bank offset => exact takeChecked_formed (fun _ => loadLayoutCheck_refuses) (by decide)
    | selectLayout bank => exact takeChecked_formed (fun _ => selectLayoutCheck_refuses) (by decide)
    | sponsorWrite entry offset => exact takeChecked_formed (fun _ => sponsorWriteCheck_refuses) (by decide)
    | sponsorState entry action =>
      show (takeSponsorState entry action s).1.Formed
      unfold takeSponsorState
      split
      · exact takeIndexed_formed
      · exact takeIndexed_formed
      · exact badValue_refuses
    | groupSet group action =>
      show (takeGroupSet group action s).1.Formed
      unfold takeGroupSet
      split
      · exact takeIndexed_formed
      · exact takeIndexed_formed
      · exact badValue_refuses
    | groupClear group => exact takeIndexed_formed
    | clockSet p => exact formed_ofStatus (setClock_status p s)
    | clockRun channel action delta => exact formed_ofStatus (runClock_status channel action delta s)
    | consoleSet p => exact formed_ofStatus (setConsole_status p s)
    | triggerArm p => exact takeChecked_formed (fun _ => triggerArmCheck_refuses) (by decide)
    | triggerDisarm entry => exact takeIndexed_formed

end Sys2Proof.Machine
end

section
/-! SUPPORT. O20: a linked run is acted on whole or not at all (R44 to R48). -/

namespace Sys2Proof.Machine

variable {s t u v : State} {levels : BitVec 8}

/-! ## The slots that a run has used -/

/-- No slot that the run has used is idle. -/
structure SlotsHeld (kept : RunSlots) (s : State) : Prop where
  clips : ∀ k ∈ kept.clips, s.cle.slots[k].state ≠ .idle
  messages : ∀ k ∈ kept.messages, s.msu.slots[k].state ≠ .idle

theorem slotsHeld_none (s : State) : SlotsHeld RunSlots.none s := ⟨nofun, nofun⟩

theorem SlotsHeld.of_stay {kept : RunSlots} (h : SlotsHeld kept s) (hstay : SlotsStay s t) : SlotsHeld kept t :=
  ⟨fun k hk => hstay.clips k (h.clips k hk), fun k hk => hstay.messages k (h.messages k hk)⟩

/-- The members ahead meet no slot that an earlier one has used: they use none, they are the first to use one, or
every slot that has been used is still in use. -/
def Unmet (kept : RunSlots) (ms : List Member) (s : State) : Prop :=
  (∀ m ∈ ms, m.work.all Work.plain = true) ∨
  (kept = RunSlots.none ∧ (ms.filter fun m => !m.work.all Work.plain).length ≤ 1) ∨
  (SlotsHeld kept s ∧ ∀ m ∈ ms, m.work.all Work.keepsSlots = true)

theorem unmet_of_unshared {ms : List Member} (h : SlotsUnshared ms) (s : State) : Unmet RunSlots.none ms s := by
  obtain h | h := h
  · exact .inr (.inl ⟨rfl, h⟩)
  · exact .inr (.inr ⟨slotsHeld_none s, h⟩)

theorem idleClip_of_held {c : Cle} {kept : List (Fin 8)} (h : ∀ k ∈ kept, c.slots[k].state ≠ .idle) :
    idleClip c kept = idleClip c [] := by
  unfold idleClip
  refine congrArg (fun p => List.find? p (List.finRange 8)) (funext fun k => ?_)
  by_cases hk : k ∈ kept
  · rw [beq_eq_false_iff_ne.mpr (h k hk)]
    rfl
  · rw [List.contains_eq_mem, decide_eq_false hk]
    rfl

theorem idleMessage_of_held {m : Msu} {kept : List (Fin 8)} (h : ∀ k ∈ kept, m.slots[k].state ≠ .idle) :
    idleMessage m kept = idleMessage m [] := by
  unfold idleMessage
  refine congrArg (fun p => List.find? p (List.finRange 8)) (funext fun k => ?_)
  by_cases hk : k ∈ kept
  · rw [beq_eq_false_iff_ne.mpr (h k hk)]
    rfl
  · rw [List.contains_eq_mem, decide_eq_false hk]
    rfl

theorem takeClip_of_held {kept : RunSlots} (hheld : SlotsHeld kept s) (h : Handover) (p : ClipPayload) :
    takeClip h kept p s = takeClip h RunSlots.none p s := by
  unfold takeClip
  rw [idleClip_of_held hheld.clips]
  rfl

theorem takeMessage_of_held {kept : RunSlots} (hheld : SlotsHeld kept s) (h : Handover) (p : MessagePayload) :
    takeMessage h kept p s = takeMessage h RunSlots.none p s := by
  unfold takeMessage
  rw [idleMessage_of_held hheld.messages]
  rfl

/-- A member that uses no slot asks for none and keeps none. -/
theorem actMember_of_plain {m : Member} (h : m.work.all Work.plain = true) (kept : RunSlots) (s : State) :
    (actMember m kept s).1 = (actMember m RunSlots.none s).1 ∧
    (actMember m kept s).2.2 = (actMember m RunSlots.none s).2.2 ∧ (actMember m kept s).2.1 = kept := by
  obtain ⟨i, late, work⟩ := m
  cases work with
  | none => exact ⟨rfl, rfl, rfl⟩
  | some w =>
    cases w with
    | playClip p => cases h
    | postMessage p => cases h
    | withdraw target entry tag => cases h
    | _ => exact ⟨rfl, rfl, rfl⟩

/-- A member that meets no slot of an earlier one acts as it would alone. -/
theorem actMember_of_unmet {kept : RunSlots} {m : Member} {ms : List Member} (h : Unmet kept (m :: ms) s) :
    (actMember m kept s).1 = (actMember m RunSlots.none s).1 ∧
    (actMember m kept s).2.2 = (actMember m RunSlots.none s).2.2 := by
  obtain h | ⟨rfl, -⟩ | ⟨hheld, hkeeps⟩ := h
  · obtain ⟨h1, h2, -⟩ := actMember_of_plain (h m (List.mem_cons_self ..)) kept s
    exact ⟨h1, h2⟩
  · exact ⟨rfl, rfl⟩
  · have hm := hkeeps m (List.mem_cons_self ..)
    obtain ⟨i, late, work⟩ := m
    cases work with
    | none => exact ⟨rfl, rfl⟩
    | some w =>
      cases w with
      | playClip p =>
        have htake := takeClip_of_held hheld ⟨.cue i, late⟩ p
        have hanswer := congrArg Prod.fst htake
        have hstate := congrArg Prod.snd htake
        exact ⟨hanswer, hstate⟩
      | postMessage p =>
        have htake := takeMessage_of_held hheld ⟨.cue i, late⟩ p
        have hanswer := congrArg Prod.fst htake
        have hstate := congrArg Prod.snd htake
        exact ⟨hanswer, hstate⟩
      | withdraw target entry tag => cases hm
      | _ => exact ⟨rfl, rfl⟩

theorem held_of_actClip {kept : RunSlots} (hheld : SlotsHeld kept s) (h : Handover) (p : ClipPayload) :
    SlotsHeld (keepClip (takeClip h kept p s).1 kept s) (takeClip h kept p s).2 := by
  obtain ⟨tk, htake, -, hnot⟩ | ⟨k, z, v, htake, hidle, hstays, hplays⟩ := takeClip_outcome h kept p s <;> rw [htake]
  · cases tk with
    | accepted z => exact absurd rfl (hnot z)
    | _ => exact hheld
  · rw [keepClip, hidle]
    refine ⟨fun j hj => ?_, fun j hj => hstays.messages j (hheld.messages j hj)⟩
    obtain rfl | hj := List.mem_cons.mp hj
    · exact hplays
    · exact hstays.clips j (hheld.clips j hj)

theorem held_of_actMessage {kept : RunSlots} (hheld : SlotsHeld kept s) (h : Handover) {p : MessagePayload}
    (hordinary : (p.cls == 1) = false) :
    SlotsHeld (keepMessage (takeMessage h kept p s).1 p kept s) (takeMessage h kept p s).2 := by
  obtain ⟨tk, htake, -, hnot⟩ | ⟨k, v, htake, htag, hstays⟩ | ⟨k, z, v, htake, htag, hidle, hmade⟩ :=
    takeMessage_outcome h kept p s <;> rw [htake]
  · cases tk with
    | accepted z => exact absurd rfl (hnot z)
    | _ => exact hheld
  · rw [keepMessage, htag]
    exact hheld.of_stay hstays
  · obtain ⟨hstays, hshows⟩ := hmade hordinary
    rw [keepMessage, htag, hidle]
    refine ⟨fun j hj => hstays.clips j (hheld.clips j hj), fun j hj => ?_⟩
    obtain rfl | hj := List.mem_cons.mp hj
    · exact hshows
    · exact hstays.messages j (hheld.messages j hj)

/-- A member that ends no clip or message leaves every slot in use that the run has used. -/
theorem actMember_held {kept : RunSlots} {m : Member} (hheld : SlotsHeld kept s)
    (hm : m.work.all Work.keepsSlots = true) : SlotsHeld (actMember m kept s).2.1 (actMember m kept s).2.2 := by
  obtain ⟨i, late, work⟩ := m
  have hs : ∀ ps, ChangesOnly ps s s := fun ps => .refl ps s
  cases work with
  | none => exact hheld
  | some w =>
    cases w with
    | playClip p => exact held_of_actClip hheld _ p
    | postMessage p =>
      have hordinary : (p.cls == 1) = false := (bne_iff_ne ..).mp hm |> beq_eq_false_iff_ne.mpr
      exact held_of_actMessage hheld _ hordinary
    | withdraw target entry tag => cases hm
    | selectLayout bank => cases hm
    | loadLayout bank offset => exact hheld.of_stay (.of_frame (takeLoadLayout_then _ _ (hs [.zar]) rfl) rfl rfl)
    | sponsorWrite entry offset => exact hheld.of_stay (.of_frame (takeSponsorWrite_then _ _ (hs [.sru]) rfl) rfl rfl)
    | sponsorState entry action =>
      exact hheld.of_stay (.of_frame (takeSponsorState_then _ _ (hs [.sru, .plw, .events, .mem, .free]) rfl) rfl rfl)
    | groupSet group action =>
      exact hheld.of_stay (.of_frame (takeGroupSet_then _ _ (hs [.sru, .zar, .plw, .events, .mem, .free]) rfl) rfl rfl)
    | groupClear group =>
      exact hheld.of_stay (.of_frame (takeGroupClear_then _ (hs [.sru, .plw, .events, .mem, .free]) rfl) rfl rfl)
    | clockSet p => exact hheld.of_stay (.of_frame (setClock_then p (hs [.ccu]) rfl) rfl rfl)
    | clockRun channel action delta => exact hheld.of_stay (.of_frame (runClock_then _ _ _ (hs [.ccu]) rfl) rfl rfl)
    | consoleSet p => exact hheld.of_stay (.of_frame (setConsole_then p (hs [.ccu]) rfl) rfl rfl)
    | triggerArm p => exact hheld.of_stay (.of_frame (takeTriggerArm_then _ (hs [.etu, .mem]) rfl) rfl rfl)
    | triggerDisarm entry => exact hheld.of_stay (.of_frame (takeTriggerDisarm_then _ (hs [.etu]) rfl) rfl rfl)

/-- Behind a member that met no slot of an earlier one, the others meet none. -/
theorem unmet_next {kept : RunSlots} {m : Member} {ms : List Member} (h : Unmet kept (m :: ms) s) (tk : Taking) :
    Unmet (actMember m kept s).2.1 ms (writeTaking m.index m.late tk (actMember m kept s).2.2) := by
  obtain h | ⟨rfl, hone⟩ | ⟨hheld, hkeeps⟩ := h
  · exact .inl fun x hx => h x (List.mem_cons_of_mem _ hx)
  · cases hplain : m.work.all Work.plain with
    | true =>
      obtain ⟨-, -, hkept⟩ := actMember_of_plain hplain RunSlots.none s
      rw [List.filter_cons_of_neg (by rw [hplain]; exact Bool.false_ne_true)] at hone
      exact .inr (.inl ⟨hkept, hone⟩)
    | false =>
      rw [List.filter_cons_of_pos (by rw [hplain]; rfl), List.length_cons] at hone
      have hnone := List.filter_eq_nil_iff.mp (List.eq_nil_of_length_eq_zero (Nat.le_zero.mp (Nat.le_of_succ_le_succ hone)))
      exact .inl fun x hx => by simpa using hnone x hx
  · refine .inr (.inr ⟨?_, fun x hx => hkeeps x (List.mem_cons_of_mem _ hx)⟩)
    exact (actMember_held hheld (hkeeps m (List.mem_cons_self ..))).of_stay
      (.of_frame (writeTaking_then (ps := [.mem, .events]) _ _ _ (.refl _ _) rfl) rfl rfl)

/-! ## A run member by member -/

theorem actRun_cons_ok {m : Member} {ms : List Member} {kept : RunSlots} (h : actRun (m :: ms) kept s = .ok u) :
    (∀ st z, (actMember m kept s).1 ≠ .refused st z) ∧
    actRun ms (actMember m kept s).2.1 (writeTaking m.index m.late (actMember m kept s).1 (actMember m kept s).2.2) =
      .ok u := by
  rw [actRun_cons] at h
  split at h
  · cases h
  · next hnot => exact ⟨hnot, h⟩

theorem actRun_of_accepted {m : Member} {kept : RunSlots} (h : ∀ st z, (actMember m kept s).1 ≠ .refused st z)
    (ms : List Member) : actRun (m :: ms) kept s =
      actRun ms (actMember m kept s).2.1 (writeTaking m.index m.late (actMember m kept s).1 (actMember m kept s).2.2) := by
  rw [actRun_cons]
  split
  · next heq => exact absurd heq (h _ _)
  · rfl

theorem actRun_of_refused {m : Member} {kept : RunSlots} {st : Status} {z : ZoneMask}
    (h : (actMember m kept s).1 = .refused st z) (ms : List Member) :
    actRun (m :: ms) kept s = .error (m.index, .refused st z) := by
  rw [actRun_cons, h]

theorem writeTaking_of_unmet {kept : RunSlots} {m : Member} {ms : List Member} (h : Unmet kept (m :: ms) s) :
    writeTaking m.index m.late (actMember m kept s).1 (actMember m kept s).2.2 = takeSingle m s := by
  obtain ⟨htk, hstate⟩ := actMember_of_unmet h
  rw [htk, hstate, takeSingle]

/-- A run that passes is acted on as the commands of its members. -/
theorem actRun_commands (ms : List Member) : ∀ (kept : RunSlots) (s : State), Unmet kept ms s →
    actRun ms kept s = .ok u → s.ccu.levels = levels →
    ∃ cs, ms.map (Member.command levels) = cs.map some ∧ afterAll cs s = some u := by
  induction ms with
  | nil =>
    intro kept s _ h _
    cases h
    exact ⟨[], rfl, rfl⟩
  | cons m ms ih =>
    intro kept s hunmet h hlevels
    obtain ⟨hnot, hrest⟩ := actRun_cons_ok h
    have hnext := unmet_next hunmet (actMember m kept s).1
    rw [writeTaking_of_unmet hunmet] at hrest hnext
    obtain ⟨cs, hcs, hafter⟩ := ih _ _ hnext hrest ((takeSingle_logKept m s).levels.trans hlevels)
    cases hcommand : m.command levels with
    | none => exact absurd (congrArg Prod.fst (actMember_of_no_command hcommand kept s)) (hnot _ _)
    | some c =>
      refine ⟨c :: cs, by rw [List.map_cons, hcs, hcommand]; rfl, ?_⟩
      rw [afterAll, exec_of_command hcommand hlevels]
      exact hafter

/-- Behind the members that have passed, the run goes on from where they left it. -/
theorem actRun_behind (ms : List Member) (pre : List Member) : ∀ (kept : RunSlots) (s : State), Unmet kept (pre ++ ms) s →
    actRun pre kept s = .ok u → ∃ kept', Unmet kept' ms u ∧ ∀ rest, actRun (pre ++ rest) kept s = actRun rest kept' u := by
  induction pre with
  | nil =>
    intro kept s hunmet h
    cases h
    exact ⟨kept, hunmet, fun _ => rfl⟩
  | cons m pre ih =>
    intro kept s hunmet h
    obtain ⟨hnot, hrest⟩ := actRun_cons_ok h
    obtain ⟨kept', hkept, hgoes⟩ := ih _ _ (unmet_next hunmet (actMember m kept s).1) hrest
    exact ⟨kept', hkept, fun rest => (actRun_of_accepted hnot (pre ++ rest)).trans (hgoes rest)⟩

/-- What fails a run fails it whatever follows. -/
theorem actRun_error_append (pre post : List Member) {failure : Nat × Taking} : ∀ (kept : RunSlots) (s : State),
    actRun pre kept s = .error failure → actRun (pre ++ post) kept s = .error failure := by
  induction pre with
  | nil => exact fun _ _ h => nomatch h
  | cons m pre ih =>
    intro kept s h
    rw [List.cons_append]
    rw [actRun_cons] at h ⊢
    split at h
    · exact h
    · exact ih _ _ h

theorem actRun_failing_mem (ms : List Member) {failing : Nat} {answer : Taking} : ∀ (kept : RunSlots) (s : State),
    actRun ms kept s = .error (failing, answer) → failing ∈ ms.map Member.index := by
  induction ms with
  | nil => exact fun _ _ h => nomatch h
  | cons m ms ih =>
    intro kept s h
    rw [actRun_cons] at h
    split at h
    · cases h
      exact List.mem_cons_self ..
    · exact List.mem_cons_of_mem _ (ih _ _ h)

end Sys2Proof.Machine
end

section
/-! SUPPORT. O20, the records of a linked run and the scan that meets it (R44 to R48). -/

namespace Sys2Proof.Machine

variable {s t u v : State} {levels : BitVec 8}

/-! ## The records of a run that is refused -/

/-- Records written DONE one after another, each with its own result. -/
def writeDones (r : Member → CueResult) (ms : List Member) (s : State) : State :=
  inOrder ms (fun m => writeDone m.index (r m)) s

/-- What records written DONE leave. -/
structure DonesRead (r : Member → CueResult) (ms : List Member) (s t : State) : Prop where
  frame : ChangesOnly [.mem, .events] s t
  reads : ∀ m ∈ ms, RecordReads s t m.index (r m) 3
  events : t.smp.events = s.smp.events ||| (if ms = [] then 0#10 else 1#10)
  outside : ∀ a, (∀ m ∈ ms, ¬ResultByte s m.index a) → t.mem.get a = s.mem.get a

theorem writeDones_read (r : Member → CueResult) (ms : List Member) : ∀ s : State, s.smp.inForce = true →
    CueListInside s → (∀ m ∈ ms, m.index < s.ciu.listLength) → (ms.map Member.index).Nodup →
    DonesRead r ms s (writeDones r ms s) := by
  induction ms with
  | nil =>
    intro s _ _ _ _
    exact ⟨.refl _ s, nofun, by rw [if_pos rfl, BitVec.or_zero]; rfl, fun _ _ => rfl⟩
  | cons m ms ih =>
    intro s hforce hinside hindex hnodup
    obtain ⟨hnew, hnodup⟩ := List.nodup_cons.mp hnodup
    have hframe : ChangesOnly [.mem, .events] s (writeDone m.index (r m) s) := writeDone_then _ _ (.refl _ s) rfl
    have hwritten := writeDone_recordWritten (i := m.index) hinside (r m)
    obtain ⟨hreads, hkeeps, hevents⟩ := (if_pos ⟨hforce, hindex m (List.mem_cons_self ..)⟩).mp hwritten
    have hevents : (writeDone m.index (r m) s).smp.events = s.smp.events ||| 1#10 := hevents
    have hciu : (writeDone m.index (r m) s).ciu = s.ciu := hframe .ciu rfl
    have hcue : ∀ i, cueOffset (writeDone m.index (r m) s) i = cueOffset s i := fun i => by
      rw [cueOffset, cueOffset, hciu]
    obtain ⟨hframe', hreads', hevents', hkeeps'⟩ := ih (writeDone m.index (r m) s) ((hframe.inForce rfl).trans hforce)
      (by rw [CueListInside, hciu]; exact hinside)
      (fun x hx => by rw [hciu]; exact hindex x (List.mem_cons_of_mem _ hx)) hnodup
    have hgoes : writeDones r (m :: ms) s = writeDones r ms (writeDone m.index (r m) s) := rfl
    rw [← hgoes] at hframe' hreads' hevents' hkeeps'
    generalize writeDones r (m :: ms) s = t at *
    simp only [ResultByte, RecordReads, hcue] at hreads' hkeeps'
    refine ⟨hframe.trans hframe', fun x hx => ?_, ?_, fun a ha => ?_⟩
    · obtain rfl | hx := List.mem_cons.mp hx
      · refine hreads.of_get fun a hlo hhi => hkeeps' a fun y hy => ?_
        exact not_resultByte (fun h => hnew (by rw [← h]; exact List.mem_map_of_mem hy)) hlo hhi
      · exact hreads' x hx
    · rw [hevents', hevents, if_neg (List.cons_ne_nil _ _)]
      split
      · exact BitVec.or_zero
      · rw [BitVec.or_assoc]
        rfl
    · exact (hkeeps' a fun x hx => ha x (List.mem_cons_of_mem _ hx)).trans (hkeeps a (ha m (List.mem_cons_self ..)))

/-- The result that a member of a refused run is given. -/
def refusedMember (frame : Frame) (failing : Nat) (status : Status) (zones : ZoneMask) (m : Member) : CueResult :=
  if m.index = failing then takenResult frame m.late status zones else takenResult frame m.late .groupRefused 0

theorem writeRefusedRun_eq (ms : List Member) (failing : Nat) (status : Status) (zones : ZoneMask) : ∀ s : State,
    writeRefusedRun ms failing (.refused status zones) s =
      writeDones (refusedMember s.ftu.frame failing status zones) ms s := by
  induction ms with
  | nil => exact fun _ => rfl
  | cons m ms ih =>
    intro s
    have hfirst : writeTaking m.index m.late (if m.index = failing then .refused status zones else .refused .groupRefused 0)
        s = writeDone m.index (refusedMember s.ftu.frame failing status zones m) s := by
      unfold refusedMember
      split <;> rfl
    have hftu : (writeDone m.index (refusedMember s.ftu.frame failing status zones m) s).ftu = s.ftu :=
      writeDone_then (ps := [.mem, .events]) _ _ (.refl _ s) rfl .ftu rfl
    show writeRefusedRun ms failing (.refused status zones) (writeTaking m.index m.late _ s) = _
    rw [hfirst, ih, hftu]
    rfl

/-! ## The record of a member -/

theorem recordReads_status {i : Nat} {r r' : CueResult} {code code' : Word} (h : RecordReads s t i r code)
    (h' : RecordReads s t i r' code') : code = code' ∧ r.status.code = r'.status.code := by
  obtain ⟨hcode, hstatus, -⟩ := h
  obtain ⟨hcode', hstatus', -⟩ := h'
  exact ⟨hcode.symm.trans hcode', hstatus.symm.trans hstatus'⟩

/-- A member taken alone shows its refusal, or no refusal. -/
theorem takeSingle_reads {m : Member} (hforce : u.smp.inForce = true) (hinside : CueListInside u)
    (hindex : m.index < u.ciu.listLength) :
    (∀ st z, (actMember m RunSlots.none u).1 = .refused st z →
      RecordReads u (takeSingle m u) m.index (takenResult u.ftu.frame m.late st z) 3) ∧
    ((∀ st z, (actMember m RunSlots.none u).1 ≠ .refused st z) → ∀ st z, st.refuses →
      ¬RecordReads u (takeSingle m u) m.index (takenResult u.ftu.frame m.late st z) 3) := by
  have hframe : ChangesOnly [.cle, .msu, .zar, .mem, .events, .etu, .sru, .plw, .ccu, .free] u
      (actMember m RunSlots.none u).2.2 := actMember_then m _ (.refl _ u) rfl
  have hformed := actMember_formed m RunSlots.none u
  have hciu : (actMember m RunSlots.none u).2.2.ciu = u.ciu := hframe .ciu rfl
  have hftu : (actMember m RunSlots.none u).2.2.ftu = u.ftu := hframe .ftu rfl
  have hforce' : (actMember m RunSlots.none u).2.2.smp.inForce = true := (hframe.inForce rfl).trans hforce
  have hcue : cueOffset (actMember m RunSlots.none u).2.2 m.index = cueOffset u m.index := by
    rw [cueOffset, cueOffset, hciu]
  rw [takeSingle]
  generalize actMember m RunSlots.none u = r at *
  obtain ⟨tk, kept, w⟩ := r
  have hinside' : CueListInside w := by rw [CueListInside, hciu]; exact hinside
  have hin : w.smp.inForce = true ∧ m.index < w.ciu.listLength := ⟨hforce', by rw [hciu]; exact hindex⟩
  have hdone : ∀ res, RecordReads u (writeDone m.index res w) m.index res 3 := fun res => by
    obtain ⟨hreads, -⟩ := (if_pos hin).mp (writeDone_recordWritten (i := m.index) hinside' res)
    rw [RecordReads, hcue] at hreads
    exact hreads
  cases tk with
  | refused st z =>
    refine ⟨fun st' z' h => ?_, fun h => absurd rfl (h st z)⟩
    cases h
    rw [← hftu]
    exact hdone _
  | done st =>
    refine ⟨fun _ _ h => (nomatch h), fun _ st' z' hrefuses hreads => ?_⟩
    have hcodes := (recordReads_status (hdone _) hreads).2
    exact hformed (show 0x20 ≤ st.code.toNat by rw [show st.code = st'.code from hcodes]; exact hrefuses)
  | accepted z =>
    refine ⟨fun _ _ h => (nomatch h), fun _ st' z' _ hreads => ?_⟩
    have htaken := (writeCue_taken (takeResult m.late w.ftu.frame .pending z 0) hinside').2 hin.1 hin.2
    rw [RecordReads, hcue] at htaken
    exact absurd (recordReads_status (s := u) htaken hreads).1 (by decide)

/-! ## The scan that meets a run -/

/-- The records of a run, as the scan reads them, are those that it has assembled. -/
theorem assemble_scanned {n : Nat} (hscan : s.ciu.scan < s.ciu.listLength) (hpos : 1 ≤ n) (hn : n ≤ 8)
    (h : ∀ j, j < n → (recordAt s (scanned s j)).state = .posted ∧
      (recordAt s (scanned s j)).linked = decide (j + 1 < n)) :
    assemble s 8 s.ciu.scan [] = .run ((List.range n).map fun j => (scanned s j, recordAt s (scanned s j))) := by
  obtain ⟨n, rfl⟩ := Nat.exists_eq_succ_of_ne_zero (Nat.ne_of_gt hpos)
  rw [assemble_run n 8 s.ciu.scan [] hscan (by omega) fun j hj => by
    obtain ⟨hposted, hlinked⟩ := h j (by omega)
    exact ⟨hposted, hlinked.trans (by simp)⟩]
  rfl

theorem not_ready_iff (r : CueRecord) (f : Frame) : r.ready f = false ↔ ¬RecordReady r f := by
  rw [← ready_iff, Bool.not_eq_true]

section
variable {n : Nat} (hmade : ScanMade s false)
include hmade

/-- A run with a member that is not reached waits. -/
theorem scan_waits (hpos : 1 ≤ n) (hn : n ≤ 8)
    (hrun : ∀ j, j < n → (recordAt s (scanned s j)).state = .posted ∧
      (recordAt s (scanned s j)).linked = decide (j + 1 < n))
    (hearly : ∃ j, j < n ∧ ¬RecordReady (recordAt s (scanned s j)) s.ftu.frame) :
    exec (.ciuScan levels) s = .next (scanBegins levels s) := by
  obtain ⟨hdue, -, -, -, hrefusing, hscan, -, -, -⟩ := hmade
  refine ciuScan_of_stop hdue ?_
  have hposted := (hrun 0 hpos).1
  rw [scanned_zero hscan] at hposted
  cases hready : (recordAt s s.ciu.scan).ready s.ftu.frame with
  | false => exact scanStep_of_early (s := scanBegins levels s) hrefusing hready
  | true =>
    rw [scanStep_assembles (s := scanBegins levels s) (by decide) hposted hrefusing hready,
      assemble_scanned (s := scanBegins levels s) hscan hpos hn hrun]
    refine if_pos (.inr ?_)
    obtain ⟨j, hj, hnot⟩ := hearly
    refine List.all_eq_false.mpr ⟨(scanned s j, recordAt s (scanned s j)),
      List.mem_map.mpr ⟨j, List.mem_range.mpr hj, rfl⟩, ?_⟩
    exact mt (ready_iff _ _).mp hnot

/-- A run that is complete and reached is handled whole, and the index moves past it. -/
theorem scan_handles (hpos : 2 ≤ n) (hn : n ≤ 8)
    (hrun : ∀ j, j < n → (recordAt s (scanned s j)).state = .posted ∧
      (recordAt s (scanned s j)).linked = decide (j + 1 < n))
    (hready : ∀ j, j < n → RecordReady (recordAt s (scanned s j)) s.ftu.frame)
    (hnext : (recordAt (handleRun ((List.range n).map fun j => memberAt s (scanned s j)) (scanBegins levels s))
      (scanned s n)).state ≠ .posted) :
    ∃ t, exec (.ciuScan levels) s = .next t ∧
      ScanMoved n (handleRun ((List.range n).map fun j => memberAt s (scanned s j)) (scanBegins levels s)) t := by
  obtain ⟨hdue, hdev, -, -, hrefusing, hscan, -, -, -⟩ := hmade
  obtain ⟨hposted, hlinked⟩ := hrun 0 (by omega)
  have hfirst := hready 0 (by omega)
  rw [scanned_zero hscan] at hposted hlinked hfirst
  have hciu : (handleRun ((List.range n).map fun j => memberAt s (scanned s j)) (scanBegins levels s)).ciu =
      (scanBegins levels s).ciu := handleRun_then
    (ps := [.cle, .msu, .zar, .mem, .events, .etu, .sru, .plw, .ccu, .free]) _ (.refl _ _) rfl .ciu rfl
  refine ciuScan_of_acts hdue hdev (by omega) ?_ hciu hnext
  have hall : ((List.range n).map fun j => (scanned s j, recordAt s (scanned s j))).all
      (fun x => x.2.ready s.ftu.frame) = true := List.all_eq_true.mpr fun x hx => by
    obtain ⟨j, hj, rfl⟩ := List.mem_map.mp hx
    exact (ready_iff _ _).mpr (hready j (List.mem_range.mp hj))
  have hmembers : ((List.range n).map fun j => (scanned s j, recordAt s (scanned s j))).map (memberOf s.ftu.frame) =
      (List.range n).map fun j => memberAt s (scanned s j) := by
    rw [List.map_map]
    exact List.map_congr_left fun j _ => memberOf_eq s (scanned s j)
  rw [scanStep_assembles (s := scanBegins levels s) (by decide) hposted hrefusing ((ready_iff _ _).mpr hfirst),
    assemble_scanned (s := scanBegins levels s) hscan (by omega) hn hrun]
  show (if 16 < ((List.range n).map fun j => (scanned s j, recordAt s (scanned s j))).length ∨
    ((List.range n).map fun j => (scanned s j, recordAt s (scanned s j))).all (fun x => x.2.ready s.ftu.frame) = false
    then none else _) = _
  rw [if_neg (by rw [hall, List.length_map, List.length_range]; rintro (h | h); exacts [by omega, nomatch h])]
  show some (16 - ((List.range n).map fun j => (scanned s j, recordAt s (scanned s j))).length, moveScan
    ((List.range n).map fun j => (scanned s j, recordAt s (scanned s j))).length
    (if (recordAt s s.ciu.scan).linked = true then handleRun (((List.range n).map fun j =>
      (scanned s j, recordAt s (scanned s j))).map (memberOf s.ftu.frame)) (scanBegins levels s) else _)) = _
  rw [if_pos (hlinked.trans (decide_eq_true (by omega))), hmembers, List.length_map, List.length_range]

/-- A run whose end has not been posted waits. -/
theorem scan_awaits_end (hpos : 1 ≤ n) (hn : n < 8)
    (hrun : ∀ j, j < n → (recordAt s (scanned s j)).state = .posted ∧ (recordAt s (scanned s j)).linked = true)
    (hend : (recordAt s (scanned s n)).state ≠ .posted) :
    exec (.ciuScan levels) s = .next (scanBegins levels s) := by
  obtain ⟨hdue, -, -, -, hrefusing, hscan, -, -, -⟩ := hmade
  refine ciuScan_of_stop hdue ?_
  have hposted := (hrun 0 hpos).1
  rw [scanned_zero hscan] at hposted
  cases hready : (recordAt s s.ciu.scan).ready s.ftu.frame with
  | false => exact scanStep_of_early (s := scanBegins levels s) hrefusing hready
  | true =>
    rw [scanStep_assembles (s := scanBegins levels s) (by decide) hposted hrefusing hready,
      show assemble (scanBegins levels s) 8 (scanBegins levels s).ciu.scan [] = .incomplete from
        assemble_incomplete (s := scanBegins levels s) n 8 s.ciu.scan [] hscan hn hrun hend]

end

/-- Settles O20. -/
theorem linkedRunActedOnWholeOrNotAtAll : Obligations.LinkedRunActedOnWholeOrNotAtAll := by
  refine ⟨fun ms failing status zones s herror hnodup hforce hinside hindex => ?_, fun ms s u hok hunshared => ?_,
    fun pre post failing answer s => actRun_error_append pre post RunSlots.none s,
    fun pre post m s u hok hunshared => ?_,
    fun levels n s hmade hpos hn hrun => ⟨scan_waits hmade (by omega) hn hrun, scan_handles hmade hpos hn hrun⟩,
    fun levels n s hmade hpos hn hrun => scan_awaits_end hmade hpos hn hrun⟩
  · have hhandled : handleRun ms s = writeDones (refusedMember s.ftu.frame failing status zones) ms s := by
      rw [handleRun, herror]
      exact writeRefusedRun_eq ms failing status zones s
    have hmem := actRun_failing_mem ms RunSlots.none s herror
    obtain ⟨hframe, hreads, hevents, houtside⟩ := writeDones_read (refusedMember s.ftu.frame failing status zones) ms s
      hforce hinside hindex hnodup
    rw [if_neg (by rintro rfl; cases hmem)] at hevents
    rw [hhandled]
    exact ⟨hframe, hmem, hreads, hevents, houtside⟩
  · exact ⟨by rw [handleRun, hok], actRun_commands ms RunSlots.none s (unmet_of_unshared hunshared s) hok rfl⟩
  · obtain ⟨kept, hunmet, hgoes⟩ := actRun_behind [m] pre RunSlots.none s (unmet_of_unshared hunshared s) hok
    refine ⟨fun hcommand => ?_, fun c v hcommand hexec hforce hinside hindex => ?_⟩
    · rw [hgoes]
      exact actRun_of_refused (congrArg Prod.fst (actMember_of_no_command hcommand kept u)) post
    · have hv : takeSingle m u = v :=
        Host.Outcome.next.inj ((exec_of_command hcommand (actRun_logKept pre _ hok).levels).symm.trans hexec)
      obtain ⟨hrefusal, hnone⟩ := takeSingle_reads (m := m) hforce hinside hindex
      have hsame := (actMember_of_unmet hunmet).1
      have hwrites := writeTaking_of_unmet hunmet
      have hformed := actMember_formed m kept u
      rw [hv] at hrefusal hnone hwrites
      rw [← hsame] at hrefusal hnone
      rw [hgoes, hgoes]
      cases htk : (actMember m kept u).1 with
      | refused status zones =>
        rw [htk] at hformed
        exact .inl ⟨status, zones, hformed, hrefusal status zones htk, actRun_of_refused htk post⟩
      | done _ =>
        have hnot : ∀ st z, (actMember m kept u).1 ≠ .refused st z := fun st z => by rw [htk]; exact nofun
        exact .inr ⟨hnone hnot, by rw [actRun_of_accepted hnot, hwrites]; rfl⟩
      | accepted _ =>
        have hnot : ∀ st z, (actMember m kept u).1 ≠ .refused st z := fun st z => by rw [htk]; exact nofun
        exact .inr ⟨hnone hnot, by rw [actRun_of_accepted hnot, hwrites]; rfl⟩

end Sys2Proof.Machine
end
